-- ==== Sys2Proof/Word.lean ====
section
/-! DEFINITION. The words of the Hykor Graph Sequencer (HGS) and their plainest arithmetic. -/
namespace Sys2Proof

/-- A 64-bit word: the unit of registers (R14), records and transfers. -/
abbrev W64 := BitVec 64

/-- Little-endian data of a transfer, as 64-bit words in address order (R13). -/
abbrev Words := List W64

/-- Word `i` of some data; a word beyond its end reads as 0. -/
def Words.at (ws : Words) (i : Nat) : W64 := ws.getD i 0

end Sys2Proof
end

