-- ==== Sys2Proof/Syntax.lean ====
section
/-! DEFINITION. The commands of the HGS: one constructor per row of spec/opcode_table.json, in its order.
Queue commands (R199, R281, R328, R348) take the queue only: the packet that executes is the head of the
queue's prefetch window (R209). Where the spec leaves a choice to the HGS, the choice is an operand. -/
namespace Sys2Proof

/-- mt_src_i: who makes an access at the mesh target. -/
inductive Source where
  | host | core | engine | test
  deriving DecidableEq, Repr

/-- The requester of an access at the mesh target: mt_fn_i, mt_sec_i, mt_src_i, and the physical engine ID
that mt_id_i carries when the source is an engine (R44). -/
structure Req where
  fn  : Fin 256
  sec : Bool
  src : Source
  eng : Fin 512
  deriving DecidableEq, Repr

/-- What an access takes in: one 64-bit word, one 32-bit word, whole beats of 64 bytes, `n` + 1 of them, or anything else
(R14, R42). -/
inductive Width where
  | word64 | word32
  | beats (n : Fin 4)
  | other
  deriving DecidableEq, Repr

/-- One access at the mesh target (R42): the offset in the 64 MiB window, the direction, the enabled width, and
whether this beat commits its burst (R46). With `mapped`, an access of the firmware to a mailbox's firmware side, and the
offset an address of the control-core map below 64 MiB (R376, R388). -/
structure Access where
  mapped : Bool
  req    : Req
  offset : Fin 67108864
  write  : Bool
  width  : Width
  value  : W64
  commit : Bool
  deriving DecidableEq, Repr

/-- Response code of a mesh transfer (mm_rresp_i, mm_bresp_i). -/
inductive Resp where
  | ok | tgtErr | tgtReset | decode
  deriving DecidableEq, Repr

/-- Engine kinds that reach an engine (R77). -/
inductive Kind where
  | compute | copy | collective
  deriving DecidableEq, Repr

/-- A row that start-up BIST found failing (R445, step 3): the memory ID of R411, the word, and whether a
redundant row replaces it. -/
structure BistRow where
  mem         : BitVec 8
  word        : BitVec 32
  replaceable : Bool
  deriving DecidableEq, Repr

/-- The fields of a HELLO frame (R53). -/
structure HelloFrame where
  chip  : BitVec 8
  field : BitVec 16
  role  : BitVec 2
  deriving DecidableEq, Repr

/-- A cross-chip message as the MSG frames carry it (R252, R247). -/
structure MsgFrame where
  fn      : Fin 256
  schip   : BitVec 8
  seng    : BitVec 9
  deng    : BitVec 9
  tag     : BitVec 12
  len     : BitVec 9
  landing : W64
  payload : Words
  deriving DecidableEq, Repr

/-- A credit return or a delivery confirmation as the CRED frame carries it (R252): the function, the engine
pair, the credits returned, and the end status (R253) of the pair's oldest unconfirmed message when it confirms one. -/
structure CredFrame where
  fn      : Fin 256
  chip    : BitVec 8
  src     : BitVec 9
  dst     : BitVec 9
  credits : BitVec 6
  confirm : Option (BitVec 8)
  deriving DecidableEq, Repr

/-- The JOIN frame's configuration (R322). -/
structure JoinFrame where
  chip       : BitVec 8
  field      : BitVec 16
  role       : BitVec 2
  chips      : Nat
  tickPeriod : Nat
  headland   : Nat
  cycleTicks : Nat
  hops       : Nat
  deriving DecidableEq, Repr

/-- A timestamp of a YOKE frame: tick number and phase in sc (R322). -/
structure Stamp where
  tick  : BitVec 48
  phase : Nat
  deriving DecidableEq, Repr

/-- The storage an uncorrectable error struck, with what it holds there (R411). -/
inductive EccSite where
  | gsBank (bank : Fin 66) (handle : Option (BitVec 16)) (sowing : Option (Fin 256 × BitVec 32))
  | shadow (fn : Fin 256) (id : BitVec 32)
  | listEntry (fn : Fin 256) (id : BitVec 32)
  | listLinks
  | semaphore (sem : Fin 262144)
  | sheaf (entry : Fin 4096)
  | seqEntry (seq : Fin 65536)
  | model (m : Fin 1024)
  | segment (fn : Fin 256) (seg : Fin 16)
  | windowPacket (q : Fin 16384)
  | queueRegs (q : Fin 16384)
  | core0
  | core (c : Fin 3) (sandbox : Bool)
  | faultRecord (fn : Option (Fin 256))
  | traceBuffer
  | harvestShadow (i : Fin 10240)
  | harvestCounter (i : Fin 10240)
  | fieldMap
  | drillTables
  | ccBuffer (eng : Fin 512)
  | fnState (fn : Fin 256)
  | controlParity
  | mailbox (ch : Fin 258)
  deriving DecidableEq, Repr

/-- What the test access port is asked to do (R60, R61). -/
inductive JtagOp where
  | bypass | idcode
  | status
  | startBist
  | writeRepair
  deriving DecidableEq, Repr

/-- What the loopback responder answers (R456). -/
inductive LoopEvent where
  | descriptorAck | token | completion | preempt | segInval
  deriving DecidableEq, Repr

/-- The commands: one constructor per row of the table. -/
inductive Instr where
  -- start-up, clock and reset
  | blockReset
  | alignmentPulse (markersPass : Bool)
  | alignTimeout (crossing : BitVec 32)
  | startupFuseRead (failed : Option (BitVec 15))
  | startupBist (badBanks : List (Fin 66)) (rows : List BistRow)
  | suFwsrcWrite (req : Req) (value : W64)
  | suFmsrcWrite (req : Req) (value : W64)
  | firmwareBoot (code : Bool)
  | firmwareReply (len : Fin 16) (word : W64)
  | startupFieldMap (load : Bool)
  | startupStepTimeout
  | startupRelease (numvf : BitVec 8) (bme : BitVec 256)
  -- mesh target and host bridge
  | registerWrite (acc : Access)
  | writeBurstAbort (req : Req)
  | flrRequest (fn : Fin 256)
  | vfDisable (numvf : BitVec 8)
  | busMasterEnableChange (fn : Fin 256) (enable : Bool)
  | fttFnrstGo (req : Req) (value : W64)
  | fnResetEngineTimeout (fn : Fin 256) (eng : Fin 512)
  | fnResetComplete (fn : Fin 256)
  -- link sideband
  | linkUp (port : Fin 96)
  | partnerDepart (port : Fin 96)
  | helloSend
  | hello (port : Fin 96) (frame : HelloFrame)
  | helloSilenceTimeout (port : Fin 96)
  | reservedFrame (port : Fin 96) (type : BitVec 8) (subtype : BitVec 8)
  -- power manager and ramp governor
  | wakeAck (cluster : Fin 32)
  | wakeTimeout (cluster : Fin 32)
  | sleepAck (cluster : Fin 32)
  | sleepTimeout (cluster : Fin 32)
  | thermalChange (stack : Fin 8) (level : BitVec 2)
  | rampWindowEnd (pmBudget : BitVec 8)
  | startQueueAdmit
  | domainWakeRequest (plot : Fin 64) (kind : Kind)
  | domainSleepRequest (cluster : Fin 32)
  -- test access, persistent store, mesh master
  | jtagInstruction (op : JtagOp)
  | nvOpDone (err : Bool)
  | nvOpTimeout
  | meshResponse (id : Fin 512) (resp : Resp) (data : Words)
  | meshRetry (id : Fin 512)
  | meshTimeout (id : Fin 512)
  -- engine slot interface
  | descriptorWrite (cluster : Fin 32)
  | descriptorAccepted (eng : Fin 512)
  | descriptorAckTimeout (eng : Fin 512)
  | tokenStarted (eng : Fin 512)
  | tokenWithdrawn (eng : Fin 512)
  | tokenEmpty (eng : Fin 512)
  | tokenFlushed (eng : Fin 512)
  | preemptIdle (eng : Fin 512)
  | preemptAtBoundary (eng : Fin 512)
  | preemptSaved (eng : Fin 512)
  | preemptSaveFailed (eng : Fin 512)
  | preemptNoresp (eng : Fin 512)
  | engineReset (eng : Fin 512)
  | engineDown (eng : Fin 512)
  | engineReturn (eng : Fin 512)
  | completionRecord (cluster : Fin 32) (record : BitVec 256)
  -- dependency engine, drill, arbiter
  | edgeLineRead
  | decrement (bank : Fin 16)
  | fallowDecrement
  | oneLeftNotice
  | producerLookahead
  | heldRelease (eng : Fin 512)
  | mispredictWithdraw (eng : Fin 512)
  | decision (plot : Fin 64) (kind : Kind)
  | savedTaskRestore (eng : Fin 512)
  | pendingMove
  | deadEntrySweep
  | delayExpiry
  | layerDigestEvict (fn : Fin 256) (id : BitVec 32) (layer : Fin 4096)
  -- regulation
  | bucketRefill
  | pruEgrant (req : Req) (page : Fin 256)
  -- queues
  | commandFetch (q : Fin 16384)
  | hcfQdb (req : Req) (q : Fin 16384) (value : BitVec 32)
  | hcfQptrWrite (req : Req) (q : Fin 16384) (value : BitVec 32)
  | queueEnable (req : Req) (q : Fin 16384) (value : W64)
  | queueDisable (req : Req) (q : Fin 16384) (value : W64)
  | halt (req : Req) (q : Fin 16384) (value : W64)
  | resume (req : Req) (q : Fin 16384)
  | skip (req : Req) (q : Fin 16384)
  | queueTimeout (q : Fin 16384)
  | nop (q : Fin 16384)
  | buffer (q : Fin 16384)
  | streamSync (q : Fin 16384)
  | fence (q : Fin 16384)
  -- graph store
  | graphAlloc (q : Fin 16384) (handle : BitVec 16) (nodeBase edgeBase pageBase : Nat)
  | graphLoad (q : Fin 16384)
  | graphSeal (q : Fin 16384)
  | furrowCheckStart (fallow : Bool)
  | furrowCheckEnd (fallow : Bool) (graph : BitVec 16)
  | graphUnseal (q : Fin 16384)
  | graphFree (q : Fin 16384)
  | zeroingEnd
  -- sowings
  | launchGraph (q : Fin 16384)
  | launchProceed (q : Fin 16384)
  | rootInsertion
  | fallowFaninCopy (fn : Fin 256) (id : BitVec 32)
  | fallowPageFetch (handle : BitVec 16) (page : Nat)
  | fallowPageFetchDone (handle : BitVec 16) (page : Nat)
  | fallowPageSpillDone (handle : BitVec 16) (page : Nat)
  | shadowRefillDone (handle : BitVec 16)
  | patchParamInline (q : Fin 16384)
  | patchParamPointer (q : Fin 16384)
  | patchResume (q : Fin 16384)
  | patchComplete (q : Fin 16384)
  | swapBank (q : Fin 16384)
  | swapBankEffect (q : Fin 16384)
  | sowingEnding (fn : Fin 256) (id : BitVec 32)
  | sowingRetire (fn : Fin 256) (id : BitVec 32)
  | endAction (fn : Fin 256) (id : BitVec 32)
  | signalWrite (q : Fin 16384)
  -- semaphores
  | semRead (q : Fin 16384)
  | semSet (q : Fin 16384)
  | semAdd (q : Fin 16384)
  | semMax (q : Fin 16384)
  | semCas (q : Fin 16384)
  | semTryAcquire (q : Fin 16384)
  | semWaitGe (q : Fin 16384)
  | semWaitEq (q : Fin 16384)
  | semAcquire (q : Fin 16384)
  | headlandStart
  | waitCycleBreak
  -- messages
  | mrsEsend (req : Req) (page : Fin 256) (value : W64)
  | msgSend (eng : Fin 512)
  | msgDelivered (eng : Fin 512)
  | msgFrame (port : Fin 96) (frame : MsgFrame)
  | credFrame (port : Fin 96) (frame : CredFrame)
  | mrsEcredit (req : Req) (page : Fin 256) (value : W64)
  | mrsRxWrite (req : Req) (page : Fin 256) (value : W64)
  -- sheaf
  | sheafClear (req : Req) (page : Fin 256) (value : W64)
  | sheafAdd (req : Req) (page : Fin 256) (value : W64)
  | sheafAddRaw (req : Req) (page : Fin 256) (value : W64)
  | sheafDrain (req : Req) (page : Fin 256) (value : W64)
  | sheafDrainRaw (req : Req) (page : Fin 256) (value : W64)
  | sheafApply (entry : Fin 4096)
  | sheafOpComplete (entry : Fin 4096)
  | shfEntcfgWrite (req : Req) (entry : Fin 4096) (value : W64)
  | shfEres (req : Req) (page : Fin 256)
  -- sequence table
  | stuModel (q : Fin 16384) (model : Fin 1024)
  | stuModelFree (q : Fin 16384)
  | stuAdmit (q : Fin 16384) (seq : Fin 65536)
  | stuStep (q : Fin 16384)
  | stuCompose
  | stepDetRoots (fn : Fin 256) (id : BitVec 32)
  | stepCommit (fn : Fin 256) (id : BitVec 32)
  | stuEvict (q : Fin 16384)
  | stuParkSuspend (q : Fin 16384)
  | stuParkResume (q : Fin 16384)
  | stuMove (q : Fin 16384)
  -- tick, cyclic table, yoke
  | tickEdge
  | cyclicLaunch (entry : Fin 4096)
  | cyclicStep (entry : Fin 4096)
  | cyclicSem (entry : Fin 4096)
  | tickOverrun (fn : Fin 256) (id : BitVec 32)
  | yokeJoinStart
  | join (port : Fin 96) (frame : JoinFrame)
  | calReqSend
  | calReq (port : Fin 96) (t0 : Stamp)
  | calRsp (port : Fin 96) (t0 t1 t2 : Stamp)
  | tick (port : Fin 96) (number : BitVec 48) (sendPhase : Nat)
  | status (port : Fin 96) (joined : Nat) (masterSeen : Bool) (hops : Nat)
  | yokePromote
  | yokeBarrier (q : Fin 16384)
  | arrive (port : Fin 96) (fn : Fin 256) (barrier : BitVec 4) (chips arrivals : Nat)
  | release (port : Fin 96) (fn : Fin 256) (barrier : BitVec 4) (relTick : BitVec 48) (reloff : Nat)
      (abort : BitVec 8)
  | barrierRetire (q : Fin 16384)
  | tickWait (q : Fin 16384)
  | tickWaitRetire (q : Fin 16384)
  | digest (entry : Fin 4096) (firing : BitVec 48) (endStatus : BitVec 16) (value : W64)
  | mirrorMissing
  -- plots and segments
  | plotPreempt (q : Fin 16384)
  | escalateDeadline (plot : Fin 64)
  | plotResume (q : Fin 16384)
  | plotLend (q : Fin 16384)
  | plotReclaim (q : Fin 16384)
  | noticeAck (eng : Fin 512)
  | segWithdraw (q : Fin 16384)
  | pruSegctlWithdraw (req : Req) (fn : Fin 256) (seg : Fin 16)
  | pruSegctlInstall (req : Req) (fn : Fin 256) (seg : Fin 16)
  | pruEsegFill (req : Req) (page : Fin 256) (seg : Fin 16) (limit : Bool)
  | pruEwack (req : Req) (page : Fin 256) (value : W64)
  | segWithdrawSignal (fn : Fin 256) (seg : Fin 16)
  | segInvalTimeout (eng : Fin 512)
  -- self-test, repair, storage errors, fault queues
  | engineSelfTest (eng : Fin 512)
  | selfTestTimeout (eng : Fin 512)
  | gsBankCopyDone (bank : Fin 66)
  | gsBankTestDone (bank : Fin 66) (pass : Bool)
  | patrolScrub (found : Option (EccSite × BitVec 32)) (corrected : Option (BitVec 8 × BitVec 32))
  | eccUncorrectable (site : EccSite) (word : BitVec 32)
  | ce (mem : BitVec 8) (word : BitVec 32)
  | repairCommitRetry
  | fttFqstatPop (req : Req) (page : Fin 256)
  | fttFqstatRead (req : Req) (page : Fin 256)
  | fttGltake (req : Req) (page : Fin 256) (slot : Fin 32)
  | fttElstatPop (req : Req)
  | fttElstatRead (req : Req)
  | fttElgltake (req : Req) (slot : Fin 64)
  -- mailboxes
  | mbxDbin (req : Req) (ch : Fin 258) (firmware : Bool) (bits : BitVec 32)
  | mbxDboutClear (req : Req) (ch : Fin 258) (firmware : Bool) (bits : BitVec 32)
  | mbxDbmaskWrite (req : Req) (ch : Fin 258) (firmware : Bool) (mask : BitVec 32)
  | mbxTx (req : Req) (ch : Fin 258) (firmware : Bool) (word : W64)
  | mbxRx (req : Req) (ch : Fin 258) (firmware : Bool)
  | txflush (req : Req) (ch : Fin 258) (firmware : Bool)
  | rxflush (req : Req) (ch : Fin 258) (firmware : Bool)
  | mbxLockClaim (req : Req) (ch : Fin 2) (firmware : Bool) (tag : BitVec 16)
  | mbxLockRelease (req : Req) (ch : Fin 2) (firmware : Bool) (tag : BitVec 16)
  | mbxLockBroken (ch : Fin 2)
  -- field map
  | fmLoad (req : Req)
  | fmLoadDone
  | fmSwap (req : Req) (atv : Bool) (tick : BitVec 48)
  | fmSave (req : Req)
  | fmRecall (req : Req)
  -- control cores
  | coreCall (q : Fin 16384)
  | coreCallStart (q : Fin 16384)
  | ecallExit (core : Fin 3) (a0 : W64)
  | ecallLoad (core : Fin 3) (address : W64)
  | ecallStore (core : Fin 3) (address data : W64)
  | ecallSem (core : Fin 3) (index op operand : W64)
  | ecallNow (core : Fin 3)
  | coreTrap (core : Fin 3)
  | coreBudget (core : Fin 3)
  -- harvest and trace
  | harvest (q : Fin 16384)
  | hvDone (req : Req)
  | hvStatRead (req : Req)
  | trCtrlWrite (req : Req) (value : W64)
  | traceStreamBurst
  | trStatRead (req : Req)
  -- bring-up aids, late rows
  | suLoopWrite (req : Req) (value : W64)
  | loopbackResponse (eng : Fin 512) (event : LoopEvent)
  | suGenctlGo (req : Req)
  | generationDone
  | vfEnable (numvf : BitVec 8)
  | clkRatio (counted : Nat)
  deriving DecidableEq, Repr

end Sys2Proof
end

