-- ==== Sys2Proof/Decode.lean ====
section
/-! DEFINITION. The commands a word spells by the bits of spec/opcode_table.json. The table gives no row of this block
any bits (every row's list of fields is empty), so no word spells a command: packets of the command queues are data
of the state (R198), read by the queue commands themselves. -/
namespace Sys2Proof

/-- The command that a word spells by the table's bits: none, as no row gives bits. -/
def decodeTableWord (_nbits _w : Nat) : Option Instr := none

end Sys2Proof
end

