-- ==== Sys2Proof/Machine/Bits.lean ====
section
/-! DEFINITION. Bit fields, packing, and the checks the spec computes over words: CRC-32 (R390, R394, R425), the
digest mix (R187), SHA-384 (R453), xorshift (R458). -/
namespace Sys2Proof.Machine

/-- Bits [lo+len-1:lo] of a number. -/
def bits (x lo len : Nat) : Nat := (x >>> lo) % 2 ^ len

/-- Field [lo+len-1:lo] of a word. -/
def fld {n : Nat} (x : BitVec n) (lo len : Nat) : Nat := bits x.toNat lo len

/-- Bit `i` of a word. -/
def bit {n : Nat} (x : BitVec n) (i : Nat) : Bool := x.getLsbD i

/-- A Bool as a bit. -/
def b2n (b : Bool) : Nat := if b then 1 else 0

/-- A word packed from fields (lo, len, value), each cut to its width. -/
def pack : List (Nat × Nat × Nat) → W64
  | [] => 0
  | (lo, len, v) :: r => BitVec.ofNat 64 ((v % 2 ^ len) <<< lo) ||| pack r

/-- Two's-complement value of the low `w` bits of `x`. -/
def sgn (w x : Nat) : Int := if x % 2 ^ w < 2 ^ (w - 1) then (x % 2 ^ w : Nat) else (x % 2 ^ w : Nat) - (2 ^ w : Nat)

/-- Words of little-endian data joined into one number (R13). -/
def wordsNat : Words → Nat
  | [] => 0
  | w :: r => w.toNat + 2 ^ 64 * wordsNat r

/-- The `k`-th record of `8 * n` bytes in some data. -/
def record (n : Nat) (ws : Words) (k : Nat) : Nat := wordsNat ((ws.drop (n * k)).take n)

/-- A number cut into `n` words. -/
def toWords : Nat → Nat → Words
  | 0, _ => []
  | n + 1, x => BitVec.ofNat 64 x :: toWords n (x >>> 64)

/-- Byte `i` of some data. -/
def byteAt (ws : Words) (i : Nat) : Nat := fld (ws.at (i / 8)) (8 * (i % 8)) 8

/-- The number `b` bits wide that ends the range of a counter: addition that saturates (R404, R442). -/
def satAdd (w x k : Nat) : Nat := min (x + k) (2 ^ w - 1)

/-- Ceiling division. -/
def cdiv (a b : Nat) : Nat := (a + b - 1) / b

/-- One bit of CRC-32 (IEEE 802.3), reflected form. PRESUMED: the standard's polynomial. -/
def crcBit (c : Nat) : Nat := if c % 2 = 1 then (c >>> 1) ^^^ 0xEDB88320 else c >>> 1

/-- One byte of CRC-32. -/
def crcByte (c b : Nat) : Nat :=
  crcBit (crcBit (crcBit (crcBit (crcBit (crcBit (crcBit (crcBit (c ^^^ b))))))))

/-- One 64-bit word of CRC-32, low byte first. -/
def crcWord (c x : Nat) : Nat :=
  crcByte (crcByte (crcByte (crcByte (crcByte (crcByte (crcByte (crcByte c (bits x 0 8)) (bits x 8 8))
    (bits x 16 8)) (bits x 24 8)) (bits x 32 8)) (bits x 40 8)) (bits x 48 8)) (bits x 56 8)

/-- CRC-32 (IEEE 802.3) of some words, bytes in address order. -/
def crc32 (ws : Words) : Nat := (ws.foldl (fun c w => crcWord c w.toNat) 0xFFFFFFFF) ^^^ 0xFFFFFFFF

/-- mix of R187, modulo 2^64. -/
def mix (x0 : W64) : W64 :=
  let x1 := x0 ^^^ (x0 >>> 31)
  let x2 := x1 * 0xB5E263A91D47C0F3
  let x3 := x2 ^^^ (x2 >>> 29)
  let x4 := x3 * 0x8E3D5A71C96B24E9
  x4 ^^^ (x4 >>> 32)

/-- Contribution of node `i` with output digest `d` to a sowing digest (R187). -/
def contribution (i : Nat) (d : W64) : W64 := mix (d ^^^ (BitVec.ofNat 64 i * 0x7C159E3AD2B84F61))

/-- The xorshift step of R458, modulo 2^64. -/
def xorshift (x0 : W64) : W64 :=
  let x1 := x0 ^^^ (x0 <<< 13)
  let x2 := x1 ^^^ (x1 >>> 7)
  x2 ^^^ (x2 <<< 17)

/-! ### SHA-384 (R453). PRESUMED: FIPS 180-4, which R453 names (log 28) -/

/-- Fixes the low `k` bits of the largest `r` with `r ^ e ≤ n`, from the highest down. -/
def rootFrom (e n : Nat) : Nat → Nat → Nat
  | 0, r => r
  | k + 1, r => rootFrom e n k (if (r + 2 ^ k) ^ e ≤ n then r + 2 ^ k else r)

/-- The first 64 bits of the fraction of the `e`-th root of a number below 2^9: where the standard takes its constants
from. -/
def rootFraction (e p : Nat) : W64 := BitVec.ofNat 64 (rootFrom e (p * 2 ^ (64 * e)) 70 0)

/-- The primes below 410, of which there are 80. -/
def smallPrimes : List Nat := (List.range 410).filter fun p => 2 ≤ p && (List.range p).all fun d => d < 2 || p % d != 0

/-- Two rotations and a third word, added bit by bit: the shape of the standard's four sigma functions. -/
def spin (x : W64) (i j : Nat) (last : W64) : W64 := x.rotateRight i ^^^ x.rotateRight j ^^^ last

/-- SHA-384 within a block: the eight working words, first to last, and the sixteen schedule words that come next. -/
structure ShaRun where
  work : List W64
  next : List W64

/-- One round: the constant `k` and the front of the schedule enter, and the schedule moves on by one word. -/
def ShaRun.turn (r : ShaRun) (k : W64) : ShaRun :=
  let v (i : Nat) : W64 := Words.at r.work i
  let w (i : Nat) : W64 := Words.at r.next i
  let choice := v 6 ^^^ (v 4 &&& (v 5 ^^^ v 6))
  let majority := (v 0 &&& v 1) ||| (v 2 &&& (v 0 ||| v 1))
  let fresh := w 0 + k + choice + spin (v 4) 14 18 ((v 4).rotateRight 41) + v 7
  let tail := spin (w 14) 19 61 (w 14 >>> 6) + spin (w 1) 1 8 (w 1 >>> 7) + w 9 + w 0
  ⟨(fresh + majority + spin (v 0) 28 34 ((v 0).rotateRight 39)) :: r.work.take 3 ++ (v 3 + fresh) :: (r.work.drop 4).take 3,
    r.next.tail ++ [tail]⟩

/-- One block of 16 words added to the hash value: 80 rounds, whose constants are the cube roots of the first 80
primes. -/
def shaBlock (h m : List W64) : List W64 :=
  let last := (smallPrimes.map (rootFraction 3)).foldl ShaRun.turn ⟨h, m⟩
  (List.zip h last.work).map fun x => x.1 + x.2

/-- The hash value of SHA-384 before its first block: the square roots of the ninth to the sixteenth prime. -/
def shaStart : List W64 := ((smallPrimes.drop 8).take 8).map (rootFraction 2)

/-- The hash value after `n` more blocks of `m`. -/
def shaOver : Nat → List W64 → List W64 → List W64
  | 0, _, h => h
  | n + 1, m, h => shaOver n (m.drop 16) (shaBlock h (m.take 16))

/-- The bytes of a word in the other order: memory is little-endian (R13), SHA-384 reads big-endian words. -/
def byteSwap (x : W64) : W64 :=
  pack [(56, 8, fld x 0 8), (48, 8, fld x 8 8), (40, 8, fld x 16 8), (32, 8, fld x 24 8),
    (24, 8, fld x 32 8), (16, 8, fld x 40 8), (8, 8, fld x 48 8), (0, 8, fld x 56 8)]

/-- SHA-384 of some words of memory, as six words of memory (R453): big-endian words, a one bit after them, zeros, and the
length in bits as the last two words of the last block. -/
def sha384 (ws : Words) : Words :=
  let blocks := (ws.length + 3 + 15) / 16
  let zeros := 16 * blocks - (ws.length + 2)
  let m := ws.map byteSwap ++ (1 <<< 63 : W64) :: List.replicate zeros 0 ++ [BitVec.ofNat 64 (64 * ws.length)]
  ((shaOver blocks m shaStart).map byteSwap).take 6

end Sys2Proof.Machine
end

