-- ==== Sys2Proof/Machine/Tab.lean ====
section
/-! DEFINITION. Sparse tables: the block's arrays (registers, counters, store words) as lists of (index, value)
in ONE canonical form: indices strictly rising, no entry equal to what an unlisted index reads as. -/
namespace Sys2Proof.Machine

/-- A sparse array: (index, value) pairs, index strictly rising. -/
abbrev Tab (β : Type) := List (Nat × β)

/-- The entry of index `k`, if listed. -/
def Tab.look? {β : Type} : Tab β → Nat → Option β
  | [], _ => none
  | (k', v) :: r, k => if k' = k then some v else Tab.look? r k

/-- What index `k` reads as; an unlisted index reads as `d`. -/
def Tab.look {β : Type} (d : β) (t : Tab β) (k : Nat) : β := (Tab.look? t k).getD d

/-- Lists index `k` with value `v`, in its place in the order. -/
def Tab.ins {β : Type} : Tab β → Nat → β → Tab β
  | [], k, v => [(k, v)]
  | (k', v') :: r, k, v =>
    if k < k' then (k, v) :: (k', v') :: r
    else if k = k' then (k, v) :: r
    else (k', v') :: Tab.ins r k v

/-- Unlists index `k`. -/
def Tab.del {β : Type} : Tab β → Nat → Tab β
  | [], _ => []
  | (k', v') :: r, k => if k' = k then Tab.del r k else (k', v') :: Tab.del r k

/-- Writes index `k`, keeping the canonical form: writing what an unlisted index reads as unlists it. -/
def Tab.put {β : Type} [DecidableEq β] (d : β) (t : Tab β) (k : Nat) (v : β) : Tab β :=
  if v = d then Tab.del t k else Tab.ins t k v

/-- Reads, changes and writes index `k`. -/
def Tab.adj {β : Type} [DecidableEq β] (d : β) (t : Tab β) (k : Nat) (f : β → β) : Tab β :=
  Tab.put d t k (f (Tab.look d t k))

/-- Writes the values of `vs` from index `k` on. -/
def Tab.putAll {β : Type} [DecidableEq β] (d : β) (t : Tab β) (k : Nat) : List β → Tab β
  | [] => t
  | v :: vs => Tab.putAll d (Tab.put d t k v) (k + 1) vs

/-- Every listed index is above `k`. -/
def Tab.above {β : Type} (k : Nat) (t : Tab β) : Bool := t.all fun e => k < e.1

/-- The canonical form of a table whose unlisted indices read as `d`. -/
def Tab.wf {β : Type} [DecidableEq β] (d : β) : Tab β → Bool
  | [] => true
  | (k, v) :: r => (!decide (v = d)) && Tab.above k r && Tab.wf d r

/-- Strictly rising indices alone (tables whose unlisted value is not a fixed one). -/
def Tab.rising {β : Type} : Tab β → Bool
  | [] => true
  | (k, _) :: r => Tab.above k r && Tab.rising r

end Sys2Proof.Machine
end

