-- ==== Sys2Proof/Machine/State.lean ====
section
/-! DEFINITION. The state of the HGS as plain data, and its value after reset. Field names follow the registers of
the spec. Sowings are keyed by `fn * 2 ^ 32 + id`; tables are canonical (`Tab.wf`). -/
namespace Sys2Proof.Machine

/-- Why the block itself would stop the model. No command with an effect ends in one (NOTES.md, '## Stops'). -/
inductive Fault where
  /-- An access to an offset outside the 64 MiB window, which the spec says does not exist (R19). No command raises
  it, as the operand's type ends at the window; kept so that the type is not empty. Safe. -/
  | outsideWindow
  deriving DecidableEq, Repr

/-- Why a command has no meaning in the model. -/
inductive Refusal where
  /-- The command's row of the table is not modelled yet. Raised by Dispatch alone. Safe. -/
  | notModelled (mnemonic : String)
  deriving DecidableEq, Repr

/-! ### Register fields that a read or a write of 1 clears (R16 to R18) -/

/-- An RC field (R18): its value before the events of the sc `at'`, and what those contributed. -/
structure Rc where
  old : Nat
  new : Nat
  at' : Nat
  deriving DecidableEq, Repr

/-- 0. -/
def Rc.zero : Rc := ⟨0, 0, 0⟩

/-- A group of W1C bits (R17): the bits, and those of them that an event set in the sc `at'`. A single W1C bit is an
`Option Nat`: the sc of the event that last set it, where it is set. -/
structure Bell where
  bits : BitVec 32
  rung : BitVec 32
  at'  : Nat
  deriving DecidableEq, Repr

/-- No bit set. -/
def Bell.clear : Bell := ⟨0, 0, 0⟩

/-! ### Start-up, pins, target, mesh -/

/-- Start-up registers and progress (R445 to R458). `stepAt` is when the bound of the step in progress began to count;
`loopStarts` is the responder's count of starts (Drill.countLoop). -/
structure StartUp where
  step       : Nat
  passed     : BitVec 8
  failed     : Bool
  released   : Bool
  yokedeg    : Bool
  testlate   : Bool
  code       : BitVec 8
  detail     : W64
  riseAt     : Nat
  releasedAt : Nat
  stepAt     : Nat
  pulseAt    : Option Nat
  alignDone  : Bool
  fwsrc      : W64
  fmsrc      : W64
  fwHeader   : Words
  fwDigest   : Words
  fwCode     : Words
  fwBegun    : Bool
  fwCopying  : Bool
  fwSent     : Bool
  loop       : W64
  loopStarts : Tab Nat
  gencfg     : W64
  genseed    : W64
  genentry   : W64
  genbusy    : Bool
  genAt      : Nat
  genres     : BitVec 3
  deriving DecidableEq, Repr

/-- R450, R451, R455, R457: reset values; start-up begins at step 1. -/
def StartUp.reset : StartUp where
  step := 1
  passed := 0
  failed := false
  released := false
  yokedeg := false
  testlate := false
  code := 0
  detail := 0
  riseAt := 0
  releasedAt := 0
  stepAt := 0
  pulseAt := none
  alignDone := false
  fwsrc := 0
  fmsrc := 0
  fwHeader := []
  fwDigest := []
  fwCode := []
  fwBegun := false
  fwCopying := false
  fwSent := false
  loop := 0x000000C800000000
  loopStarts := []
  gencfg := 0x0000040040040000
  genseed := 0
  genentry := 0
  genbusy := false
  genAt := 0
  genres := 0

/-- Levels of input pins, and what the block last drove on its outputs (01_boundary.md). `flrDone` lists the pulses of
hb_flr_done_o that are not past, each with its sc and its function, one to an sc; `flrHeld` functions answered before the
alignment, whose pulse waits for it (R23). -/
structure Pins where
  up      : BitVec 512
  rst     : BitVec 512
  bme     : BitVec 256
  numvf   : BitVec 8
  therm   : BitVec 16
  lsUp    : BitVec 96
  tstMode : Bool
  tstLock : Bool
  jtag    : JtagOp
  nvBusy  : Bool
  flrDone : List (Nat × Nat)
  flrHeld : List Nat
  descOut : Tab W64
  tokOut  : Tab W64
  preOut  : Tab W64
  linkOut : Tab Words
  deriving DecidableEq, Repr

/-- Every input low, nothing driven (R23; log 2 for the inputs). -/
def Pins.reset : Pins where
  up := 0
  rst := 0
  bme := 0
  numvf := 0
  therm := 0
  lsUp := 0
  tstMode := false
  tstLock := false
  jtag := .bypass
  nvBusy := false
  flrDone := []
  flrHeld := []
  descOut := []
  tokOut := []
  preOut := []
  linkOut := []

/-- The mesh target: the last response driven, the words of the read burst it answered, and write bursts without their
commit word (R21, R42, R46). -/
structure Target where
  resp   : BitVec 2
  rdata  : W64
  rbeats : Words
  bursts : List Access
  deriving DecidableEq, Repr

/-- What a master transfer is for (R40's table and the transfers with a paragraph of their own). `sow` is a
sowing's key; an abandoned transfer's requester is gone. -/
inductive Purpose where
  | fetch (q : Nat) (ring : BitVec 32) (bpos : Nat) (inbuf : Bool)
  | loadSrc (q : Nat)
  | patchSrc (q : Nat)
  | coreImage (q : Nat) (core : Nat)
  | coreLoad (core : Nat)
  | coreStore (core : Nat)
  | result (q : Nat)
  | endWrite (sow : Nat)
  | endSignal (sow : Nat)
  | signal (q : Nat)
  | layerRead (sow : Nat) (layer : Nat) (sum : W64)
  | layerWrite (sow : Nat) (layer : Nat)
  | wake (e : Nat)
  | fanin (sow : Nat)
  | page (h : Nat) (page : Nat)
  | spill (h : Nat) (page : Nat)
  | counter (sow : Nat) (node : Nat)
  | check (h : Nat)
  | saveDir (p : Nat) (slice : Nat)
  | saveFree (p : Nat) (slice : Nat)
  | saveRead (p : Nat) (slice : Nat) (e : Nat)
  | notice (e : Nat)
  | msgDesc (e : Nat)
  | msgPayload (e : Nat)
  | msgWrite (e : Nat)
  | msgRecord (e : Nat)
  | msgStatus (fn : Nat)
  | rxPayload (fn : Nat) (frame : MsgFrame) (port : Nat)
  | rxRecord (fn : Nat) (frame : MsgFrame) (port : Nat)
  | shfRead (op : Nat)
  | shfWrite (op : Nat)
  | workList (sow : Nat)
  | commitRead (sow : Nat)
  | commitWrite (sow : Nat)
  | mbxNotify (ch : Nat)
  | mapImage (head : Bool)
  | firmware (code : Bool)
  | trace (first : Nat) (events : Nat)
  | abandoned
  deriving DecidableEq, Repr

/-- What a transfer needs of its segment (R362). -/
inductive Need where
  | read | write | fetch
  deriving DecidableEq, Repr

/-- A segment address as a transfer uses it: what R362 tests when the transfer is issued. -/
structure SegUse where
  addr   : W64
  need   : Need
  plot   : Option Nat
  native : Bool
  deriving DecidableEq, Repr

/-- One master transfer (R38 to R41), a run of transactions of at most 4 beats each (log 25): `pos` bytes of its `bytes` are
done, `got` is what they read, and `id` is the transaction under way. `use` is the segment address it runs under, when it
runs under one; `plot` the plot whose task bucket it draws from (R343). -/
structure Xfer where
  id      : Nat
  purpose : Purpose
  fn      : Nat
  qos     : Nat
  write   : Bool
  addr    : Nat
  bytes   : Nat
  data    : Words
  use     : Option SegUse
  plot    : Option Nat
  at'     : Nat
  retryAt : Option Nat
  second  : Bool
  pos     : Nat
  got     : Words
  deriving DecidableEq, Repr

/-- Master transfers outstanding, and those that wait to be issued (R38, R51, R344). -/
structure Mesh where
  out     : List Xfer
  waiting : List Xfer
  deriving DecidableEq, Repr

/-! ### Field map -/

/-- The chip section of a field map (R390, R305, R173, R320). -/
structure ChipCfg where
  tickPeriod  : Nat
  headland    : Nat
  cycleTicks  : Nat
  chipStarts  : Nat
  wakeCost    : Nat
  idleStart   : Nat
  role        : Nat
  field       : Nat
  chip        : Nat
  chips       : Nat
  parent      : Nat
  sparent     : Nat
  mirrorField : Nat
  mirrorV     : Bool
  mirrorPort  : Nat
  deriving DecidableEq, Repr

/-- A cluster entry (R391). -/
structure ClusterCfg where
  starts    : Nat
  sleepIdle : Nat
  deriving DecidableEq, Repr

/-- A plot entry (R391); list floors and caps in entries (R140). -/
structure PlotCfg where
  det          : Bool
  overrunFail  : Bool
  presow       : Bool
  rampRsv      : Nat
  owner        : Nat
  rate         : Nat
  saveRate     : Nat
  burst        : Nat
  ageLc        : Nat
  ageBe        : Nat
  preemptLimit : Nat
  readyFloor   : Nat
  readyCap     : Nat
  delayFloor   : Nat
  delayCap     : Nat
  deriving DecidableEq, Repr

/-- An engine entry (R392). -/
structure EngCfg where
  active  : Bool
  logical : Nat
  home    : Nat
  lendv   : Bool
  lend    : Nat
  notice  : Nat
  wake    : Nat
  deriving DecidableEq, Repr

/-- A field map (R389). Weights are keyed `p * 32 + c * 16 + g`; cyclic entries are the image's 256-bit rows. -/
structure FieldMap where
  gen      : W64
  chip     : ChipCfg
  clusters : Tab ClusterCfg
  plots    : Tab PlotCfg
  weights  : Tab Nat
  engines  : Tab EngCfg
  cyc      : List (BitVec 256)
  deriving DecidableEq, Repr

/-- Reset map, chip section: R305, R173 and R393. -/
def ChipCfg.reset : ChipCfg where
  tickPeriod := 100000
  headland := 1000
  cycleTicks := 1
  chipStarts := 8
  wakeCost := 4
  idleStart := 256
  role := 0
  field := 0
  chip := 0
  chips := 1
  parent := 0
  sparent := 0
  mirrorField := 0
  mirrorV := false
  mirrorPort := 0

/-- Reset map, cluster entry: R173. -/
def ClusterCfg.reset : ClusterCfg := ⟨4, 0⟩

/-- Reset map, plot entry: R140, R173, R305, R338. -/
def PlotCfg.reset : PlotCfg where
  det := false
  overrunFail := false
  presow := true
  rampRsv := 0
  owner := 0
  rate := 4095
  saveRate := 128
  burst := 64
  ageLc := 1
  ageBe := 1
  preemptLimit := 45000
  readyFloor := 0
  readyCap := 262144
  delayFloor := 0
  delayCap := 65536

/-- Reset map, engine entry: no engine is active (R393). -/
def EngCfg.reset : EngCfg := ⟨false, 0, 0, false, 0, 0, 0⟩

/-- The reset map (R393). GEN 0: log 5. -/
def FieldMap.reset : FieldMap := ⟨0, ChipCfg.reset, [], [], [], [], []⟩

/-- FM_STAT.STATE (R393). -/
inductive FmState where
  | idle | loading | swapPending | saving | recalling
  deriving DecidableEq, Repr

/-- How far step 5 of start-up is with its map (R454): nothing tried, the saved map being recalled, that refused, or the image
at SU_FMSRC being loaded. -/
inductive MapTry where
  | none | recalling | refused | loading
  deriving DecidableEq, Repr

/-- Field map copies, registers and the pending SWAP: acceptance time, ATV and AT (R393 to R396); `busyAt` is when
the command in progress was accepted, `head` the header of the image being read, and `boot` what start-up tries. -/
structure FieldMaps where
  active  : FieldMap
  shadow  : FieldMap
  src     : W64
  state   : FmState
  shvalid : Bool
  err     : BitVec 5
  erridx  : BitVec 13
  edits   : BitVec 8
  swap    : Option (Nat × Option (BitVec 48))
  image   : Option Words
  failed  : Bool
  busyAt  : Nat
  head    : Words
  boot    : MapTry
  deriving DecidableEq, Repr

/-! ### Graph store -/

/-- State of an allocated handle (R72); a FREE handle is not listed. -/
inductive GraphState where
  | opened | sealing | sealed
  deriving DecidableEq, Repr

/-- A warm shadow: its pool blocks, whether it is still refilling, and since when it is warm (R111). -/
structure Warm where
  blocks    : Nat
  refilling : Bool
  since     : Nat
  deriving DecidableEq, Repr

/-- A resident frame of a fallow graph: its page, its number among the graph's frames and when its page was last used (R100,
R129). -/
structure Frame where
  page    : Nat
  slot    : Nat
  lastUse : Nat
  deriving DecidableEq, Repr

/-- A part of a page transfer: the page's nodes, its edge block, its CRC, its counters in a sowing's counter area (R99, R100). -/
inductive PagePart where
  | nodes | edges | crc | counters (sow : Nat)
  deriving DecidableEq, Repr

/-- A page transfer in progress (R99, R100): the frame it fills or frees, the parts still to come with the one on the mesh
first, and what a fetch has read: nodes and edge block, CRC, counters by sowing. -/
structure PageXfer where
  page  : Nat
  slot  : Nat
  spill : Bool
  todo  : List PagePart
  data  : Words
  crc   : Nat
  ctrs  : Tab Words
  deriving DecidableEq, Repr

/-- An allocated graph (R67, R72, R91, R93, R117, R121, R123). `turn` lists the queues whose patch, swap or capture
waits for the graph's order, each with the sc of its arrival; `writer` is the queue whose patch write runs; `swap` a SWAP_BANK
with its queue and time. `nodeOff` and `dir` (EBLK, ECNT per page) are a fallow image's layout and `nroots` the length of its
root list, as the furrow check found them (R94, R97). -/
structure Graph where
  owner    : Nat
  st       : GraphState
  fallow   : Bool
  n        : Nat
  e        : Nat
  p        : Nat
  l        : Nat
  f        : Nat
  image    : W64
  wksp     : W64
  nodeOff  : Nat
  dir      : Tab (Nat × Nat)
  nodeBase : Nat
  edgeBase : Nat
  pageBase : Nat
  nodes    : Tab (BitVec 512)
  edges    : Tab (BitVec 32)
  bankA    : Tab (BitVec 256)
  bankB    : Tab (BitVec 256)
  curB     : Bool
  torn     : Option (Nat × Nat)
  writer   : Option Nat
  swap     : Option (Nat × Nat)
  turn     : List (Nat × Nat)
  warm     : List Warm
  lastLaunch : Nat
  eccBlock : Bool
  frames   : List Frame
  pages    : List PageXfer
  nroots   : Nat
  deriving DecidableEq, Repr

/-- A freed graph whose storage is queued for zeroing, with the sc it was freed in (R68). -/
structure Zeroing where
  handle : Nat
  freed  : Nat
  owner  : Nat
  nodes  : Nat
  edges  : Nat
  pages  : Nat
  nodeBase : Nat
  edgeBase : Nat
  pageBase : Nat
  start  : Nat
  deriving DecidableEq, Repr

/-- A finding of the furrow check: node, status, edge where one is concerned (R86). -/
structure Flaw where
  node   : Nat
  status : Nat
  edge   : Option Nat
  deriving DecidableEq, Repr

/-- Progress of a fallow check (R97): the part of the image that is read (0 header, 1 page directory, then nodes and edge
block of each page), the part of the workspace that is written, or its outcome. -/
inductive CheckPhase where
  | reads (part : Nat) | writes (part : Nat) | over (x : Flaw)
  deriving DecidableEq, Repr

/-- A furrow check: its queue, handle and function, and when an engine took it up (R89); of a fallow image, its progress and
what it has read: NODE_OFF, directory, records and page CRCs (R97). -/
structure Check where
  q       : Nat
  handle  : Nat
  fn      : Nat
  start   : Nat
  ecc     : Bool
  phase   : CheckPhase
  nodeOff : Nat
  pdirOff : Nat
  dir     : Tab (Nat × Nat)
  nodes   : Tab (BitVec 512)
  edges   : Tab (BitVec 32)
  block   : Words
  crcs    : List Nat
  deriving DecidableEq, Repr

/-- The graph store: handles, quotas, zeroing, checks and report registers (R66 to R103, R128). -/
structure GraphStore where
  graphs   : Tab Graph
  zeroing  : List Zeroing
  quota    : Tab W64
  waitRes  : List Check
  waitFal  : List Check
  runRes   : Option Check
  runFal   : Option Check
  lastRes  : Nat
  lastFal  : Nat
  sealres  : Tab W64
  sealloc  : Tab W64
  gqsel    : Tab W64
  deriving DecidableEq, Repr

/-! ### Sowings -/

/-- State of a dependency counter (R130). -/
inductive CtrState where
  | counting | pendDelay | pendReady | passed
  deriving DecidableEq, Repr

/-- A dependency counter (R130). -/
structure Counter where
  cnt : Nat
  st  : CtrState
  deriving DecidableEq, Repr

/-- State of a sowing (R104). -/
inductive SowState where
  | active | failing | ending | retired
  deriving DecidableEq, Repr

/-- End action of a sowing, from LAUNCH_GRAPH or the model record (R200, R290). -/
structure EndAct where
  erv     : Bool
  eraddr  : W64
  ldv     : Bool
  ldaddr  : W64
  sigv    : Bool
  sig4    : Bool
  sigaddr : W64
  sigval  : W64
  semv    : Bool
  sem     : Nat
  semop   : Nat
  semval  : BitVec 32
  deriving DecidableEq, Repr

/-- Progress of an end action (R214): not begun, step 1, signal write issued. -/
inductive EndPhase where
  | waiting | writes | signalling
  deriving DecidableEq, Repr

/-- A cyclic sowing's entry (R314): index, deadline (none: the next headland), firing tick, CMP, whether the
overrun is reported. -/
structure CycInfo where
  entry    : Nat
  deadline : Option Nat
  tick     : BitVec 48
  cmp      : Bool
  reported : Bool
  deriving DecidableEq, Repr

/-- A composed work-list record: entry, tokens, PREFILL (R291). -/
structure StepRec where
  seq     : Nat
  ntok    : Nat
  prefill : Bool
  deriving DecidableEq, Repr

/-- State of a sequence entry (R285); a FREE entry is not listed. -/
inductive SeqState where
  | active | instep | suspended | done | faulted
  deriving DecidableEq, Repr

/-- A sequence entry (R285). -/
structure Seq' where
  st      : SeqState
  fn      : Nat
  model   : Nat
  level   : Nat
  len     : Nat
  prompt  : Nat
  maxlen  : Nat
  reason  : Bool
  evictp  : Bool
  suspp   : Bool
  stepsow : Nat
  addr    : W64
  user    : W64
  at'     : Nat
  deriving DecidableEq, Repr

/-- Progress of a step (R293, R296). While its counts are written, `undo` holds each entry's state without and with the results
(R298). -/
inductive StepPhase where
  | composing | writing (n : Nat) | running | reading (data : Option Words)
  | committing (undo : List (Nat × Seq' × Seq')) | done
  deriving DecidableEq, Repr

/-- Progress of the copy of a fallow graph's fan-in array into a sowing's counter area, and of the reading of the root list
(R98); `done` from the start for a resident graph. -/
inductive FaninPhase where
  | due | reading | writing | roots | done
  deriving DecidableEq, Repr

/-- A step sowing's data: model, buffer, records, progress, whether STEP_LATE was due (R302). -/
structure StepInfo where
  model : Nat
  buf   : Nat
  recs  : List StepRec
  phase : StepPhase
  late  : Bool
  deriving DecidableEq, Repr

/-- One sowing (R104, R108, R116). `rootsAt` is the earliest sc of its root insertion, `nextRoot` the next node to
look at, `layerWait` partial sums that left the cache while an addition to their word was under way (R189); `firstRoot` the order in which its first root entered, `retOrd` the order of its retirement, `never` its nodes never
dispatched; `launching` while its command waits for its roots. Of a fallow graph's: the counter area it has in the workspace,
its fan-in copy and its root list (R96, R98); `rootsFrom` is the sc that R109 gives for its first root. -/
structure Sowing where
  fn         : Nat
  id         : BitVec 32
  graph      : Nat
  bankB      : Bool
  plot       : Nat
  queue      : Nat
  st         : SowState
  ordinal    : Nat
  ctr        : Tab Counter
  blocks     : Nat
  startAt    : Nat
  rootsFrom  : Nat
  rootsAt    : Option Nat
  area       : Nat
  fanin      : FaninPhase
  roots      : List Nat
  nextRoot   : Nat
  firstRoot  : Option Nat
  rootsDone  : Bool
  launching  : Bool
  code       : BitVec 16
  done       : Nat
  lost       : Nat
  retired    : Nat
  endedAt    : Nat
  retOrd     : Nat
  never      : Nat
  digest     : W64
  layers     : Tab W64
  layerWait  : List (Nat × W64)
  act        : EndAct
  phase      : EndPhase
  kindAbsent : Bool
  cyc        : Option CycInfo
  step       : Option StepInfo
  deriving DecidableEq, Repr

/-- All sowings whose end action is not complete, the per-function ID counters, and orders of events. -/
structure Sowings where
  live    : Tab Sowing
  nextId  : Tab (BitVec 32)
  lastId  : Tab (Option (BitVec 32))
  ordinal : Nat
  roots   : Nat
  quota   : Tab Nat
  deriving DecidableEq, Repr

/-! ### Dependency engine, ready lists -/

/-- A decrement on its way to a counter (R131 to R135): sowing, node, source engine, PRODUCER; `stale` when its
sowing entered FAILING after it was issued (R112). -/
structure Dec where
  sow      : Nat
  node     : Nat
  src      : Option Nat
  producer : Bool
  stale    : Bool
  deriving DecidableEq, Repr

/-- Out-edges of a retired node still to be read: next line (R131). -/
structure EdgeJob where
  sow  : Nat
  node : Nat
  src  : Option Nat
  line : Nat
  deriving DecidableEq, Repr

/-- A one-left notice (R135). -/
structure Notice where
  sow      : Nat
  node     : Nat
  src      : Option Nat
  producer : Bool
  deriving DecidableEq, Repr

/-- The dependency engine's queues; `fallow` holds the decrements that wait for a page's transfer or go to the workspace,
`work` the one whose counter is being read there, or written with the value given (R101). -/
structure DepEngine where
  banks   : Tab (List Dec)
  jobs    : List EdgeJob
  notices : List Notice
  looks   : List (Nat × Nat × Nat)
  fallow  : List Dec
  work    : Option (Dec × Option Nat)
  deriving DecidableEq, Repr

/-- An entry of a ready list (R146): a dead one is of a FAILING sowing (R144). `at'` is the sc it entered in and `rank` its
place among those of one sc (R147). -/
structure Ready where
  sow  : Nat
  node : Nat
  tick : BitVec 48
  dead : Bool
  at'  : Nat
  rank : Nat
  deriving DecidableEq, Repr

/-- An entry of a delay list (R155). -/
structure Delayed where
  sow    : Nat
  node   : Nat
  plot   : Nat
  expiry : Nat
  dead   : Bool
  deriving DecidableEq, Repr

/-- Arbiter state of a pair (p, k) (R149, R459). Deficits and pointers are keyed by class (0 LC, 1 BE). -/
structure Arb where
  turn    : Nat
  ageflip : Bool
  aptr    : Tab Nat
  ptr     : Tab Nat
  deficit : Tab Int
  deriving DecidableEq, Repr

/-- R459. Unlisted aptr read 15, unlisted ptr and deficits 0. -/
def Arb.reset : Arb := ⟨0, false, [], [], []⟩

/-- State of an atomic flow (R152). -/
inductive FlowState where
  | idle
  | busy (sow node : Nat)
  | reserved (sow node : Nat)
  deriving DecidableEq, Repr

/-- A chained node with the list it came from (R153); dead when its sowing fails (R144). -/
structure Chained where
  list : Nat
  sow  : Nat
  node : Nat
  dead : Bool
  deriving DecidableEq, Repr

/-- A flow of a plot and its chain. -/
structure Flow where
  st    : FlowState
  chain : List Chained
  deriving DecidableEq, Repr

/-- A node in PEND_READY or PEND_DELAY (R142); dead when its sowing fails, until the sweep clears the mark (R144). -/
structure Pend where
  sow   : Nat
  node  : Nat
  plot  : Nat
  delay : Bool
  ord   : Nat
  dead  : Bool
  deriving DecidableEq, Repr

/-- Ready lists keyed `p * 96 + k * 32 + c * 16 + g`, arbiters keyed `p * 3 + k`, flows keyed `p * 65536 + flow`,
delay lists 0 to 3; `pendPtr` and `pendDet` are where PENDING_MOVE's rounds of plots stand, the latter for the lane of the
deterministic plots (R142, R317). -/
structure ReadyLists where
  lists   : Tab (List Ready)
  arbs    : Tab Arb
  flows   : Tab Flow
  delays  : Tab (List Delayed)
  pend    : List Pend
  pendPtr : Nat
  pendDet : Nat
  deriving DecidableEq, Repr

/-! ### Engines and drill -/

/-- A task as the HGS tracks it: sowing, node, kind; `slice` when it is a restore; `test` for a self-test. -/
structure Task where
  sow   : Nat
  node  : Nat
  kind  : Nat
  slice : Option (Nat × Nat)
  test  : Bool
  deriving DecidableEq, Repr

/-- Front slot (R159 to R162): committed to the cluster sequencer, driven at an sc and not acknowledged, running. -/
inductive Front where
  | empty
  | committed (t : Task) (inc : BitVec 8)
  | driven (t : Task) (since : Nat)
  | running (t : Task) (since : Nat)
  deriving DecidableEq, Repr

/-- Back slot states of R169. -/
inductive BackState where
  | empty | writing | held | pending | releasing | withdrawing
  deriving DecidableEq, Repr

/-- Back slot: state, task, when the hold was committed and driven, what the hold charged and the state its flow had before
(R150, R152), when the counter reached 0, when a withdrawal was marked while WRITING, whether the release waits in the start
queue or is sent, the trigger of a withdrawal (R430). -/
structure Back where
  st       : BackState
  task     : Task
  inc      : BitVec 8
  holdAt   : Nat
  drivenAt : Option Nat
  charged  : Nat
  flowWas  : FlowState
  zeroAt   : Option Nat
  wdAt     : Option Nat
  sent     : Bool
  trigger  : Nat
  deriving DecidableEq, Repr

/-- Where an engine stands apart from its slots (R190). `inService` covers IDLE and BUSY; `out` is taken out of service
with its targeted self-test pending (R416), `away` after a raise of its incarnation with its return pending (R186). -/
inductive Service where
  | inService | out | away | returning | testing | retired
  deriving DecidableEq, Repr

/-- Why a preempt request was made: a plot's preemption, a reclaim of a home plot, a function reset (R350, R359,
R414). -/
inductive Cause where
  | plot (p : Nat) | reclaim (home : Nat) | fnReset (n : Nat)
  deriving DecidableEq, Repr

/-- A preempt request: grain (1 TASK_BOUNDARY, 2 MID_TASK), cause, the slice it saves into, whether
its SAVE notice has been asked for, and when it was driven. -/
structure Preempt where
  grain  : Nat
  cause  : Cause
  slice  : Option (Nat × Nat)
  noted  : Bool
  driven : Option Nat
  deriving DecidableEq, Repr

/-- A notice in an engine's NOTICE block (R354): kind 1 SAVE, 2 RESTORE, 3 SEG_INVAL; acknowledged by the mesh or
not; when it was written. -/
structure NoticeBlk where
  kind  : Nat
  nseq  : BitVec 8
  fn    : Nat
  seg   : Nat
  acked : Bool
  at'   : Nat
  deriving DecidableEq, Repr

/-- A pending engine semaphore wait, with the sowing of the task that waits (R240, R242, R243). -/
structure EngWait where
  sem  : Nat
  op   : Nat
  val0 : BitVec 32
  park : Bool
  sow  : Nat
  deriving DecidableEq, Repr

/-- SM_ERES of an engine (R241). -/
structure SemRes where
  value   : BitVec 32
  status  : BitVec 8
  done    : Bool
  pending : Bool
  opseq   : BitVec 8
  deriving DecidableEq, Repr

/-- SHF_ERES of an engine (R269). -/
structure ShfRes where
  lastst   : BitVec 8
  firsterr : Rc
  acc      : BitVec 8
  cmp      : BitVec 8
  inexact  : Rc
  range    : Rc
  nanout   : Rc
  lostseen : Rc
  deriving DecidableEq, Repr

/-- Phase of an accepted send (R248 to R253): `framed` sends await their confirmation. -/
inductive SendPhase where
  | accepted | descRead | checked | payloadRead | payloadWrite | recordWait | recordWrite | framed
  deriving DecidableEq, Repr

/-- An accepted send of an engine (R247, R248). -/
structure Send where
  fn      : Nat
  desc    : W64
  plot    : Nat
  phase   : SendPhase
  words   : Words
  payload : Words
  deriving DecidableEq, Repr

/-- A physical engine as the HGS sees it (R159, R185, R190). `inc` and `seqx` are the HGS's copies; `flushed` when
FLUSH has been answered since it left service; `emptyOk` when R56 lets the first FLUSH be answered with EMPTY;
`token` the outstanding token operation (0 RELEASE, 1 WITHDRAW, 2 FLUSH); `idleFrom` is when the CC accepted its last
completion, `ran` whether it has run a task since its return (R174); `freeAt` when its front slot fell free, `backAt` when its back
slot did; `ackAt` when it last acknowledged a front-slot descriptor; `goneAt` when esi_up_i last fell as R37 handles it. -/
structure Engine where
  service  : Service
  flushed  : Bool
  emptyOk  : Bool
  testAt   : Option Nat
  front    : Front
  back     : Back
  inc      : BitVec 8
  seqx     : BitVec 16
  nextSeq  : BitVec 16
  started  : List (BitVec 16 × Task)
  token    : Option Nat
  tokenAt  : Nat
  preempt  : Option Preempt
  notice   : Option NoticeBlk
  noticeQ  : List (Nat × Nat × Nat)
  nseq     : BitVec 8
  idleFrom : Option Nat
  ran      : Bool
  freeAt   : Nat
  backAt   : Nat
  ackAt    : Option Nat
  lent     : Bool
  moving   : Option Nat
  eres     : SemRes
  wait     : Option EngWait
  shf      : ShfRes
  sends    : List Send
  repState : BitVec 2
  spare    : Option Nat
  serves   : Option Nat
  tests    : Nat
  ceCount  : Nat
  goneAt   : Option Nat
  deriving DecidableEq, Repr

/-- No task. -/
def Task.nil : Task := ⟨0, 0, 0, none, false⟩

/-- R169: EMPTY. -/
def Back.reset : Back := ⟨.empty, Task.nil, 0, 0, none, 0, .idle, none, none, false, 0⟩

/-- Block reset of an engine's record: slots empty, incarnation copy and expected SEQ 0 (R190), result registers 0
(R241, R269), home (R340), repair fields 0 (R424). -/
def Engine.reset : Engine where
  service := .away
  flushed := false
  emptyOk := false
  testAt := none
  front := .empty
  back := Back.reset
  inc := 0
  seqx := 0
  nextSeq := 0
  started := []
  token := none
  tokenAt := 0
  preempt := none
  notice := none
  noticeQ := []
  nseq := 0
  idleFrom := none
  ran := false
  freeAt := 0
  backAt := 0
  ackAt := none
  lent := false
  moving := none
  eres := ⟨0, 0, false, false, 0⟩
  wait := none
  shf := ⟨0, Rc.zero, 0, 0, Rc.zero, Rc.zero, Rc.zero, Rc.zero⟩
  sends := []
  repState := 0
  spare := none
  serves := none
  tests := 0
  ceCount := 0
  goneAt := none

/-- An entry of the start queue (R176): what starts, its plot and cluster, its cost, when it arrived. -/
inductive Start where
  | front (e : Nat) | release (e : Nat) | wakeWord (e : Nat) | domain (c : Nat)
  deriving DecidableEq, Repr

/-- A queued start with its arrival time. -/
structure Queued where
  what : Start
  at'  : Nat
  deriving DecidableEq, Repr

/-- Power state of a cluster domain (R54 to R56, R178). -/
inductive Domain where
  | awake | asleep
  | waking (since : Nat)
  | sleeping (since : Nat)
  | unavailable
  deriving DecidableEq, Repr

/-- The drill's queues and the ramp governor (R161, R168, R173 to R178). `seqF`/`seqB` are the cluster sequencers'
front-slot and back-slot descriptors; a producer entry is a sowing, its target node, the engine and the node whose edge
leads there (R168); `usedRsv` counts reserved units per plot, `granted` the reserves in force; `portAt` is the sc from which a cluster's
descriptor port is free (R24). -/
structure Drill where
  seqF       : Tab (List Nat)
  seqB       : Tab (List Nat)
  producers  : List (Nat × Nat × Nat × Nat)
  queue      : List Queued
  pmBudget   : BitVec 8
  window     : Nat
  usedShared : Nat
  usedClust  : Tab Nat
  usedRsv    : Tab Nat
  granted    : Tab Nat
  domains    : Tab Domain
  late       : List Nat
  portAt     : Tab Nat
  deriving DecidableEq, Repr

/-! ### Front end -/

/-- HCF_QSTAT.STATE (R195). -/
inductive QState where
  | disabled | idle | running | stalled | halted
  deriving DecidableEq, Repr

/-- A fetched packet in the prefetch window and where it stands in execution order (R208). -/
structure Slot where
  ring  : BitVec 32
  bpos  : Nat
  inbuf : Bool
  pkt   : BitVec 512
  deriving DecidableEq, Repr

/-- What the head command of a queue is doing (R205): not begun, or waiting or under way. A `yokeNext` barrier waits for the end
of the round in which an abandoned command of its queue's function arrived (R329). -/
inductive Head where
  | none
  | launch (step : Bool)
  | rooting (sow : Nat)
  | load
  | patchWait (bank : Option Bool)
  | patch (toB : Bool) (since : Nat) (data : Option Words)
  | swap
  | drain
  | seal
  | fence (sow : Option Nat)
  | sem
  | signal
  | withdraw
  | coreWait
  | coreRun (core : Nat)
  | tickWait
  | yoke (due : Option (BitVec 48 × Nat))
  | yokeNext
  | harvest
  | preempt
  | lend
  deriving DecidableEq, Repr

/-- A halt of a queue (R196, R197, R220): its CODE, whether the queue is then disabled, and the sowing and DETAIL of the record
that is written with it, when one is. -/
structure HaltDue where
  code : Nat
  off  : Bool
  note : Option (Option (BitVec 32) × Nat)
  deriving DecidableEq, Repr

/-- One queue (R192 to R197, R208, R213, R219, R237, R342). `buf` is the BUFFER packet in execution; `failed` holds
the earliest failed sowing since the last FENCE PRIOR; `haltAfter` a halt that waits for a command under way; `held` by a
preemption of its plot. The timer runs since `timer`, after `spent` sc before it last stopped, against `armed`, the LIMIT at its
last restart (R219, R220). -/
structure Queue where
  off       : BitVec 36
  seg       : BitVec 4
  size      : Nat
  enable    : Bool
  limit     : Nat
  st        : QState
  code      : BitVec 8
  wait      : Nat
  rptr      : BitVec 32
  wptr      : BitVec 32
  bpos      : Nat
  inbuf     : Bool
  buf       : BitVec 512
  last      : Option (BitVec 32)
  win       : List Slot
  fetching  : Bool
  drop      : Bool
  timer     : Option Nat
  spent     : Nat
  armed     : Nat
  head      : Head
  failed    : Option (Nat × BitVec 16)
  haltAfter : Option HaltDue
  held      : Bool
  decl      : Tab W64
  plot      : Nat
  deriving DecidableEq, Repr

/-- R195, R196: DISABLED, SIZE 6, LIMIT 1,000,000; declarations and binding 0 (R237, R342). -/
def Queue.reset : Queue where
  off := 0
  seg := 0
  size := 6
  enable := false
  limit := 1000000
  st := .disabled
  code := 0
  wait := 0
  rptr := 0
  wptr := 0
  bpos := 0
  inbuf := false
  buf := 0
  last := none
  win := []
  fetching := false
  drop := false
  timer := none
  spent := 0
  armed := 1000000
  head := .none
  failed := none
  haltAfter := none
  held := false
  decl := []
  plot := 0

/-- The front end: the queues, and the one that last began a command (R207). -/
structure FrontEnd where
  queues     : Tab Queue
  lastServed : Nat
  deriving DecidableEq, Repr

/-! ### Semaphores, messages, sheaf, sequence table -/

/-- Who waits on a semaphore. -/
inductive Waiter where
  | queue (q : Nat) | engine (e : Nat)
  deriving DecidableEq, Repr

/-- A wait on a semaphore: operation 6 WAIT_GE, 7 WAIT_EQ, 8 ACQUIRE; when it began (R233, R244). -/
structure SemWait where
  sem  : Nat
  op   : Nat
  val0 : BitVec 32
  who  : Waiter
  at'  : Nat
  deriving DecidableEq, Repr

/-- The semaphore memory, access blocks and waiters in order of arrival (R226, R228, R233); the circles found in
the snapshot of the last headland (R244): queue, semaphore, start of the wait, ring index of each member. -/
structure SemMemory where
  vals     : Tab (BitVec 32)
  acl      : Tab W64
  waiters  : List SemWait
  snapshot : Option (List (List (Nat × Nat × Nat × BitVec 32)))
  snapAt   : Nat
  deriving DecidableEq, Repr

/-- A live pair of the credit table: credits left (R252). -/
structure Pair where
  credits : Nat
  deriving DecidableEq, Repr

/-- Ring indices of a receiving engine: records written, records freed (R249, R252). -/
structure Ring where
  written : Nat
  freed   : Nat
  deriving DecidableEq, Repr

/-- A message from another chip on its way into memory (R250, R252): phase 0 payload, 1 record to be written, 2 record
written and not acknowledged. -/
structure Incoming where
  fn    : Nat
  frame : MsgFrame
  port  : Nat
  phase : Nat
  deriving DecidableEq, Repr

/-- Message router: MRS_RX and MRS_CREDIT per function, rings keyed `fn * 512 + engine`, credit table keyed
`(((fn * 2 + remote) * 256 + chip) * 512 + src) * 512 + dst`, messages that arrive from other chips. -/
structure Router where
  rx      : Tab W64
  credit  : Tab Nat
  rings   : Tab Ring
  pairs   : Tab Pair
  coming  : List Incoming
  deriving DecidableEq, Repr

/-- One link port (R53): last HELLO and when, agreeing HELLOs, the announced partner, discarded frames (R52). -/
structure Port where
  last      : Option HelloFrame
  lastAt    : Nat
  agreed    : Nat
  partner   : Option HelloFrame
  discarded : Nat
  deriving DecidableEq, Repr

/-- No HELLO seen. -/
def Port.reset : Port := ⟨none, 0, 0, none, 0⟩

/-- Link ports and the time of the last HELLO sent (R53). -/
structure Links where
  ports   : Tab Port
  helloAt : Nat
  deriving DecidableEq, Repr

/-- A sheaf lane (R261): the exact sum and its flags. -/
structure Lane where
  sum  : Int
  pinf : Bool
  ninf : Bool
  nan  : Bool
  nz   : Bool
  deriving DecidableEq, Repr

/-- A sheaf entry (R256 to R258). Unlisted lanes are zero with every flag clear. -/
structure ShfEntry where
  owner  : Nat
  enable : Bool
  fmt    : Nat
  fmtv   : Bool
  count  : Nat
  lost   : Bool
  poison : Bool
  lanes  : List Lane
  deriving DecidableEq, Repr

/-- Block reset of an entry: no format set (R256, R257, R258). -/
def ShfEntry.reset : ShfEntry := ⟨0, false, 0, false, 0, false, false, []⟩

/-- Progress of a sheaf operation (R267, R268): an add is `accepted` until its data read is issued. -/
inductive ShfPhase where
  | accepted | reading | ready | failed | applied
  deriving DecidableEq, Repr

/-- An accepted sheaf operation with the sc of its acceptance and the sowing and queue of its task; a write to SHF_ENTCFG in its
entry's order (R259, `cfg`); or, with `op` 8, an SM_EOP write that waits for its engine's sheaf operations, the write in `addr`
(R273). -/
structure ShfOp where
  num    : Nat
  ent    : Nat
  op     : Nat
  fmt    : Nat
  fn     : Nat
  eng    : Nat
  inc    : BitVec 8
  addr   : W64
  plot   : Nat
  sow    : Nat
  queue  : Nat
  at'    : Nat
  phase  : ShfPhase
  status : BitVec 8
  data   : Words
  cfg    : Option W64
  deriving DecidableEq, Repr

/-- The sheaf: entries, operations accepted and not completed in the order of R259 and R268, those completed that SHF_ERES does
not show yet in the order of their completion (R267, R269), and the number of the next. -/
structure Sheaf where
  ents : Tab ShfEntry
  ops  : List ShfOp
  ended : List ShfOp
  next : Nat
  deriving DecidableEq, Repr

/-- A model record (R281, R282). -/
structure Model where
  fn      : Nat
  handle  : Nat
  wlbase  : W64
  maxseq  : Nat
  nbuf    : Nat
  chunk   : Nat
  steptok : Nat
  stepq   : Nat
  det     : Bool
  semv    : Bool
  sem     : Nat
  detoff  : Nat
  semval  : BitVec 32
  deriving DecidableEq, Repr

/-- The sequence table: models, entries, level lists and rotation points keyed `model * 4 + level` (R292), quotas
(R303), STU_SEQSEL per function (R304), steps waiting for the composer (R293). -/
structure SeqUnit where
  models : Tab Model
  seqs   : Tab Seq'
  lists  : Tab (List Nat)
  rot    : Tab (Option Nat)
  quota  : Tab W64
  seqsel : Tab W64
  queue  : List Nat
  deriving DecidableEq, Repr

/-! ### Tick, yoke, plots -/

/-- A held result of a cyclic sowing with CMP, or an unmatched twin frame (R334). -/
structure Compare where
  entry  : Nat
  tick   : BitVec 48
  status : BitVec 16
  digest : W64
  fn     : Nat
  plot   : Nat
  at'    : Nat
  deriving DecidableEq, Repr

/-- The tick (R305 to R308): number, start, length and headland of the current tick, whether the headland has begun,
the yoke
adjustment applied in its headland and the number it gives the next tick (R324), the entries that have fired in this
tick, and the compare table with the twin's frames that found no entry yet (R334). -/
structure TickUnit where
  tick    : BitVec 48
  start   : Nat
  len     : Nat
  head    : Nat
  inHead  : Bool
  theta   : Option Int
  renum   : Option (BitVec 48)
  fired   : List Nat
  mine    : List Compare
  twins   : List Compare
  deriving DecidableEq, Repr

/-- One calibration exchange (R324): round trip, offset times two. -/
structure Exchange where
  rtt   : Int
  twice : Int
  deriving DecidableEq, Repr

/-- Arrivals of a barrier as one port's subtree last reported them; port 96 stands for the chip itself (R329). -/
structure Arrival where
  port     : Nat
  fn       : Nat
  barrier  : Nat
  chips    : Nat
  arrivals : Nat
  reloff   : Nat
  deriving DecidableEq, Repr

/-- Progress of a join or a calibration (R323): exchanges sent, and when the last was. -/
inductive JoinPhase where
  | none | joining (sent : Nat) (lastAt : Nat) | ready | joined
  deriving DecidableEq, Repr

/-- The yoke (R320 to R337). `kids` are ports whose JOIN was accepted, with the joined count each last reported; `recal`
while a joined chip calibrates again; `via` the port on which a STATUS of this tick said that the master was seen; `parentTick` the number the current tick has by the parent's count; `seen` when
the master's TICK came in this tick, `kidSeen` when a child's STATUS said so, `missed` the ticks in a row without
that; `delay` the calibrated one-way delay. -/
structure Yoke where
  role     : Nat
  phase    : JoinPhase
  count    : Nat
  hops     : Nat
  port     : Nat
  promoted : Bool
  theta    : BitVec 9
  exch     : List Exchange
  parentTick : Option (BitVec 48)
  kids     : Tab Nat
  arrivals : List Arrival
  missed   : Nat
  seen     : Bool
  kidSeen  : Bool
  via      : Option Nat
  recal    : Bool
  delay    : Int
  deriving DecidableEq, Repr

/-- STATE of PRU_PLOTSTAT (R373). -/
inductive PlotState where
  | running | preempting | preempted
  deriving DecidableEq, Repr

/-- A saved task with its slice (R351, R356): the engine that saved it, its directory entry, the engine that restores
it now, and whether the restored task has begun (its slice is then still taken). -/
structure Saved where
  task  : Task
  eng   : Nat
  slice : Nat
  entry : Words
  check : Option Nat
  begun : Bool
  deriving DecidableEq, Repr

/-- A plot command in progress: queue, grain (1, 2, 3 ESCALATE), when it executed, DEADLINE in µs, counts of R350,
failures, the engines it still waits for, clusters of a lend or reclaim, whether it is a reclaim. -/
structure PlotCmd where
  q        : Option Nat
  grain    : Nat
  at'      : Nat
  deadline : Nat
  escal    : Bool
  saved    : Nat
  done     : Nat
  lost     : Nat
  fail     : Bool
  noresp   : Bool
  wait     : List Nat
  reclaim  : Bool
  deriving DecidableEq, Repr

/-- A plot's run-time state (R344, R347, R350, R355, R356). `own` is the queue whose PLOT_PREEMPT stopped it. `busySlices` includes freed slices whose directory
rewrite is not acknowledged. -/
structure Plot where
  st         : PlotState
  own        : Option Nat
  cmd        : Option PlotCmd
  move       : Option PlotCmd
  saved      : List Saved
  busySlices : List Nat
  saveA      : W64
  saveCfg    : W64
  tokens     : Int
  saveTokens : Int
  savePhase  : Bool
  deriving DecidableEq, Repr

/-- RUNNING, task bucket full under the reset map's BURST of 64 x 64 KiB (R344, R346); save bucket: log 9. -/
def Plot.reset : Plot := ⟨.running, none, none, none, [], [], 0, 0, 64 * 65536, 0, false⟩

/-- A segment (R363): registers, holder set (R364), engines that have yet to acknowledge its withdrawal (R365),
queues whose SEG_WITHDRAW waits, nodes set aside (R368) by sowing key. -/
structure Seg where
  base    : BitVec 44
  limit   : BitVec 36
  rd      : Bool
  wr      : Bool
  ex      : Bool
  anyplot : Bool
  plot    : BitVec 6
  leg     : Bool
  valid   : Bool
  wdraw   : Bool
  stale   : Bool
  epoch   : BitVec 16
  holders : List Nat
  unacked : List Nat
  queues  : List Nat
  aside   : List Nat
  deriving DecidableEq, Repr

/-- R363: every field 0. -/
def Seg.reset : Seg := ⟨0, 0, false, false, false, false, 0, false, false, false, false, 0, [], [], [], []⟩

/-- Plots and segments (segments keyed `fn * 16 + s`); when the buckets were last refilled (R344). -/
structure PlotUnit where
  plots    : Tab Plot
  segs     : Tab Seg
  refillAt : Nat
  deriving DecidableEq, Repr

/-! ### Mailboxes, cores -/

/-- One direction of a channel (R380 to R382): visible words, with the words left of the packet at the front; packets whose last
word came in this sc, not visible yet; the packet being assembled with the words it still takes; words to discard after a
refused header; the words of a packet that a flush abandoned in the sc given when only its last word was still to come. -/
structure WordQ where
  words   : Words
  pkts    : List Nat
  coming  : List Words
  opened  : Option Nat
  part    : Words
  discard : Nat
  kept    : Option (Nat × Words)
  ovr     : Option Nat
  und     : Option Nat
  deriving DecidableEq, Repr

/-- An empty queue. -/
def WordQ.reset : WordQ := ⟨[], [], [], none, [], 0, none, none, none⟩

/-- One mailbox channel (R374 to R385). `out` fields are the host side's, `fw` the firmware side's; `toFw` carries
host-to-firmware words. -/
structure Channel where
  hostOut  : Bell
  fwOut    : Bell
  hostMask : BitVec 32
  fwMask   : BitVec 32
  notaddr  : W64
  notval   : BitVec 33
  given    : Bool
  underway : Bool
  again    : Bool
  toFw     : WordQ
  toHost   : WordQ
  deriving DecidableEq, Repr

/-- R377 to R383: reset state of a channel. -/
def Channel.reset : Channel where
  hostOut := Bell.clear
  fwOut := Bell.clear
  hostMask := 0xFFFFFFFF
  fwMask := 0xFFFFFFFF
  notaddr := 0
  notval := 0
  given := false
  underway := false
  again := false
  toFw := WordQ.reset
  toHost := WordQ.reset

/-- The lock of a shared channel (R384, R385): holder's tag, side, FN, SEC and the sc of the claim. -/
structure Lock where
  held   : Bool
  tag    : BitVec 16
  side   : Bool
  fn     : Nat
  sec    : Bool
  broken : Option Nat
  at'    : Nat
  deriving DecidableEq, Repr

/-- A free lock. -/
def Lock.reset : Lock := ⟨false, 0, false, 0, false, none, 0⟩

/-- The mailbox unit. -/
structure Mailboxes where
  chans : Tab Channel
  locks : Tab Lock
  deriving DecidableEq, Repr

/-- A fall-back program in a sandbox (R221 to R225): pc and registers x1 to x31, the sandbox in 64-bit words, and as instruction
fetch sees it since the last FENCE.I (R387), the address and width of a load reservation, stores not yet acknowledged, an awaited
LOAD, and the status and VALUE of an end that waits for the stores. -/
structure Program where
  q       : Nat
  fn      : Nat
  budget  : Nat
  start   : Option Nat
  pc      : W64
  regs    : Tab W64
  mem     : Tab W64
  code    : Tab W64
  resv    : Option (Nat × Nat)
  stores  : Nat
  loading : Bool
  exiting : Option (Nat × W64)
  deriving DecidableEq, Repr

/-- The control cores: programs on cores 1 to 3 (keyed 0 to 2), cores stopped by an error (R411), CORE_CALLs that
wait in order (R221), the event FIFO of core 0 and its overflow count (R388). -/
structure Cores where
  progs    : Tab Program
  stopped  : List Nat
  waiting  : List Nat
  events   : List W64
  overflow : Nat
  deriving DecidableEq, Repr

/-! ### Faults, persistent store, trace, harvest -/

/-- A glean slot in use (R403). -/
structure Glean where
  code    : BitVec 16
  count   : Nat
  first   : BitVec 40
  last    : BitVec 40
  fsow    : Option (BitVec 32)
  lsow    : Option (BitVec 32)
  deriving DecidableEq, Repr

/-- A fault queue or the error log (R401 to R407): records, counts, glean slots, the slot last taken, when a record of
each code was last queued, how many of the last records were queued in the sc `freshAt`, and for the sc `countedAt` the
slots it began with and the reports it has counted, which a slot taken in it does not hold yet (R404). -/
structure FaultQ where
  recs       : List (BitVec 256)
  overflow   : Rc
  suppressed : Rc
  glean      : Tab Glean
  taken      : BitVec 256
  lastAt     : Tab Nat
  fresh      : Nat
  freshAt    : Nat
  gleanWas   : Tab Glean
  counted    : List (Nat × BitVec 40 × Option (BitVec 32))
  countedAt  : Nat
  deriving DecidableEq, Repr

/-- Empty. -/
def FaultQ.reset : FaultQ := ⟨[], Rc.zero, Rc.zero, [], 0, [], 0, 0, [], [], 0⟩

/-- A function reset in progress (R414): cause, whether a done pulse is owed, engines not yet answered, start of
step 4, counts of the FN_RESET record. -/
structure FnReset where
  cause    : BitVec 3
  pulse    : Bool
  wait     : List Nat
  at'      : Nat
  sowings  : Nat
  tasks    : Nat
  graphs   : Nat
  silent   : Nat
  deriving DecidableEq, Repr

/-- FTT_FNSTAT bits kept per function (R415). -/
structure FnStat where
  faulted : Option Nat
  cause   : BitVec 3
  deriving DecidableEq, Repr

/-- A physical GS bank (R418, R424): 0 serving, 1 free spare, 2 retired, 3 testing. -/
structure Bank where
  st      : Nat
  logical : Nat
  logv    : Bool
  tests   : Nat
  ces     : Nat
  copyTo  : Option Nat
  at'     : Nat
  deriving DecidableEq, Repr

/-- An entry of a repair record (R425): KIND 1 ENGINE, 2 GS_BANK, 3 ROW. -/
structure RepairEntry where
  kind  : Nat
  unit  : Nat
  spare : Nat
  row   : BitVec 32
  deriving DecidableEq, Repr

/-- The fault unit: fault queues, error log, FATAL state, function resets, repair map and its commit. -/
structure FaultUnit where
  queues   : Tab FaultQ
  log      : FaultQ
  fatal    : Bool
  fatalInfo : W64
  resets   : Tab FnReset
  fnstat   : Tab FnStat
  banks    : Tab Bank
  entries  : List RepairEntry
  edits    : List (Nat × Option Nat × Nat)
  unsaved  : Bool
  repgen   : BitVec 32
  wantCommit : Bool
  retries  : Nat
  retryAt  : Option Nat
  errWords : List (BitVec 8 × BitVec 32)
  deriving DecidableEq, Repr

/-- An operation of the rewritable store (R62); `read` stands for the reads of `n` words from `addr` on, each an operation
of its own, the first of them next. -/
inductive NvOp where
  | read (addr n : Nat)
  | program (addr : Nat) (data : W64)
  | erase (sector : Nat)
  deriving DecidableEq, Repr

/-- Whose operations run: a field map SAVE or RECALL, a repair commit with its generation, or start-up step 2's reading of
the field repair records (R394, R426, R427, R445). -/
inductive NvJob where
  | save | recall | commit (gen : BitVec 32) | records
  deriving DecidableEq, Repr

/-- The persistent store: words programmed since their erase, operations queued with the one in progress first, its
issue time and whether it is the repeat (R63), the job in progress and those that wait (R426), availability (R65). -/
structure Persistent where
  words   : Tab W64
  ops     : List NvOp
  issued  : Option Nat
  second  : Bool
  bound   : Bool
  job     : Option NvJob
  next    : List NvJob
  gone    : Bool
  deriving DecidableEq, Repr

/-- The trace unit (R429 to R436). Events from index WPTR on are `issued` or still to be issued; `ahead` lists
acknowledged bursts (first index, events) behind one that is not. -/
structure Trace where
  enable   : Bool
  stream   : Bool
  types    : BitVec 16
  fnmask   : BitVec 256
  plotmask : BitVec 64
  fnmaskOn   : BitVec 256
  plotmaskOn : BitVec 64
  sbase    : W64
  ssize    : Nat
  rptr     : BitVec 32
  wptr     : BitVec 32
  issued   : Nat
  ahead    : Tab Nat
  failed   : Bool
  dropped  : Rc
  bwptr    : BitVec 32
  fill     : Nat
  seq      : BitVec 16
  buf      : Tab (BitVec 256)
  lastAt   : Nat
  deriving DecidableEq, Repr

/-- R432: reset values. -/
def Trace.reset : Trace where
  enable := false
  stream := false
  types := 0
  fnmask := 0
  plotmask := 0
  fnmaskOn := 0
  plotmaskOn := 0
  sbase := 0
  ssize := 20
  rptr := 0
  wptr := 0
  issued := 0
  ahead := []
  failed := false
  dropped := Rc.zero
  bwptr := 0
  fill := 0
  seq := 0
  buf := []
  lastAt := 0

/-- Harvest counters and shadows, keyed by aperture word (R437), registers (R442) and the requests for the next
edge (R441). -/
structure Harvest where
  live      : Tab W64
  shadow    : Tab W64
  period    : BitVec 16
  overwrite : Bool
  seq       : BitVec 32
  held      : Bool
  overwritten : Option Nat
  damaged   : Bool
  damageNext : Bool
  skipped   : Rc
  tick      : BitVec 48
  want      : List Nat
  before    : Tab W64
  damageWas : Bool
  asked     : List Nat
  deriving DecidableEq, Repr

/-! ### The Completion Collector, the sc in progress -/

/-- The CC's input buffers by cluster, oldest record first, and the cluster it served last (R30, R181). -/
structure Collector where
  bufs : Tab (List (BitVec 256))
  last : Nat
  deriving DecidableEq, Repr

/-- A trace event before it is written (R429, R430). -/
structure Event where
  type : Nat
  fn   : Option Nat
  plot : Option Nat
  eng  : Option Nat
  sow  : Option (BitVec 32)
  node : Option Nat
  a16  : Nat
  arg  : W64
  deriving DecidableEq, Repr

/-- What the rules ask of the sc in progress: pool occupancy at its start and entries added since, keyed by plot, 64 + plot
for the delay pool (R141); records the CC took (R181); whether a queue command began (R207); the trace events captured,
in the order of R431. -/
structure Moment where
  occ    : Tab Nat
  added  : Tab Nat
  taken  : Nat
  began  : Bool
  events : List Event
  deriving DecidableEq, Repr

/-- Nothing yet. -/
def Moment.reset : Moment := ⟨[], [], 0, false, []⟩

/-! ### The whole -/

/-- The state of the block. -/
structure State where
  pending : List Instr
  now     : Nat
  free    : Nat
  inSc    : Moment
  su      : StartUp
  pins    : Pins
  mt      : Target
  mesh    : Mesh
  fm      : FieldMaps
  gs      : GraphStore
  sow     : Sowings
  de      : DepEngine
  rla     : ReadyLists
  eng     : Tab Engine
  cc      : Collector
  dcs     : Drill
  hcf     : FrontEnd
  sm      : SemMemory
  mrs     : Router
  link    : Links
  shf     : Sheaf
  stu     : SeqUnit
  tcs     : TickUnit
  yoke    : Yoke
  pru     : PlotUnit
  mdu     : Mailboxes
  ccx     : Cores
  ftt     : FaultUnit
  nv      : Persistent
  tr      : Trace
  hv      : Harvest
  deriving DecidableEq, Repr

/-- Field maps at reset: the reset map active (R393). -/
def FieldMaps.reset : FieldMaps where
  active := FieldMap.reset
  shadow := FieldMap.reset
  src := 0
  state := .idle
  shvalid := false
  err := 0
  erridx := 0
  edits := 0
  swap := none
  image := none
  failed := false
  busyAt := 0
  head := []
  boot := .none

/-- The tick at reset (R305, R336): tick 0, LEN 2,000,000, headland 20,000. -/
def TickUnit.reset : TickUnit where
  tick := 0
  start := 0
  len := 2000000
  head := 20000
  inHead := false
  theta := none
  renum := none
  fired := []
  mine := []
  twins := []

/-- The yoke at reset: ROLE NONE, not joined (R337). -/
def Yoke.reset : Yoke where
  role := 0
  phase := .none
  count := 0
  hops := 0
  port := 0
  promoted := false
  theta := 0
  exch := []
  parentTick := none
  kids := []
  arrivals := []
  missed := 0
  seen := false
  kidSeen := false
  via := none
  recal := false
  delay := 0

/-- The fault unit at reset (R404, R407, R413, R424); FTT_FATALINFO is its power-on value. -/
def FaultUnit.reset : FaultUnit where
  queues := []
  log := FaultQ.reset
  fatal := false
  fatalInfo := 0
  resets := []
  fnstat := []
  banks := []
  entries := []
  edits := []
  unsaved := false
  repgen := 0
  wantCommit := false
  retries := 0
  retryAt := none
  errWords := []

/-- Nothing programmed, nothing in progress. -/
def Persistent.reset : Persistent := ⟨[], [], none, false, false, none, [], false⟩

/-- The machine right after reset (R23, R445, and the reset value of every register). -/
def State.reset : State where
  pending := []
  now := 0
  free := 0
  inSc := Moment.reset
  su := StartUp.reset
  pins := Pins.reset
  mt := ⟨0, 0, [], []⟩
  mesh := ⟨[], []⟩
  fm := FieldMaps.reset
  gs := ⟨[], [], [], [], [], none, none, 255, 255, [], [], []⟩
  sow := ⟨[], [], [], 0, 0, []⟩
  de := ⟨[], [], [], [], [], none⟩
  rla := ⟨[], [], [], [], [], 0, 0⟩
  eng := []
  cc := ⟨[], 31⟩
  dcs := ⟨[], [], [], [], 0, 0, 0, [], [], [], [], [], []⟩
  hcf := ⟨[], 16383⟩
  sm := ⟨[], [], [], none, 0⟩
  mrs := ⟨[], [], [], [], []⟩
  link := ⟨[], 0⟩
  shf := ⟨[], [], [], 0⟩
  stu := ⟨[], [], [], [], [], [], []⟩
  tcs := TickUnit.reset
  yoke := Yoke.reset
  pru := ⟨[], [], 0⟩
  mdu := ⟨[], []⟩
  ccx := ⟨[], [], [], [], 0⟩
  ftt := FaultUnit.reset
  nv := Persistent.reset
  tr := Trace.reset
  hv := ⟨[], [], 0, false, 0, false, none, false, false, Rc.zero, 0, [], [], false, []⟩

end Sys2Proof.Machine
end

