-- ==== Sys2Proof/Machine/Rv64.lean ====
section
/-! DEFINITION. The instructions of a fall-back program (R223, R386, R387): RV64IMAC with Zicsr and Zifencei in user mode.
PRESUMED: encodings and effects are those of the RISC-V unprivileged manual, which R386 names (log 80). -/
namespace Sys2Proof.Machine

/-- Operations of two operands, M among them. -/
inductive RvAlu where
  | add | sub | sll | slt | sltu | xor | srl | sra | or | and
  | mul | mulh | mulhsu | mulhu | div | divu | rem | remu
  deriving DecidableEq, Repr

/-- Branch conditions. -/
inductive RvCond where
  | eq | ne | lt | ge | ltu | geu
  deriving DecidableEq, Repr

/-- What an atomic operation writes back. -/
inductive RvAmo where
  | swap | add | xor | and | or | min | max | minu | maxu
  deriving DecidableEq, Repr

/-- An instruction, its registers by number. `word` chooses the 32-bit form of an operation, `bytes` is the size of an
access. -/
inductive Rv where
  | lui (rd : Nat) (imm : W64)
  | auipc (rd : Nat) (imm : W64)
  | jal (rd : Nat) (off : W64)
  | jalr (rd rs : Nat) (off : W64)
  | branch (c : RvCond) (rs1 rs2 : Nat) (off : W64)
  | load (bytes : Nat) (signed : Bool) (rd rs : Nat) (off : W64)
  | store (bytes : Nat) (rs1 rs2 : Nat) (off : W64)
  | opImm (op : RvAlu) (word : Bool) (rd rs : Nat) (imm : W64)
  | op (op : RvAlu) (word : Bool) (rd rs1 rs2 : Nat)
  | lr (bytes : Nat) (rd rs : Nat)
  | sc (bytes : Nat) (rd rs1 rs2 : Nat)
  | amo (op : RvAmo) (bytes : Nat) (rd rs1 rs2 : Nat)
  | fence
  | fenceI
  | counter (rd : Nat)
  | ecall
  | ebreak
  deriving DecidableEq, Repr

/-! ### Decoding -/

/-- Pieces of a word put together: each is (lowest bit, length, place). -/
def gather (w : Nat) : List (Nat × Nat × Nat) → Nat
  | [] => 0
  | (lo, len, dst) :: r => (bits w lo len) <<< dst + gather w r

/-- An immediate of `n` bits, sign-extended. -/
def signedImm (n w : Nat) (ps : List (Nat × Nat × Nat)) : W64 := BitVec.ofInt 64 (sgn n (gather w ps))
/-- An immediate that is not signed. -/
def plainImm (w : Nat) (ps : List (Nat × Nat × Nat)) : W64 := BitVec.ofNat 64 (gather w ps)

/-- The I, M or immediate operation of a funct3. -/
def rvAluOf : Nat → RvAlu
  | 0 => .add | 1 => .sll | 2 => .slt | 3 => .sltu | 4 => .xor | 5 => .srl | 6 => .or | _ => .and
/-- The M operation of a funct3. -/
def rvMulOf : Nat → RvAlu
  | 0 => .mul | 1 => .mulh | 2 => .mulhsu | 3 => .mulhu | 4 => .div | 5 => .divu | 6 => .rem | _ => .remu

/-- Operation of an OP or OP-32 word. -/
def rvOpOf (word : Bool) (f3 f7 : Nat) : Option RvAlu :=
  let short := !word || f3 == 0 || f3 == 1 || f3 == 5
  if f7 = 0 then (if short then some (rvAluOf f3) else none)
  else if f7 = 0x20 then (if f3 = 0 then some .sub else if f3 = 5 then some .sra else none)
  else if f7 = 1 then (if word && (f3 == 1 || f3 == 2 || f3 == 3) then none else some (rvMulOf f3))
  else none

/-- Operation of an OP-IMM or OP-IMM-32 word; `hi` is what stands above the shift amount. -/
def rvImmOf (word : Bool) (f3 hi : Nat) : Option RvAlu :=
  let arith := if word then 0x20 else 0x10
  if f3 = 1 then (if hi = 0 then some .sll else none)
  else if f3 = 5 then (if hi = 0 then some .srl else if hi = arith then some .sra else none)
  else if word && f3 != 0 then none
  else some (rvAluOf f3)

/-- Condition of a branch's funct3. -/
def rvCondOf : Nat → Option RvCond
  | 0 => some .eq | 1 => some .ne | 4 => some .lt | 5 => some .ge | 6 => some .ltu | 7 => some .geu | _ => none

/-- Operation of an AMO's funct5. -/
def rvAmoOf : Nat → Option RvAmo
  | 0x00 => some .add | 0x01 => some .swap | 0x04 => some .xor | 0x08 => some .or | 0x0C => some .and
  | 0x10 => some .min | 0x14 => some .max | 0x18 => some .minu | 0x1C => some .maxu | _ => none

/-- The A extension: LR, SC and the atomic operations, of 4 or 8 bytes. -/
def rvAtomic (w rd rs1 rs2 f3 : Nat) : Option Rv :=
  let f5 := bits w 27 5
  let n := 2 ^ f3
  if f3 ≠ 2 ∧ f3 ≠ 3 then none
  else if f5 = 2 then (if rs2 = 0 then some (.lr n rd rs1) else none)
  else if f5 = 3 then some (.sc n rd rs1 rs2)
  else (rvAmoOf f5).map fun o => .amo o n rd rs1 rs2

/-- SYSTEM: of the CSR instructions only a read of cycle, time or instret is allowed (R223), which is a set or clear of no
bit. -/
def rvSystem (w rd rs1 f3 : Nat) : Option Rv :=
  if w = 0x73 then some .ecall
  else if w = 0x100073 then some .ebreak
  else if (f3 = 2 ∨ f3 = 3 ∨ f3 = 6 ∨ f3 = 7) ∧ rs1 = 0 ∧ 0xC00 ≤ bits w 20 12 ∧ bits w 20 12 ≤ 0xC02 then some (.counter rd)
  else none

/-- A 32-bit instruction; `none` where it is illegal in user mode. -/
def rvFull (w : Nat) : Option Rv :=
  let rd := bits w 7 5
  let rs1 := bits w 15 5
  let rs2 := bits w 20 5
  let f3 := bits w 12 3
  let immI := signedImm 12 w [(20, 12, 0)]
  let immS := signedImm 12 w [(7, 5, 0), (25, 7, 5)]
  let shift (word : Bool) := plainImm w [(20, if word then 5 else 6, 0)]
  let opImm (word : Bool) :=
    (rvImmOf word f3 (if word then bits w 25 7 else bits w 26 6)).map fun o =>
      Rv.opImm o word rd rs1 (if f3 = 1 ∨ f3 = 5 then shift word else immI)
  match bits w 0 7 with
  | 0x37 => some (.lui rd (signedImm 32 w [(12, 20, 12)]))
  | 0x17 => some (.auipc rd (signedImm 32 w [(12, 20, 12)]))
  | 0x6F => some (.jal rd (signedImm 21 w [(21, 10, 1), (20, 1, 11), (12, 8, 12), (31, 1, 20)]))
  | 0x67 => if f3 = 0 then some (.jalr rd rs1 immI) else none
  | 0x63 => (rvCondOf f3).map fun c =>
      .branch c rs1 rs2 (signedImm 13 w [(8, 4, 1), (25, 6, 5), (7, 1, 11), (31, 1, 12)])
  | 0x03 => if f3 = 7 then none else some (.load (2 ^ (f3 % 4)) (decide (f3 < 4)) rd rs1 immI)
  | 0x23 => if f3 < 4 then some (.store (2 ^ f3) rs1 rs2 immS) else none
  | 0x13 => opImm false
  | 0x1B => opImm true
  | 0x33 => (rvOpOf false f3 (bits w 25 7)).map fun o => .op o false rd rs1 rs2
  | 0x3B => (rvOpOf true f3 (bits w 25 7)).map fun o => .op o true rd rs1 rs2
  | 0x2F => rvAtomic w rd rs1 rs2 f3
  | 0x0F => if f3 = 0 then some .fence else if f3 = 1 then some .fenceI else none
  | 0x73 => rvSystem w rd rs1 f3
  | _ => none

/-- A compressed instruction of quadrant 0. -/
def rvC0 (w : Nat) : Option Rv :=
  let rd := 8 + bits w 2 3
  let rs := 8 + bits w 7 3
  let offW := plainImm w [(10, 3, 3), (6, 1, 2), (5, 1, 6)]
  let offD := plainImm w [(10, 3, 3), (5, 2, 6)]
  match bits w 13 3 with
  | 0 => if bits w 5 8 = 0 then none
    else some (.opImm .add false rd 2 (plainImm w [(11, 2, 4), (7, 4, 6), (6, 1, 2), (5, 1, 3)]))
  | 2 => some (.load 4 true rd rs offW)
  | 3 => some (.load 8 true rd rs offD)
  | 6 => some (.store 4 rs rd offW)
  | 7 => some (.store 8 rs rd offD)
  | _ => none

/-- The arithmetic of quadrant 1 on the registers x8 to x15. -/
def rvC1Arith (w : Nat) : Option Rv :=
  let rd := 8 + bits w 7 3
  let rs := 8 + bits w 2 3
  let shift := plainImm w [(2, 5, 0), (12, 1, 5)]
  match bits w 10 2, bits w 12 1, bits w 5 2 with
  | 0, _, _ => some (.opImm .srl false rd rd shift)
  | 1, _, _ => some (.opImm .sra false rd rd shift)
  | 2, _, _ => some (.opImm .and false rd rd (signedImm 6 w [(2, 5, 0), (12, 1, 5)]))
  | _, 0, 0 => some (.op .sub false rd rd rs)
  | _, 0, 1 => some (.op .xor false rd rd rs)
  | _, 0, 2 => some (.op .or false rd rd rs)
  | _, 0, _ => some (.op .and false rd rd rs)
  | _, _, 0 => some (.op .sub true rd rd rs)
  | _, _, 1 => some (.op .add true rd rd rs)
  | _, _, _ => none

/-- A compressed instruction of quadrant 1. -/
def rvC1 (w : Nat) : Option Rv :=
  let rd := bits w 7 5
  let imm := signedImm 6 w [(2, 5, 0), (12, 1, 5)]
  let off := signedImm 9 w [(3, 2, 1), (10, 2, 3), (2, 1, 5), (5, 2, 6), (12, 1, 8)]
  match bits w 13 3 with
  | 0 => some (.opImm .add false rd rd imm)
  | 1 => if rd = 0 then none else some (.opImm .add true rd rd imm)
  | 2 => some (.opImm .add false rd 0 imm)
  | 3 =>
    if imm = 0 then none
    else if rd = 2 then
      some (.opImm .add false 2 2 (signedImm 10 w [(6, 1, 4), (2, 1, 5), (5, 1, 6), (3, 2, 7), (12, 1, 9)]))
    else some (.lui rd (imm <<< 12))
  | 4 => rvC1Arith w
  | 5 => some (.jal 0 (signedImm 12 w [(3, 3, 1), (11, 1, 4), (2, 1, 5), (7, 1, 6), (6, 1, 7), (9, 2, 8), (8, 1, 10), (12, 1, 11)]))
  | 6 => some (.branch .eq (8 + bits w 7 3) 0 off)
  | _ => some (.branch .ne (8 + bits w 7 3) 0 off)

/-- A compressed instruction of quadrant 2. -/
def rvC2 (w : Nat) : Option Rv :=
  let rd := bits w 7 5
  let rs := bits w 2 5
  match bits w 13 3 with
  | 0 => some (.opImm .sll false rd rd (plainImm w [(2, 5, 0), (12, 1, 5)]))
  | 2 => if rd = 0 then none else some (.load 4 true rd 2 (plainImm w [(4, 3, 2), (12, 1, 5), (2, 2, 6)]))
  | 3 => if rd = 0 then none else some (.load 8 true rd 2 (plainImm w [(5, 2, 3), (12, 1, 5), (2, 3, 6)]))
  | 4 =>
    if bits w 12 1 = 0 then
      if rs ≠ 0 then some (.op .add false rd 0 rs) else if rd ≠ 0 then some (.jalr 0 rd 0) else none
    else if rs ≠ 0 then some (.op .add false rd rd rs)
    else if rd ≠ 0 then some (.jalr 1 rd 0)
    else some .ebreak
  | 6 => some (.store 4 2 rs (plainImm w [(9, 4, 2), (7, 2, 6)]))
  | 7 => some (.store 8 2 rs (plainImm w [(10, 3, 3), (7, 3, 6)]))
  | _ => none

/-- A 16-bit instruction. -/
def rvShort (w : Nat) : Option Rv :=
  match w % 4 with
  | 0 => rvC0 w
  | 1 => rvC1 w
  | _ => rvC2 w

/-! ### The sandbox -/

/-- Bytes of a sandbox: 96 KiB (R222). -/
def sandboxEnd : Nat := 0x18000

/-- A register; x0 reads 0. -/
def Program.reg (p : Program) (r : Nat) : W64 := if r = 0 then 0 else Tab.look 0 p.regs r
/-- Writes a register; x0 takes nothing. -/
def Program.setReg (p : Program) (r : Nat) (v : W64) : Program := if r = 0 then p else { p with regs := p.regs.put 0 r v }

/-- An access of `n` bytes that the sandbox admits: inside it and aligned (R223). -/
def sandboxOk (a : W64) (n : Nat) : Bool := decide (a.toNat + n ≤ sandboxEnd) && a.toNat % n == 0

/-- The aligned value of `n` bytes at an address. -/
def sandboxRead (m : Tab W64) (a : W64) (n : Nat) : Nat := fld (Tab.look 0 m (a.toNat / 8)) (8 * (a.toNat % 8)) (8 * n)

/-- Stores `n` aligned bytes. -/
def sandboxWrite (m : Tab W64) (a : W64) (n : Nat) (v : W64) : Tab W64 :=
  let lo := 8 * (a.toNat % 8)
  let ones : W64 := BitVec.ofNat 64 ((2 ^ (8 * n) - 1) <<< lo)
  m.adj 0 (a.toNat / 8) fun old => (old &&& ~~~ones) ||| ((v <<< lo) &&& ones)

/-- A value of `n` bytes as a register takes it. -/
def extend (signed : Bool) (n x : Nat) : W64 := if signed then BitVec.ofInt 64 (sgn (8 * n) x) else BitVec.ofNat 64 x

/-- The instruction at the pc, as fetch sees it (R387), and its length; `none` where the fetch leaves the sandbox, is
misaligned or reads an illegal instruction. -/
def Program.fetch (p : Program) : Option (Rv × Nat) :=
  if !sandboxOk p.pc 2 then none
  else
    let lo := sandboxRead p.code p.pc 2
    if lo % 4 ≠ 3 then (rvShort lo).map (·, 2)
    else if !sandboxOk (p.pc + 2) 2 then none
    else (rvFull (lo + sandboxRead p.code (p.pc + 2) 2 * 2 ^ 16)).map (·, 4)

/-! ### Effects -/

/-- A two-operand operation at a width; division by 0 and overflow give what the RISC-V manual says. -/
def rvAlu {n : Nat} (o : RvAlu) (a b : BitVec n) : BitVec n :=
  let high (x y : Int) : BitVec n := BitVec.ofInt n (x * y / 2 ^ n)
  match o with
  | .add => a + b
  | .sub => a - b
  | .sll => a <<< (b.toNat % n)
  | .slt => BitVec.ofNat n (b2n (decide (a.toInt < b.toInt)))
  | .sltu => BitVec.ofNat n (b2n (decide (a.toNat < b.toNat)))
  | .xor => a ^^^ b
  | .srl => a >>> (b.toNat % n)
  | .sra => a.sshiftRight (b.toNat % n)
  | .or => a ||| b
  | .and => a &&& b
  | .mul => a * b
  | .mulh => high a.toInt b.toInt
  | .mulhsu => high a.toInt b.toNat
  | .mulhu => high a.toNat b.toNat
  | .div => if b = 0 then BitVec.allOnes n else BitVec.ofInt n (Int.tdiv a.toInt b.toInt)
  | .divu => if b = 0 then BitVec.allOnes n else BitVec.ofNat n (a.toNat / b.toNat)
  | .rem => if b = 0 then a else BitVec.ofInt n (Int.tmod a.toInt b.toInt)
  | .remu => if b = 0 then a else BitVec.ofNat n (a.toNat % b.toNat)

/-- An operation of a register's 64 bits, or of its low 32, whose result is sign-extended. -/
def rvCompute (o : RvAlu) (word : Bool) (a b : W64) : W64 :=
  if word then (rvAlu o (a.truncate 32) (b.truncate 32) : BitVec 32).signExtend 64 else rvAlu o a b

/-- Whether a branch is taken. -/
def RvCond.holds (c : RvCond) (a b : W64) : Bool :=
  match c with
  | .eq => a == b
  | .ne => a != b
  | .lt => decide (a.toInt < b.toInt)
  | .ge => decide (b.toInt ≤ a.toInt)
  | .ltu => decide (a.toNat < b.toNat)
  | .geu => decide (b.toNat ≤ a.toNat)

/-- What an atomic operation stores, from the sign-extended memory value and the operand at the access's width. -/
def RvAmo.result (o : RvAmo) (a b : W64) : W64 :=
  match o with
  | .swap => b
  | .add => a + b
  | .xor => a ^^^ b
  | .and => a &&& b
  | .or => a ||| b
  | .min => if a.toInt ≤ b.toInt then a else b
  | .max => if a.toInt ≤ b.toInt then b else a
  | .minu => if a.toNat ≤ b.toNat then a else b
  | .maxu => if a.toNat ≤ b.toNat then b else a

/-- The program with `n` bytes stored. -/
def Program.put (p : Program) (a : W64) (n : Nat) (v : W64) : Program := { p with mem := sandboxWrite p.mem a n v }

/-- The instruction's effect, `len` its length: the program after it, or `none` where it does not go on by itself (it
traps, R223, or calls a service, R224). A counter read takes the value given. -/
def Program.apply (p : Program) (i : Rv) (len : Nat) (free : W64) : Option Program :=
  let next := p.pc + BitVec.ofNat 64 len
  let on (r : Program) : Option Program := some { r with pc := next }
  match i with
  | .lui rd imm => on (p.setReg rd imm)
  | .auipc rd imm => on (p.setReg rd (p.pc + imm))
  | .jal rd off => some { p.setReg rd next with pc := p.pc + off }
  | .jalr rd rs off => some { p.setReg rd next with pc := (p.reg rs + off) &&& ~~~1 }
  | .branch c rs1 rs2 off => some { p with pc := if c.holds (p.reg rs1) (p.reg rs2) then p.pc + off else next }
  | .load n signed rd rs off =>
    let a := p.reg rs + off
    if sandboxOk a n then on (p.setReg rd (extend signed n (sandboxRead p.mem a n))) else none
  | .store n rs1 rs2 off =>
    let a := p.reg rs1 + off
    if sandboxOk a n then on (p.put a n (p.reg rs2)) else none
  | .opImm o word rd rs imm => on (p.setReg rd (rvCompute o word (p.reg rs) imm))
  | .op o word rd rs1 rs2 => on (p.setReg rd (rvCompute o word (p.reg rs1) (p.reg rs2)))
  | .lr n rd rs =>
    let a := p.reg rs
    if sandboxOk a n then on { p.setReg rd (extend true n (sandboxRead p.mem a n)) with resv := some (a.toNat, n) } else none
  | .sc n rd rs1 rs2 =>
    let a := p.reg rs1
    if !sandboxOk a n then none
    else if p.resv = some (a.toNat, n) then on { (p.put a n (p.reg rs2)).setReg rd 0 with resv := none }
    else on { p.setReg rd 1 with resv := none }
  | .amo o n rd rs1 rs2 =>
    let a := p.reg rs1
    let old := extend true n (sandboxRead p.mem a n)
    if sandboxOk a n then
      on ((p.put a n (o.result old (extend true n (fld (p.reg rs2) 0 (8 * n))))).setReg rd old)
    else none
  | .fence => on p
  | .fenceI => on { p with code := p.mem }
  | .counter rd => on (p.setReg rd free)
  | .ecall | .ebreak => none

/-- The program stands at the exit address (R222): it has jumped there, or run up to it. -/
def Program.atExit (p : Program) : Bool := p.pc.toNat == sandboxEnd

/-- One instruction by itself; `none` where the program stands at an end, a service or a trap. -/
def Program.turn (p : Program) (free : W64) : Option Program :=
  match p.fetch with
  | some (i, len) => p.apply i len free
  | none => none

/-- The program stands at an ecall with service number `n` in a7 (R224). -/
def Program.calls (p : Program) (n : Nat) : Bool :=
  (match p.fetch with | some (i, _) => i == .ecall | none => false) && (p.reg 17).toNat == n

/-- The program stands where R223 ends it: an instruction that cannot go on and is no listed service. -/
def Program.traps (p : Program) : Bool :=
  !p.atExit
    && (match p.fetch with
      | some (i, len) => if i = .ecall then decide (4 < (p.reg 17).toNat) else (p.apply i len 0).isNone
      | none => true)

/-- The program past the ecall it stands at. -/
def Program.past (p : Program) : Program := { p with pc := p.pc + 4 }

end Sys2Proof.Machine
end

