-- ==== Sys2Proof/Config.lean ====
section
/-! DEFINITION. What an implementation fixes and the values the spec leaves open. Each free value is an opaque
constant: nothing can be proved of it but what holds for every value. -/
namespace Sys2Proof.Config

/-- The `n`-th free word drawn: a 64-bit value the spec does not fix (log 3). DESIGN CHOICE. -/
opaque freeWord : Nat → W64

/-- The `n`-th free bit drawn: a choice of one of two outcomes the spec allows (log 3). DESIGN CHOICE. -/
opaque freeBit : Nat → Bool

/-- What a word of the rewritable store reads as after an erase, or when nothing has been programmed: R62 to
R65 state no value (log 10). DESIGN CHOICE. -/
opaque erasedWord : W64

/-- A fuse word of the part: factory data the spec does not give (log 10). DESIGN CHOICE. -/
opaque fuseWord : Nat → W64

end Sys2Proof.Config
end

