-- ==== Sys2Proof/Machine/Ops.lean ====
section
/-! DEFINITION. The named operations over the state that every meaning uses: reading and writing tables, time, free
values, harvest counters, trace capture, address translation, issuing master transfers, doorbell notification, and
fault reports (the block's own exception path: R397 to R407). -/
namespace Sys2Proof.Machine

/-! ### RC and W1C fields (R16 to R18) -/

/-- An event adds `n` to an RC field at `now`; `f` joins an earlier value and a later contribution. -/
def Rc.add (f : Nat → Nat → Nat) (c : Rc) (n now : Nat) : Rc :=
  if c.at' = now then { c with new := f c.new n } else ⟨f c.old c.new, f 0 n, now⟩
/-- What a read at `now` returns: the value before the events of its sc (R18). -/
def Rc.seen (f : Nat → Nat → Nat) (c : Rc) (now : Nat) : Nat := if c.at' = now then c.old else f c.old c.new
/-- The field after a read at `now`: the contribution of the events of its sc stays (R18). -/
def Rc.read (c : Rc) (now : Nat) : Rc := if c.at' = now then { c with old := 0 } else Rc.zero

/-- A W1C bit after a write of 1 at `now`: it stays set when an event sets it in the same sc (R17). -/
def wiped (x : Option Nat) (now : Nat) : Option Nat := if x = some now then x else none

/-- An event sets bits at `now`. -/
def Bell.ring (b : Bell) (m : BitVec 32) (now : Nat) : Bell :=
  ⟨b.bits ||| m, (if b.at' = now then b.rung else 0) ||| m, now⟩
/-- A write of 1 to bits at `now` (R17). -/
def Bell.wipe (b : Bell) (m : BitVec 32) (now : Nat) : Bell :=
  { b with bits := b.bits &&& ~~~(m &&& ~~~(if b.at' = now then b.rung else 0)) }

/-! ### Tables of the state -/

/-- Engine `e`. -/
def State.engine (s : State) (e : Nat) : Engine := s.eng.look Engine.reset e
/-- Writes engine `e`. -/
def State.setEngine (s : State) (e : Nat) (v : Engine) : State := { s with eng := s.eng.put Engine.reset e v }
/-- Changes engine `e`. -/
def State.modEngine (s : State) (e : Nat) (f : Engine → Engine) : State := s.setEngine e (f (s.engine e))

/-- Queue `q`. -/
def State.queue (s : State) (q : Nat) : Queue := s.hcf.queues.look Queue.reset q
/-- Writes queue `q`. -/
def State.setQueue (s : State) (q : Nat) (v : Queue) : State :=
  { s with hcf := { s.hcf with queues := s.hcf.queues.put Queue.reset q v } }
/-- Changes queue `q`. -/
def State.modQueue (s : State) (q : Nat) (f : Queue → Queue) : State := s.setQueue q (f (s.queue q))

/-- The allocated graph of handle `h`; a FREE handle has none. -/
def State.graph? (s : State) (h : Nat) : Option Graph := s.gs.graphs.look? h
/-- Writes the graph of handle `h`. -/
def State.setGraph (s : State) (h : Nat) (v : Graph) : State :=
  { s with gs := { s.gs with graphs := s.gs.graphs.ins h v } }
/-- Changes the graph of handle `h`, if it is allocated. -/
def State.modGraph (s : State) (h : Nat) (f : Graph → Graph) : State :=
  match s.graph? h with
  | some g => s.setGraph h (f g)
  | none => s

/-- The key of sowing `id` of function `fn`. -/
def sowKey (fn : Nat) (id : BitVec 32) : Nat := fn * 2 ^ 32 + id.toNat
/-- The sowing of key `k` whose end action is not complete. -/
def State.sowing? (s : State) (k : Nat) : Option Sowing := s.sow.live.look? k
/-- Writes the sowing of key `k`. -/
def State.setSowing (s : State) (k : Nat) (v : Sowing) : State :=
  { s with sow := { s.sow with live := s.sow.live.ins k v } }
/-- Changes the sowing of key `k`, if there is one. -/
def State.modSowing (s : State) (k : Nat) (f : Sowing → Sowing) : State :=
  match s.sowing? k with
  | some w => s.setSowing k (f w)
  | none => s

/-- Plot `p`'s run-time state. -/
def State.plot (s : State) (p : Nat) : Plot := s.pru.plots.look Plot.reset p
/-- Writes plot `p`. -/
def State.setPlot (s : State) (p : Nat) (v : Plot) : State :=
  { s with pru := { s.pru with plots := s.pru.plots.put Plot.reset p v } }
/-- Changes plot `p`. -/
def State.modPlot (s : State) (p : Nat) (f : Plot → Plot) : State := s.setPlot p (f (s.plot p))

/-- Segment `g` of function `fn`. -/
def State.segment (s : State) (fn g : Nat) : Seg := s.pru.segs.look Seg.reset (fn * 16 + g)
/-- Changes segment `g` of function `fn`. -/
def State.modSegment (s : State) (fn g : Nat) (f : Seg → Seg) : State :=
  { s with pru := { s.pru with segs := s.pru.segs.adj Seg.reset (fn * 16 + g) f } }

/-- Mailbox channel `c`. -/
def State.channel (s : State) (c : Nat) : Channel := s.mdu.chans.look Channel.reset c
/-- Changes mailbox channel `c`. -/
def State.modChannel (s : State) (c : Nat) (f : Channel → Channel) : State :=
  { s with mdu := { s.mdu with chans := s.mdu.chans.adj Channel.reset c f } }

/-- Fault queue of function `n`. -/
def State.faultQ (s : State) (n : Nat) : FaultQ := s.ftt.queues.look FaultQ.reset n
/-- Changes the fault queue of function `n`. -/
def State.modFaultQ (s : State) (n : Nat) (f : FaultQ → FaultQ) : State :=
  { s with ftt := { s.ftt with queues := s.ftt.queues.adj FaultQ.reset n f } }

/-- Plot `p`'s entry in the active field map. -/
def State.plotCfg (s : State) (p : Nat) : PlotCfg := s.fm.active.plots.look PlotCfg.reset p
/-- Engine `e`'s entry in the active field map. -/
def State.engCfg (s : State) (e : Nat) : EngCfg := s.fm.active.engines.look EngCfg.reset e
/-- Cluster `c`'s entry in the active field map. -/
def State.clusterCfg (s : State) (c : Nat) : ClusterCfg := s.fm.active.clusters.look ClusterCfg.reset c
/-- WEIGHT of group `g` of class `c` (0 LC, 1 BE) of plot `p` (R140, R389). -/
def State.weight (s : State) (p c g : Nat) : Nat := s.fm.active.weights.look 1 (p * 32 + c * 16 + g)

/-- State of cluster `c`'s power domain; awake at reset (log 8). -/
def State.domain (s : State) (c : Nat) : Domain := s.dcs.domains.look .awake c
/-- Writes cluster `c`'s power domain. -/
def State.setDomain (s : State) (c : Nat) (d : Domain) : State :=
  { s with dcs := { s.dcs with domains := s.dcs.domains.put .awake c d } }

/-! ### Engines by ID (R7, R9) -/

/-- Kind of a populated physical engine: 0 compute, 1 copy, 2 collective; none for an unpopulated ID (R7). -/
def engineKind? (e : Nat) : Option Nat :=
  let c := e / 16
  let pos := e % 16
  if pos ≤ 8 then some 0
  else if pos ≤ 10 then some 1
  else if pos = 11 then (if 24 ≤ c then some 1 else none)
  else if pos = 12 then (if c ≤ 17 then some 2 else none)
  else none

/-- Every physical engine ID. -/
def engineIds : List Nat := List.range 512

/-- Engine `e` is active under the active field map (R1). -/
def State.active (s : State) (e : Nat) : Bool := (s.engCfg e).active

/-- The active physical engine that logical number `l` names (R9). -/
def State.physical? (s : State) (l : Nat) : Option Nat :=
  engineIds.find? fun e => s.active e && (s.engCfg e).logical == l

/-- Cluster `c` is answered by the loopback responder (R455). -/
def State.looped (s : State) (c : Nat) : Bool := bit s.su.loop c

/-- The plot engine `e` belongs to now (R340). -/
def State.plotOf (s : State) (e : Nat) : Nat :=
  if (s.engine e).lent then (s.engCfg e).lend else (s.engCfg e).home

/-- Engine `e` is active, of kind `k`, and belongs to plot `p`. -/
def State.belongs (s : State) (e p k : Nat) : Bool :=
  s.active e && engineKind? e == some k && s.plotOf e == p

/-! ### Time and free values -/

/-- Delay ticks since reset alignment (R145). -/
def State.delayTicks (s : State) : Nat := (s.now - s.su.pulseAt.getD 0) / 256
/-- RLA_DLYNOW.NOW (R145). -/
def State.dlyNow (s : State) : BitVec 40 := BitVec.ofNat 40 s.delayTicks
/-- sc per µs. -/
def scPerUs : Nat := 2000
/-- `now` lies at least `d` sc after `t`. -/
def State.since (s : State) (t d : Nat) : Bool := t + d ≤ s.now

/-- Draws one free word (log 3). -/
def State.drawWord (s : State) : W64 × State := (Config.freeWord s.free, { s with free := s.free + 1 })
/-- Draws one free bit (log 3). -/
def State.drawBit (s : State) : Bool × State := (Config.freeBit s.free, { s with free := s.free + 1 })

/-! ### Harvest counters (R437 to R439) -/

/-- Adds `n` to the counter at aperture word `i`, modulo 2^64. -/
def State.bump (s : State) (i n : Nat) : State :=
  { s with hv := { s.hv with live := s.hv.live.adj 0 i fun v => v + BitVec.ofNat 64 n } }
/-- Engine counter `k` of engine `e` (R438). -/
def State.bumpEng (s : State) (e k n : Nat) : State := s.bump (e * 16 + k) n
/-- Plot counter `k` of plot `p` (R439). -/
def State.bumpPlot (s : State) (p k n : Nat) : State := s.bump (8192 + p * 16 + k) n
/-- Function counter `k` of function `n` (R439). -/
def State.bumpFn (s : State) (n k m : Nat) : State := s.bump (9216 + n * 2 + k) m
/-- Chip counter `j` (R439). -/
def State.bumpChip (s : State) (j n : Nat) : State := s.bump (9728 + j) n

/-! ### Trace (R429 to R433) -/

/-- The 256 bits of an event (R429). -/
def Event.encode (ev : Event) (time : Nat) (seq : BitVec 16) : BitVec 256 :=
  let w0 := pack [(0, 8, ev.type), (8, 8, ev.fn.getD 0), (16, 6, ev.plot.getD 0), (22, 9, ev.eng.getD 0),
    (31, 1, b2n ev.eng.isSome), (32, 32, (ev.sow.getD 0).toNat)]
  let w1 := pack [(0, 26, ev.node.getD 0), (26, 1, b2n ev.node.isSome), (27, 1, b2n ev.sow.isSome),
    (28, 1, b2n ev.fn.isSome), (29, 1, b2n ev.plot.isSome), (32, 16, ev.a16)]
  let w2 := pack [(0, 48, time), (48, 16, seq.toNat)]
  BitVec.ofNat 256 (wordsNat [w0, w1, w2, ev.arg])

/-- The event is enabled in TR_CTRL and the masks in force (R431, R432). -/
def State.traced (s : State) (ev : Event) : Bool :=
  s.tr.enable && s.tr.types.getLsbD ev.type
    && (match ev.fn with | none => true | some n => s.tr.fnmaskOn.getLsbD n)
    && (match ev.plot with | none => true | some p => s.tr.plotmaskOn.getLsbD p)

/-- Event `x` is taken before `y` of the same sc: ascending TYPE, then ENGINE, then NODE (R431). -/
def Event.before (x y : Event) : Bool :=
  decide (x.type < y.type) || (x.type == y.type && (decide (x.eng.getD 0 < y.eng.getD 0)
    || (x.eng.getD 0 == y.eng.getD 0 && decide (x.node.getD 0 < y.node.getD 0))))

/-- An event takes its place among those of its sc (R431). -/
def insertEvent (x : Event) : List Event → List Event
  | [] => [x]
  | y :: r => if x.before y then x :: y :: r else y :: insertEvent x r

/-- Captures an event that is enabled (R431); it is written when its sc ends. -/
def State.capture (s : State) (ev : Event) : State :=
  if s.traced ev then { s with inSc := { s.inSc with events := insertEvent ev s.inSc.events } } else s

/-- Writes one event of the sc `now`, the next of its sc after `n`: it takes the next SEQ; one after the fourth is dropped, and
so is one that finds the buffer full in STREAM mode (R431, R433). -/
def Trace.write (t : Trace) (ev : Event) (now time n : Nat) : Trace :=
  let streaming := t.stream && !t.failed
  let t1 := { t with seq := t.seq + 1, lastAt := now }
  if decide (4 ≤ n) || (streaming && decide (8192 ≤ t.fill)) then { t1 with dropped := t.dropped.add (satAdd 32) 1 now }
  else { t1 with
    buf := t.buf.put 0 (t.bwptr.toNat % 8192) (ev.encode time t.seq)
    bwptr := t.bwptr + 1
    fill := if streaming then t.fill + 1 else t.fill }

/-- The events of an sc are written, in their order (R431). -/
def State.writeEvents (s : State) : State :=
  let time := s.now - s.su.pulseAt.getD 0
  { s with
    tr := (s.inSc.events.foldl (fun (a : Trace × Nat) ev => (a.1.write ev s.now time a.2, a.2 + 1)) (s.tr, 0)).1
    inSc := { s.inSc with events := [] } }

/-! ### Address translation (R362, R371) -/

/-- Outcome of a translation: a physical address, or SEG_FAULT, or SEG_STALE. -/
inductive Trans where
  | ok (phys : Nat) | fault | stale
  deriving DecidableEq, Repr

/-- A segment address (R75): segment in [63:60], offset in [47:0]. -/
def segOf (a : W64) : Nat := fld a 60 4
/-- Offset of a segment address. -/
def offOf (a : W64) : Nat := fld a 0 48

/-- The segment lets a transfer of `b` bytes at offset `o` through (R362); `native` refuses a legacy window (R371). -/
def Seg.permits (g : Seg) (o b : Nat) (need : Need) (plot : Option Nat) (native : Bool) : Bool :=
  g.valid && !g.wdraw && decide (o + b ≤ (g.limit.toNat + 1) * 4096)
    && (match need with | .read => g.rd | .write => g.wr | .fetch => g.ex)
    && (g.anyplot || (match plot with | none => true | some p => g.plot.toNat == p))
    && !(native && g.leg)

/-- Translates segment address `a` of function `fn` for `b` bytes (R362). `plot` none skips the plot test. -/
def State.translate (s : State) (fn : Nat) (a : W64) (b : Nat) (need : Need) (plot : Option Nat)
    (native : Bool) : Trans :=
  let g := s.segment fn (segOf a)
  if fld a 48 12 = 0 ∧ g.permits (offOf a) b need plot native = true then .ok (g.base.toNat * 4096 + offOf a)
  else if g.stale || g.wdraw then .stale else .fault

/-! ### Master transfers (R38 to R41, R51, R343, R344) -/

/-- The transfer runs on behalf of a function (R40, R51). -/
def Purpose.attributed : Purpose → Bool
  | .wake _ | .notice _ | .trace .. | .mapImage _ | .firmware _ => false
  | .mbxNotify c => decide (2 ≤ c)
  | _ => true

/-- An ordinary transfer, not yet issued. -/
def Xfer.make (purpose : Purpose) (fn qos : Nat) (write : Bool) (addr bytes : Nat) (data : Words)
    (use : Option SegUse) (plot : Option Nat) : Xfer :=
  ⟨0, purpose, fn, qos, write, addr, bytes, data, use, plot, 0, none, false, 0, []⟩

/-- The segment a transfer runs under. -/
def Xfer.seg (x : Xfer) : Option Nat := x.use.map fun u => segOf u.addr

/-- Bytes of the transaction under way: 4 beats of 64 bytes at most, ending where a beat does (R38; log 25). -/
def Xfer.part (x : Xfer) : Nat := min (x.bytes - x.pos) ((256 - (x.addr + x.pos) % 64) / 8 * 8)

/-- The transaction under way is the transfer's last. -/
def Xfer.last (x : Xfer) : Bool := decide (x.bytes ≤ x.pos + x.part)

/-- Which of the kinds of R343 a charged transfer is of: fan-in copy, pages, work list, commit, layer digest. -/
def Purpose.kind : Purpose → Nat
  | .fanin _ => 1
  | .page .. | .spill .. | .counter .. => 2
  | .workList _ => 3
  | .commitRead _ | .commitWrite _ => 4
  | .layerRead .. | .layerWrite .. => 5
  | _ => 0

/-- Transfers that go one after the other: a queue's result records (R204). -/
def Purpose.inOrder : Purpose → Bool
  | .result _ => true
  | _ => false

/-- Depth of plot `p`'s buckets in bytes (R338). -/
def State.bucketCap (s : State) (p : Nat) : Int := ((s.plotCfg p).burst * 65536 : Nat)

/-- The transfer's charge leaves its bucket at or above the bucket's negative depth (R344). Save-area transfers draw from no
bucket of the HGS's own (R343). -/
def State.fitsBucket (s : State) (x : Xfer) : Bool :=
  match x.plot with
  | none => true
  | some p => decide (-(s.bucketCap p) ≤ (s.plot p).tokens - (x.part : Int))

/-- The transfer may be issued now: the crossings are aligned, an ID is free, its function may master, and its charge fits
(R23, R38, R51, R344). Result records of one queue go one after the other, so that they become visible in command order
(R204). -/
def State.mayIssue (s : State) (x : Xfer) : Bool :=
  s.su.alignDone && decide (s.mesh.out.length < 512)
    && (!x.purpose.attributed || s.pins.bme.getLsbD x.fn)
    && s.fitsBucket x && !(x.purpose.inOrder && s.mesh.out.any fun y => y.purpose == x.purpose)

/-- The lowest transaction ID not in use. An ID that a timeout retired is free at once, so that a response that comes late
for it may be taken for the answer of the transaction that has the ID then: R40 does not say when the ID may be used
again. DESIGN CHOICE (log 111). -/
def State.freeXferId (s : State) : Nat :=
  ((List.range 512).find? fun i => s.mesh.out.all fun x => x.id != i).getD 0

/-- Puts a transfer on the mesh, charging its bucket (R343) and counting the bytes (R439). -/
def State.launchXfer (s : State) (x : Xfer) : State :=
  let s1 := { s with mesh := { s.mesh with out := s.mesh.out ++ [{ x with id := s.freeXferId, at' := s.now }] } }
  match x.plot with
  | none => s1
  | some p => (s1.modPlot p fun r => { r with tokens := r.tokens - (x.part : Int) }).bumpPlot p 9 x.part

/-- `x` waits for its bucket, and `y` is behind it in that wait: of the same kind and plot (R344); or both are result records
of one queue (R204). -/
def State.blocks (s : State) (x y : Xfer) : Bool :=
  (x.plot.isSome && x.plot == y.plot && x.purpose.kind == y.purpose.kind && !s.fitsBucket x)
    || (y.purpose.inOrder && x.purpose == y.purpose)

/-- Issues a transfer, or has it wait behind those that wait for the same bucket (R38, R51, R344). -/
def State.issue (s : State) (x : Xfer) : State :=
  if s.mayIssue x && !(s.mesh.waiting.any fun y => s.blocks y x) then s.launchXfer x
  else { s with mesh := { s.mesh with waiting := s.mesh.waiting ++ [x] } }

/-! ### Doorbells and notifications (R377 to R379) -/

/-- Unmasked bits of the host side's MBX_DBOUT (R378). -/
def Channel.due (c : Channel) : Bool := (c.hostOut.bits &&& ~~~c.hostMask) ≠ 0

/-- Issues channel `c`'s notify write: 4 B at QoS 3, under function c - 2's segments for c at least 2 (R378, R379). -/
def State.notifyWrite (s : State) (c : Nat) : State :=
  let ch := s.channel c
  let data := [pack [(0, 32, fld ch.notval 0 32)]]
  let go (addr : Nat) (fn : Nat) (use : Option SegUse) : State :=
    (s.modChannel c fun r => { r with underway := true }).issue
      (Xfer.make (.mbxNotify c) fn 3 true addr 4 data use none)
  if c < 2 then go (ch.notaddr.toNat % 2 ^ 56) 0 none
  else match s.translate (c - 2) ch.notaddr 4 .write none false with
    | .ok a => go a (c - 2) (some ⟨ch.notaddr, .write, none, false⟩)
    | _ => s

/-- After any change of channel `c`'s host side: gives a notification that is due (R379). `rose` when an unmasked bit of
MBX_DBOUT rose just now: while a write is under way it gives one further notification. -/
def State.notify (s : State) (c : Nat) (rose : Bool) : State :=
  let ch := s.channel c
  if !ch.due then s.modChannel c fun r => { r with given := false }
  else if !bit ch.notval 32 then s
  else if ch.underway then (if rose then s.modChannel c fun r => { r with again := true } else s)
  else if ch.given then s
  else (s.modChannel c fun r => { r with given := true }).notifyWrite c

/-- Rings `bits` toward the host side of channel `c` (R377): a bit already set changes nothing. -/
def State.ringHost (s : State) (c : Nat) (bits : BitVec 32) : State :=
  let x := s.channel c
  (s.modChannel c fun r => { r with hostOut := r.hostOut.ring bits s.now }).notify c
    (bits &&& ~~~x.hostOut.bits &&& ~~~x.hostMask ≠ 0)

/-! ### Fault reports (R397 to R407) -/

/-- A report: code, function charged, and what is known (R397). -/
structure Report where
  code   : Nat
  fn     : Option Nat := none
  plot   : Option Nat := none
  sow    : Option (BitVec 32) := none
  aux    : Nat := 0
  queue  : Option Nat := none
  eng    : Option Nat := none
  node   : Option Nat := none
  index  : Nat := 0
  detail : Nat := 0
  arg    : W64 := 0

/-- The 256 bits of a fault record (R397). -/
def Report.encode (r : Report) (time : BitVec 40) (inc : BitVec 8) : BitVec 256 :=
  let w0 := pack [(0, 16, r.code), (16, 8, r.fn.getD 0), (24, 6, r.plot.getD 0), (30, 1, b2n r.plot.isSome),
    (31, 1, b2n r.sow.isSome), (32, 32, match r.sow with | some i => i.toNat | none => r.aux)]
  let w1 := pack [(0, 14, r.queue.getD 0), (14, 1, b2n r.queue.isSome), (15, 1, b2n r.eng.isSome),
    (16, 9, r.eng.getD 0), (25, 1, b2n r.node.isSome), (26, 1, b2n r.fn.isSome),
    (32, 26, match r.node with | some i => i | none => r.index)]
  let w2 := pack [(0, 40, time.toNat), (40, 8, inc.toNat), (48, 16, r.detail)]
  BitVec.ofNat 256 (wordsNat [w0, w1, w2, r.arg])

/-- Counts a report of a code, at a time and with a sowing, in a glean slot (R403): `n` slots of their own, slot `n` taking
the surplus. -/
def gleanIn (n : Nat) (t : Tab Glean) (r : Nat × BitVec 40 × Option (BitVec 32)) : Tab Glean :=
  let code := BitVec.ofNat 16 r.1
  let slot := match (List.range n).find? fun i => match t.look? i with
      | some g => g.code == code | none => false with
    | some i => i
    | none => ((List.range n).find? fun i => (t.look? i).isNone).getD n
  let g := match t.look? slot with
    | some g => { g with count := satAdd 32 g.count 1, last := r.2.1, lsow := r.2.2 }
    | none => ⟨if slot = n then 0xFFFF else code, 1, r.2.1, r.2.1, r.2.2, r.2.2⟩
  t.ins slot g

/-- The slots the sc began with, less those taken in it since. -/
def FaultQ.gleanAt (q : FaultQ) (now : Nat) : Tab Glean := if q.countedAt = now then q.gleanWas else q.glean
/-- The reports counted in this sc. -/
def FaultQ.countedIn (q : FaultQ) (now : Nat) : List (Nat × BitVec 40 × Option (BitVec 32)) :=
  if q.countedAt = now then q.counted else []

/-- Counts a report (R403), and keeps it with those of this sc (R404). -/
def FaultQ.gleaned (q : FaultQ) (n : Nat) (r : Report) (time : BitVec 40) (now : Nat) : FaultQ :=
  { q with
    glean := gleanIn n q.glean (r.code, time, r.sow)
    gleanWas := q.gleanAt now, counted := q.countedIn now ++ [(r.code, time, r.sow)], countedAt := now }

/-- No record of the code has been queued in the preceding 1,024 sc (R402). -/
def FaultQ.quiet (q : FaultQ) (code now : Nat) : Bool :=
  match q.lastAt.look? code with
  | some t => decide (t + 1024 < now)
  | none => true

/-- Queues records of one code: after those queued before this sc, among those of this sc in ascending CODE (R401). -/
def FaultQ.enqueue (q : FaultQ) (code : Nat) (recs : List (BitVec 256)) (now : Nat) : FaultQ :=
  let k := if q.freshAt = now then q.fresh else 0
  let old := q.recs.take (q.recs.length - k)
  let new := q.recs.drop (q.recs.length - k)
  let low (r : BitVec 256) : Bool := decide (fld (r.truncate 64) 0 16 ≤ code)
  { q with
    recs := old ++ new.takeWhile low ++ recs ++ new.dropWhile low
    lastAt := q.lastAt.ins code now
    fresh := k + recs.length
    freshAt := now }

/-- Admits a report: a record when there is room and the code is quiet, else a count (R402). `cap` entries, `n` glean
slots; `force` queues it in any case (R402: FN_RESET). -/
def FaultQ.offer (q : FaultQ) (cap n : Nat) (r : Report) (recs : List (BitVec 256)) (time : BitVec 40)
    (now : Nat) (force : Bool) : FaultQ :=
  if force || (decide (q.recs.length + recs.length ≤ cap) && q.quiet r.code now) then
    q.enqueue r.code recs now
  else
    let full := decide (cap < q.recs.length + recs.length)
    let q1 := if full then { q with overflow := q.overflow.add (satAdd 24) 1 now }
      else { q with suppressed := q.suppressed.add (satAdd 24) 1 now }
    q1.gleaned n r time now

/-- The record of a report as it stands now, with the engine's incarnation copy. -/
def State.recordOf (s : State) (r : Report) : BitVec 256 :=
  r.encode s.dlyNow (match r.eng with | some e => (s.engine e).inc | none => 0)

/-- A report to the error log (R406): channel 1's doorbell bit 31 follows. -/
def State.errlog (s : State) (r : Report) : State :=
  let s1 := { s with ftt := { s.ftt with log := s.ftt.log.offer 1024 63 r [s.recordOf r] s.dlyNow s.now false } }
  (s1.bumpChip 12 1).ringHost 1 0x80000000

/-- The codes of a function's reports that are copied to the error log (R406). -/
def copied (code : Nat) : Bool :=
  (decide (0x400 ≤ code) && decide (code < 0x800)) || [0x104, 0x107, 0x108, 0x109, 0x10A].contains code

/-- A report charged to function `n` (R401 to R406): its fault queue, doorbell bit 31 of its channel (R405), the FAULT
trace event (R430), REPORTS and FAULTED (R439, R415), and the copy for the error log. -/
def State.report (s : State) (n : Nat) (r0 : Report) : State :=
  let r := { r0 with fn := some n }
  let s1 := s.modFaultQ n fun q => q.offer 64 31 r [s.recordOf r] s.dlyNow s.now (r.code == 0x30A)
  let s2 := { s1 with ftt := { s1.ftt with
    fnstat := s1.ftt.fnstat.adj ⟨none, 0⟩ n fun f => { f with faulted := some s.now } } }
  let s3 := (s2.bumpFn n 1 1).capture ⟨0x0C, some n, r.plot, r.eng, r.sow, r.node, r.code, r.arg⟩
  let s4 := s3.ringHost (2 + n) 0x80000000
  if copied r.code then s4.errlog r else s4

/-- The pair of MIRROR_MISMATCH records, one report that needs two free entries (R399, R402). -/
def State.reportPair (s : State) (n : Nat) (a b : Report) : State :=
  let r := { a with fn := some n }
  let s1 := s.modFaultQ n fun q =>
    q.offer 64 31 r [s.recordOf r, s.recordOf { b with fn := some n }] s.dlyNow s.now false
  let s2 := { s1 with ftt := { s1.ftt with
    fnstat := s1.ftt.fnstat.adj ⟨none, 0⟩ n fun f => { f with faulted := some s.now } } }
  ((s2.bumpFn n 1 1).capture ⟨0x0C, some n, r.plot, none, none, none, r.code, r.arg⟩).ringHost (2 + n) 0x80000000

/-- An event in the FIFO of core 0 (R388): when it is full, the oldest is overwritten. The spec gives no layout of an
event: its word is free (log 3). -/
def State.coreEvent (s : State) : State :=
  let (w, s1) := s.drawWord
  if 64 ≤ s1.ccx.events.length then
    { s1 with ccx := { s1.ccx with events := s1.ccx.events.tail ++ [w], overflow := s1.ccx.overflow + 1 } }
  else { s1 with ccx := { s1.ccx with events := s1.ccx.events ++ [w] } }

end Sys2Proof.Machine
end

