-- ==== Sys2Proof/Machine/Flags.lean ====
section
/-! DEFINITION. Statuses of the queue commands (R202), which of them halt a queue (R203), and the status of a transfer that
failed finally. The block has no flags of a processor's kind. -/
namespace Sys2Proof.Machine

/-- Statuses of R202 that the model names. -/
abbrev stBadCommand : Nat := 0x01
/-- SEG_FAULT. -/
abbrev stSegFault : Nat := 0x02
/-- SEG_STALE. -/
abbrev stSegStale : Nat := 0x03
/-- BAD_HANDLE. -/
abbrev stBadHandle : Nat := 0x04
/-- QUOTA. -/
abbrev stQuota : Nat := 0x05
/-- NO_SPACE. -/
abbrev stNoSpace : Nat := 0x06
/-- GRAPH_BUSY. -/
abbrev stGraphBusy : Nat := 0x07
/-- GRAPH_SEALED. -/
abbrev stGraphSealed : Nat := 0x08
/-- GRAPH_UNSEALED. -/
abbrev stGraphUnsealed : Nat := 0x09
/-- SEAL_FAIL. -/
abbrev stSealFail : Nat := 0x0A
/-- MESH_ABORT. -/
abbrev stMeshAbort : Nat := 0x12
/-- MESH_TIMEOUT. -/
abbrev stMeshTimeout : Nat := 0x13
/-- SEM_UNDECLARED. -/
abbrev stSemUndeclared : Nat := 0x16
/-- CYCLE_BROKEN. -/
abbrev stCycleBroken : Nat := 0x17
/-- TIMEOUT. -/
abbrev stTimeout : Nat := 0x18

/-- The status a failed final attempt gives (R39, R40): `late` for a timeout. -/
def meshStatus (late : Bool) : Nat := if late then stMeshTimeout else stMeshAbort

/-- Statuses that halt a queue whatever HALTERR says (R203). -/
def haltsQueue (status : Nat) : Bool := [0x01, 0x02, 0x03, 0x17, 0x18, 0x1B, 0x1C].contains status

end Sys2Proof.Machine
end

