-- ==== Sys2Proof/Machine/Operands.lean ====
section
/-! DEFINITION. The operand forms of the queue commands: packet fields (R198, R200, R281, R328, R348), the bits a packet
may set, its ranges and addresses, and their validation (R211). -/
namespace Sys2Proof.Machine

/-! ### Packets -/

/-- Field [lo+len-1:lo] of word `w` of a packet. -/
def pf (p : BitVec 512) (w lo len : Nat) : Nat := fld p (64 * w + lo) len
/-- Word `w` of a packet. -/
def pw (p : BitVec 512) (w : Nat) : W64 := BitVec.ofNat 64 (pf p w 0 64)
/-- OPCODE (R198). -/
def opcode (p : BitVec 512) : Nat := pf p 0 0 8
/-- NOWAIT. -/
def nowait (p : BitVec 512) : Bool := pf p 0 8 1 == 1
/-- RREC. -/
def rrec (p : BitVec 512) : Bool := pf p 0 9 1 == 1
/-- HALTERR. -/
def halterr (p : BitVec 512) : Bool := pf p 0 10 1 == 1
/-- HANDLE. -/
def handleOf (p : BitVec 512) : Nat := pf p 0 16 16

/-- The opcodes of R199, R281, R328 and R348. -/
def knownOpcode (op : Nat) : Bool :=
  [0x00, 0x01, 0x02, 0x03, 0x08, 0x09, 0x0A, 0x0B, 0x0C, 0x10, 0x11, 0x13, 0x18, 0x19, 0x20, 0x21, 0x22,
    0x30, 0x31, 0x32, 0x33, 0x34, 0x35, 0x36, 0x40, 0x41, 0x42, 0x43, 0x50, 0x51].contains op

/-- The opcodes whose packets name a graph in HANDLE (R198, R281). -/
def namesGraph (op : Nat) : Bool := [0x09, 0x0A, 0x0B, 0x0C, 0x10, 0x11, 0x13, 0x30].contains op

/-- Operand fields (word, low bit, width) of an opcode: R200, R281, R328, R348. -/
def operandFields (op : Nat) : List (Nat × Nat × Nat) :=
  match op with
  | 0x01 => [(0, 32, 21), (2, 0, 64)]
  | 0x03 => [(0, 32, 2), (2, 0, 32)]
  | 0x08 => [(2, 0, 54), (3, 0, 33), (4, 0, 64), (5, 0, 64)]
  | 0x09 => [(0, 32, 2), (2, 0, 64), (3, 0, 23), (3, 32, 24)]
  | 0x10 => [(0, 32, 5), (2, 0, 64), (3, 0, 64), (4, 0, 64), (5, 0, 64), (6, 0, 22), (6, 32, 32)]
  | 0x11 => [(0, 32, 3), (2, 0, 19), (2, 20, 20), (3, 0, 64), (4, 0, 64), (5, 0, 64), (6, 0, 64), (7, 0, 64)]
  | 0x18 => [(2, 0, 22), (2, 32, 32), (3, 0, 32)]
  | 0x19 => [(0, 32, 1), (2, 0, 64), (3, 0, 64)]
  | 0x20 => [(0, 32, 4)]
  | 0x22 => [(0, 32, 14), (2, 0, 64), (3, 0, 17), (3, 32, 16), (4, 0, 64), (5, 0, 64), (6, 0, 64), (7, 0, 64)]
  | 0x30 => [(2, 0, 64), (3, 0, 58), (4, 0, 26), (4, 32, 16), (5, 0, 32)]
  | 0x31 => [(0, 32, 10)]
  | 0x32 => [(0, 32, 13), (2, 0, 46), (3, 0, 23), (4, 0, 64), (5, 0, 64)]
  | 0x33 => [(0, 32, 10)]
  | 0x34 => [(0, 32, 16)]
  | 0x35 => [(0, 32, 17)]
  | 0x36 => [(0, 32, 16), (2, 0, 64)]
  | 0x40 => [(0, 32, 8), (3, 0, 20)]
  | 0x41 => [(0, 32, 6)]
  | 0x42 => [(0, 32, 6), (2, 0, 32)]
  | 0x43 => [(0, 32, 8), (2, 0, 32), (3, 0, 20)]
  | 0x50 => [(0, 32, 4), (0, 36, 9), (2, 0, 28)]
  | 0x51 => [(2, 0, 48), (3, 0, 28)]
  | _ => []

/-- The bits a packet may set: header, HANDLE and RADDR where used, operands (R211, step 2). -/
def allowedMask (p : BitVec 512) : Nat :=
  let op := opcode p
  let hd := [(0, 0, 11)] ++ (if namesGraph op then [(0, 16, 16)] else [])
    ++ (if rrec p then [(1, 0, 64)] else [])
  (hd ++ operandFields op).foldl (fun m f => m ||| ((2 ^ f.2.2 - 1) <<< (64 * f.1 + f.2.1))) 0

/-- Fields that are 0 in the case at hand (R211, step 2; R200, R348). -/
def casesZero (p : BitVec 512) : Bool :=
  match opcode p with
  | 0x08 => if pf p 2 27 1 = 0 then pf p 3 24 9 == 0 && pf p 4 0 64 == 0 && pf p 5 0 64 == 0 else pf p 3 0 24 == 0
  | 0x11 => if pf p 0 34 1 = 0 then pf p 3 0 64 == 0
            else pf p 4 0 64 == 0 && pf p 5 0 64 == 0 && pf p 6 0 64 == 0 && pf p 7 0 64 == 0
  | 0x40 => pf p 0 38 2 == 3 || pf p 3 0 20 == 0
  | 0x43 => pf p 0 38 2 == 3 || pf p 3 0 20 == 0
  | _ => true

/-- x lies in lo to hi. -/
def within (x lo hi : Nat) : Bool := decide (lo ≤ x) && decide (x ≤ hi)

/-- Bytes of one record of GRAPH_LOAD's TARGET (R74). -/
def recordBytes (target : Nat) : Nat := if target = 0 then 64 else if target = 1 then 4 else 32

/-- Every field lies in its range and meets its alignment (R211, step 3). -/
def State.rangesOk (s : State) (p : BitVec 512) : Bool :=
  let semOk (op : Nat) (v : Nat) (action : Bool) : Bool :=
    decide (op ≤ 8) && !(action && (decide (6 ≤ op) || op == 4))
      && !((op == 5 || op == 8) && decide (sgn 32 v < 1))
  (!rrec p || pf p 1 0 4 == 0) &&
  (match opcode p with
  | 0x01 => within (pf p 0 32 21) 1 1048576 && pf p 2 0 6 == 0
  | 0x03 => decide (pf p 0 32 2 ≤ 1)
  | 0x08 => if pf p 2 27 1 = 0 then within (pf p 2 0 27) 1 1048576 && decide (pf p 3 0 24 ≤ 8388608)
              && decide (pf p 2 28 13 ≤ 4096) && decide (pf p 2 41 13 ≤ 4096)
            else within (pf p 2 0 27) 1 67108864 && within (pf p 3 24 9) 4 256
              && decide (pf p 2 28 13 ≤ 4096) && decide (pf p 2 41 13 ≤ 4096) && pf p 4 0 12 == 0
  | 0x09 => within (pf p 3 32 24) 1 8388608 && decide (pf p 2 0 64 % recordBytes (pf p 0 32 2) = 0)
  | 0x10 => pf p 2 0 5 == 0 && pf p 3 0 6 == 0 && (if pf p 0 34 1 = 1 then pf p 4 0 2 == 0 else pf p 4 0 3 == 0)
              && (pf p 0 32 1 == 0 || semOk (pf p 6 18 4) (pf p 6 32 32) true)
  | 0x11 => decide (pf p 0 32 2 ≤ 2) && pf p 3 0 5 == 0
              && (if pf p 0 34 1 = 0 then pf p 2 20 20 == 1 else within (pf p 2 20 20) 1 524288)
  | 0x18 => semOk (pf p 2 18 4) (pf p 2 32 32) false
  | 0x19 => if pf p 0 32 1 = 1 then pf p 2 0 2 == 0 else pf p 2 0 3 == 0
  | 0x22 => within (pf p 0 32 14) 1 10000 && pf p 2 0 3 == 0 && within (pf p 3 0 17) 8 65536
              && pf p 3 0 3 == 0 && pf p 3 32 1 == 0 && decide (pf p 3 32 16 < pf p 3 0 17)
  | 0x30 => pf p 2 0 6 == 0 && within (pf p 3 0 17) 1 65536 && [1, 2, 4, 8].contains (pf p 3 17 4)
              && within (pf p 3 21 13) 1 4096 && decide (pf p 3 21 13 ≤ pf p 3 34 24)
              && (pf p 4 6 1 == 0 || decide (64 ≤ pf p 4 32 16))
  | 0x40 => pf p 0 38 2 != 0 && (pf p 0 38 2 != 3 || within (pf p 3 0 20) 1 1000000)
  | 0x43 => pf p 0 38 2 != 0 && (pf p 0 38 2 != 3 || within (pf p 3 0 20) 1 1000000)
  | 0x50 => within (pf p 0 36 9) 1 256
              && decide (pf p 2 0 28 < 20 * (s.fm.active.chip.tickPeriod - s.fm.active.chip.headland))
  | 0x51 => decide (pf p 3 0 28 < 20 * s.fm.active.chip.tickPeriod)
  | _ => true)

/-- An address the HCF will dereference, with its extent (R211, step 4). -/
structure Deref where
  addr   : W64
  bytes  : Nat
  need   : Need
  native : Bool

/-- The addresses of a packet (R211, step 4; R371 for legacy windows; R282 for WLBASE). -/
def State.derefs (s : State) (p : BitVec 512) : List Deref :=
  let r := if rrec p then [⟨pw p 1, 16, .write, false⟩] else []
  r ++ (match opcode p with
  | 0x01 => [⟨pw p 2, pf p 0 32 21 * 64, .read, true⟩]
  | 0x08 => if pf p 2 27 1 = 1 then
      let n := pf p 2 0 27
      [⟨pw p 4, 64, .read, false⟩, ⟨pw p 5, cdiv (10 * n + 8 * cdiv n 4096) 4096 * 4096, .write, false⟩]
    else []
  | 0x09 => [⟨pw p 2, pf p 3 32 24 * recordBytes (pf p 0 32 2), .read, false⟩]
  | 0x10 =>
    let l := match s.graph? (handleOf p) with | some g => g.l | none => 0
    (if pf p 0 35 1 = 1 then [⟨pw p 2, 32, .write, true⟩] else [])
      ++ (if pf p 0 36 1 = 1 then [⟨pw p 3, l * 8, .write, true⟩] else [])
      ++ (if pf p 0 33 1 = 1 then [⟨pw p 4, if pf p 0 34 1 = 1 then 4 else 8, .write, false⟩] else [])
  | 0x11 => if pf p 0 34 1 = 1 then [⟨pw p 3, pf p 2 20 20 * 32, .read, false⟩] else []
  | 0x19 => [⟨pw p 2, if pf p 0 32 1 = 1 then 4 else 8, .write, false⟩]
  | 0x22 => [⟨pw p 2, pf p 3 0 17, .read, false⟩]
  | 0x30 => [⟨pw p 2, pf p 3 17 4 * (64 + pf p 3 0 17 * 32), .write, true⟩]
  | _ => [])

/-- The function of a queue (00_scope, Identifiers). -/
def fnOfQueue (q : Nat) : Nat := q / 64

/-- First address that does not translate decides SEG_FAULT or SEG_STALE; 0 when all do (R211, step 4). -/
def State.derefStatus (s : State) (q : Nat) : List Deref → Nat
  | [] => 0
  | d :: r => match s.translate (fnOfQueue q) d.addr d.bytes d.need (some (s.queue q).plot) d.native with
    | .ok _ => s.derefStatus q r
    | .fault => stSegFault
    | .stale => stSegStale

/-- Validation of the head packet (R211): 0, or the status of the first failure. -/
def State.validate (s : State) (q : Nat) (p : BitVec 512) : Nat :=
  if !knownOpcode (opcode p) then stBadCommand
  else if p.toNat &&& allowedMask p ≠ p.toNat || !casesZero p then stBadCommand
  else if !s.rangesOk p then stBadCommand
  else if opcode p = 0x09 ∧ pf p 0 32 2 ≤ 1 ∧
      (match s.graph? (handleOf p) with | some g => g.fallow && g.owner == fnOfQueue q | none => false) = true then
    stBadCommand
  else s.derefStatus q (s.derefs p)

end Sys2Proof.Machine
end

