-- ==== Sys2Proof/Machine/Queues.lean ====
section
/-! DEFINITION. The front end's shared operations: retirement and result records (R201 to R204), halting (R197, R203), and the frame every queue command runs in. -/
namespace Sys2Proof.Machine

/-! ### Steps the block takes at all -/

/-- The block takes steps of its own: not in the FATAL state (R413), nor after a stop of start-up (R446). -/
def State.alive (s : State) : Bool := !s.ftt.fatal && !s.su.failed

/-- A step of the block: it happens while the block is alive and its condition holds, and else does not happen (log
12). -/
def State.when (s : State) (c : Bool) (t : State) : Host.Outcome State Fault Refusal :=
  .next (if c && s.alive then t else s)

/-- An input of engine port `c`: ignored while the loopback responder answers the cluster (R456). -/
def State.fromPort (s : State) (c : Nat) (o : Host.Outcome State Fault Refusal) : Host.Outcome State Fault Refusal :=
  if s.looped c then .next s else o

/-! ### The queue's declarations (R237) -/

/-- Range register `w` declares semaphore `m`. -/
def declares (w : W64) (m : Nat) : Bool :=
  decide (fld w 0 18 ≤ m) && decide (m < fld w 0 18 + fld w 18 19)

/-- Queue `q` declares semaphore `m` (R237). -/
def State.declared (s : State) (q m : Nat) : Bool :=
  [0, 1, 2, 3].any fun k => declares ((s.queue q).decl.look 0 k) m

/-! ### Fault records of a queue -/

/-- The queue-halt record (R400). -/
def State.haltReport (s : State) (q code : Nat) (sow : Option (BitVec 32)) (detail : Nat) : Report :=
  let r := s.queue q
  let op := match r.win with | c :: _ => opcode c.pkt | [] => 0
  { code := 0x200 + code, sow := sow, queue := some q, detail := detail,
    arg := pack [(0, 32, r.rptr.toNat), (32, 20, r.bpos), (52, 1, b2n r.inbuf), (56, 8, op)] }

/-- A transfer-failure record (R400). -/
def transferReport (status detail : Nat) (q : Option Nat) (sow : Option (BitVec 32)) : Report :=
  { code := 0x200 + status, queue := q, sow := sow, detail := detail }

/-! ### Retirement and halting -/

/-- The result record of a packet (R201). -/
def resultWords (p : BitVec 512) (status q : Nat) (index : BitVec 32) (value : W64) : Words :=
  [pack [(0, 8, opcode p), (8, 8, status), (16, 14, q), (32, 32, index.toNat)], value]

/-- Writes the result record of packet `p` when RREC asks for one (R201, R204); the address is checked again
(R212). An address that does not translate gets no write (R41); the failure is a record of its own unless it is the
status the packet ends with (R211, R400; log 106). -/
def State.writeResult (s : State) (q : Nat) (p : BitVec 512) (status : Nat) (value : W64) : State :=
  if rrec p then
    match s.translate (fnOfQueue q) (pw p 1) 16 .write (some (s.queue q).plot) false with
    | .ok a => s.issue (Xfer.make (.result q) (fnOfQueue q) 3 true a 16
        (resultWords p status q (s.queue q).rptr value) (some ⟨pw p 1, .write, some (s.queue q).plot, false⟩) none)
    | .fault => if status = stSegFault then s else s.report (fnOfQueue q) (transferReport stSegFault 1 (some q) none)
    | .stale => if status = stSegStale then s else s.report (fnOfQueue q) (transferReport stSegStale 1 (some q) none)
  else s

/-- Every earlier result record of queue `q` has been acknowledged (R204). -/
def State.resultsAcked (s : State) (q : Nat) : Bool :=
  (s.mesh.out ++ s.mesh.waiting).all fun x => x.purpose != .result q

/-- What the timer has run since its last restart (R219). -/
def Queue.elapsed (r : Queue) (now : Nat) : Nat :=
  r.spent + match r.timer with | some t => now - t | none => 0

/-- The queue is HALTED with `code`, its prefetch window discarded (R197, R203), its timer stopped (R219); `off` when it then goes
to DISABLED. -/
def Queue.halted (r : Queue) (code : Nat) (off : Bool) (now : Nat) : Queue :=
  { r with st := if off then .disabled else .halted, code := if off then 0 else BitVec.ofNat 8 code, wait := 0,
           win := [], drop := r.fetching, head := .none, timer := none, spent := r.elapsed now, haltAfter := none,
           enable := r.enable && !off }

/-- State of a queue that may go on with its next command: IDLE, held by a preemption, or RUNNING. Its timer goes on, unless it
is stopped (R196, R219, R350). -/
def Queue.goOn (r : Queue) (now : Nat) : Queue :=
  if r.rptr = r.wptr && !r.inbuf then { r with st := .idle, code := 0, wait := 0, timer := none, head := .none }
  else if r.held then { r with st := .stalled, code := 0, wait := 10, timer := none, spent := r.elapsed now, head := .none }
  else { r with st := .running, code := 0, wait := 0, timer := some (r.timer.getD now), head := .none }

/-- State of a queue that leaves IDLE, or whose head command has retired: its timer restarts from 0, against the LIMIT of now
(R219, R220). -/
def Queue.settle (r : Queue) (now : Nat) : Queue :=
  { r with timer := none, spent := 0, armed := r.limit }.goOn now

/-- The queue's plot stops it before its next command, or lets it go on (R350, R353). -/
def Queue.hold (r : Queue) (h : Bool) (now : Nat) : Queue :=
  if r.head = .none && (r.st == .running || (r.st == .stalled && r.wait == 10)) then { r with held := h }.goOn now
  else { r with held := h }

/-- The head moves past a packet that is not the last of its buffer, or past a ring packet (R206). -/
def Queue.advance (r : Queue) : Queue :=
  if r.inbuf then
    if r.bpos + 1 < pf r.buf 0 32 21 then { r with bpos := r.bpos + 1, win := r.win.tail }
    else { r with bpos := 0, inbuf := false, rptr := r.rptr + 1, win := r.win.tail }
  else { r with rptr := r.rptr + 1, win := r.win.tail }

/-- The head packet is the last of the buffer in execution. -/
def Queue.lastOfBuffer (r : Queue) : Bool := r.inbuf && decide (pf r.buf 0 32 21 ≤ r.bpos + 1)

/-- The head packet of queue `q`, in the window. -/
def State.headPacket? (s : State) (q : Nat) : Option (BitVec 512) := (s.queue q).win.head?.map (·.pkt)

/-- A halt of queue `q` takes effect, with its record where it has one (R197, R203, R400). -/
def State.takeHalt (s : State) (q : Nat) (d : HaltDue) : State :=
  let s1 := match d.note with
    | some (w, n) => s.report (fnOfQueue q) (s.haltReport q d.code w n)
    | none => s
  s1.modQueue q fun r => r.halted d.code d.off s.now

/-- Halts queue `q` with a status and its record (R203, R400). -/
def State.haltWith (s : State) (q code : Nat) (sow : Option (BitVec 32)) (detail : Nat) : State :=
  s.takeHalt q ⟨code, false, some (sow, detail)⟩

/-- The head command of queue `q` ends with a status (R202, R203): its result record is issued; a halting status
leaves the head where it is and halts the queue; any other retires it, and its BUFFER packet with the buffer's last
packet (R206). A halt that waited for the command takes effect then (R197, R220). -/
def State.retire (s : State) (q status : Nat) (value : W64) : State :=
  match s.headPacket? q with
  | none => s
  | some p =>
    let s1 := s.writeResult q p status value
    if haltsQueue status || (halterr p && status != 0) then
      (match (s1.queue q).haltAfter with
       | some d => (s1.report (fnOfQueue q) (s1.haltReport q status none 0)).takeHalt q
           { d with code := if d.code = 0 then status else d.code }
       | none => s1.haltWith q status none 0)
    else
      let r := s1.queue q
      let s2 := if r.lastOfBuffer then (s1.writeResult q r.buf 0 0).bumpFn (fnOfQueue q) 0 2
        else s1.bumpFn (fnOfQueue q) 0 1
      match r.haltAfter with
      | some d => (s2.modQueue q Queue.advance).takeHalt q d
      | none => s2.modQueue q fun r => r.advance.settle s.now

/-- The head command of queue `q` waits, with the stall reason of R195's table. -/
def State.stall (s : State) (q wait : Nat) (h : Head) : State :=
  s.modQueue q fun r => { r with st := .stalled, wait := wait, head := h }

/-- Queue `q` may begin its head command (R205): it is RUNNING, not held, its head packet is in the window, and
nothing of it is under way. -/
def Queue.ready (r : Queue) : Bool := r.st == .running && r.head == .none && !r.held && !r.win.isEmpty

/-- A packet whose command is performed only after every earlier result record of its queue has been acknowledged: a SEM_OP
signal, a SIGNAL_WRITE (R204). -/
def afterResults (p : BitVec 512) : Bool :=
  opcode p == 0x19 || (opcode p == 0x18 && decide (1 ≤ pf p 2 18 4) && decide (pf p 2 18 4 ≤ 5))

/-- Queue `q` has an executable head (R205, R207): a function in reset executes nothing (R414). -/
def State.executable (s : State) (q : Nat) : Bool :=
  (s.queue q).ready && (s.ftt.resets.look? (fnOfQueue q)).isNone
    && match s.headPacket? q with
      | some p => !afterResults p || s.resultsAcked q
      | none => false

/-- The queue that begins the next command: round-robin in queue number, after the queue last served (R207). With which it
begins after reset R207 does not say: the lowest. DESIGN CHOICE (log 124). -/
def State.nextServed (s : State) : Option Nat :=
  let l := (s.hcf.queues.map (·.1)).filter s.executable
  match l.find? fun q => decide (s.hcf.lastServed < q) with
  | some q => some q
  | none => l.head?

/-- Queue `q` begins a command: at most one begins in an sc (R207). -/
def State.serve (s : State) (q : Nat) : State :=
  { s with hcf := { s.hcf with lastServed := q }, inSc := { s.inSc with began := true } }

/-- The frame of a queue command: the queue's turn has come, the head packet is taken when `mine` accepts it, validated (R211),
and either ends with the failure or has its effect `f`. -/
def State.command (s : State) (q : Nat) (mine : BitVec 512 → Bool) (f : BitVec 512 → State → State) :
    Host.Outcome State Fault Refusal :=
  match s.headPacket? q with
  | none => .next s
  | some p =>
    s.when (!s.inSc.began && s.nextServed == some q && mine p)
      (let t := s.serve q
       let st := t.validate q p
       if st ≠ 0 then t.retire q st 0 else f p t)

/-- The packet after the last one fetched, in execution order (R208): ring index, buffer position, whether it lies in
a buffer; none where the window may not go on yet. -/
def Queue.nextFetch (r : Queue) : Option (BitVec 32 × Nat × Bool) :=
  match r.win.getLast? with
  | none =>
    if r.inbuf then some (r.rptr, r.bpos, true)
    else if r.rptr = r.wptr then none else some (r.rptr, 0, false)
  | some c =>
    let ring (i : BitVec 32) : Option (BitVec 32 × Nat × Bool) :=
      if i = r.wptr then none else some (i, 0, false)
    if c.inbuf then
      -- the BUFFER packet of the buffer: in the window, or the one in execution
      let b := match r.win.find? fun d => !d.inbuf && d.ring == c.ring with | some d => d.pkt | none => r.buf
      if c.bpos + 1 < pf b 0 32 21 then some (c.ring, c.bpos + 1, true) else ring (c.ring + 1)
    else if opcode c.pkt = 1 then some (c.ring, 0, true)
    else ring (c.ring + 1)

/-- Segment address and plot test of a packet at a fetch position (R192, R206). -/
def Queue.fetchAddr (r : Queue) (pos : BitVec 32 × Nat × Bool) : W64 :=
  if pos.2.2 then
    let b := match r.win.find? fun d => !d.inbuf && d.ring == pos.1 with | some d => d.pkt | none => r.buf
    pw b 2 + BitVec.ofNat 64 (64 * pos.2.1)
  else pack [(12, 36, r.off.toNat), (60, 4, r.seg.toNat)] + BitVec.ofNat 64 (64 * (pos.1.toNat % 2 ^ r.size))

end Sys2Proof.Machine
end

