-- ==== Sys2Proof/Machine/Ramp.lean ====
section
/-! DEFINITION. The start-ramp governor's arithmetic and its queue (R173 to R178), and the parked wake write, the one
start with no engine slot behind it (R242). -/
namespace Sys2Proof.Machine

/-- The budget in force, B (R57, R175). -/
def State.inForce (s : State) : Nat :=
  let f := s.fm.active.chip.chipStarts
  if s.dcs.pmBudget = 0 then f else min f s.dcs.pmBudget.toNat

/-- Units reserved over all plots for the current tick (R177). -/
def State.reserves (s : State) : Nat := (s.dcs.granted.map (·.2)).sum

/-- Plot `p`'s reserve has a unit left in this window (R175). -/
def State.reserveLeft (s : State) (p : Nat) : Bool :=
  decide (s.dcs.usedRsv.look 0 p < s.dcs.granted.look 0 p)

/-- Charges one unit to plot `p`'s reserve; it counts against the cluster for the others (R175). -/
def State.chargeReserve (s : State) (p c : Nat) : State :=
  { s with dcs := { s.dcs with usedRsv := s.dcs.usedRsv.adj 0 p (· + 1), usedClust := s.dcs.usedClust.adj 0 c (· + 1) } }

/-- The chip's shared part has room in this window; it is 0 when B is below the reserves (R175, R177). -/
def State.chipRoom (s : State) : Bool := decide (s.dcs.usedShared < s.inForce - s.reserves)

/-- Cluster `c` has room in this window (R175). -/
def State.clusterRoom (s : State) (c : Nat) : Bool :=
  decide (s.dcs.usedClust.look 0 c < (s.clusterCfg c).starts)

/-- Charges `n` units to the shared part and to cluster `c` (R175, R178). -/
def State.chargeShared (s : State) (c n : Nat) : State :=
  { s with dcs := { s.dcs with usedShared := s.dcs.usedShared + n, usedClust := s.dcs.usedClust.adj 0 c (· + n) } }

/-- A write or release to engine `e` is a start now (R174). -/
def State.isStart (s : State) (e : Nat) : Bool :=
  !(s.engine e).ran || match (s.engine e).idleFrom with
    | none => false
    | some t => s.since t s.fm.active.chip.idleStart

/-- Cluster of a queued start. -/
def Start.cluster : Start → Nat
  | .front e | .release e | .wakeWord e => e / 16
  | .domain c => c

/-- Plot whose reserve a queued start may draw on; a domain wake has none (R178). -/
def State.startPlot (s : State) : Start → Option Nat
  | .front e | .release e | .wakeWord e => some (s.plotOf e)
  | .domain _ => none

/-- Units a queued start costs (R174, R178). -/
def State.startCost (s : State) : Start → Nat
  | .domain _ => s.fm.active.chip.wakeCost
  | _ => 1

/-- A start that its plot's reserve admits never enters the queue (R176). -/
def State.reservedNow (s : State) (x : Start) : Bool :=
  match s.startPlot x with
  | some p => s.reserveLeft p
  | none => false

/-- A start takes its place in the queue: by the sc of arrival, and in one sc by cluster (R176). -/
def queueStart (x : Queued) : List Queued → List Queued
  | [] => [x]
  | y :: r => if y.at' < x.at' ∨ y.what.cluster ≤ x.what.cluster then y :: queueStart x r else x :: y :: r

/-- A start enters the queue (R176). -/
def State.enqueueStart (s : State) (x : Start) : State :=
  { s with dcs := { s.dcs with queue := queueStart ⟨x, s.now⟩ s.dcs.queue } }

/-- A start that arrives now is admitted to the shared units at once: every queued entry has been, and both budgets have room
(R175, R176). -/
def State.admitNow (s : State) (x : Start) : Bool := s.dcs.queue.isEmpty && s.clusterRoom x.cluster && s.chipRoom

/-- A start leaves the queue unadmitted (R169, R350). -/
def State.cancelStart (s : State) (p : Start → Bool) : State :=
  { s with dcs := { s.dcs with queue := s.dcs.queue.filter fun x => !p x.what } }

/-- Counts a charged start of engine `e`, `wait` sc after its arrival (R438). -/
def State.countStart (s : State) (e wait : Nat) : State := (s.bumpEng e 9 1).bumpEng e 10 wait

/-- The parked wake write of engine `e` (R242): SM_ERES and 8 B of 0 to its wake word. -/
def SemRes.encode (r : SemRes) : W64 :=
  pack [(0, 32, r.value.toNat), (32, 8, r.status.toNat), (40, 1, b2n r.done), (41, 1, b2n r.pending),
    (42, 8, r.opseq.toNat)]

/-- Issues the wake write of engine `e`. -/
def State.wakeWrite (s : State) (e : Nat) : State :=
  s.issue (Xfer.make (.wake e) 0 3 true (s.engCfg e).wake 16 [(s.engine e).eres.encode, 0] none none)

/-- A parked wake asks for its start, whatever the idle time (R242). -/
def State.requestWakeWord (s : State) (e : Nat) : State :=
  if s.reservedNow (.wakeWord e) then
    ((s.chargeReserve (s.plotOf e) (e / 16)).countStart e 0).wakeWrite e
  else if s.admitNow (.wakeWord e) then ((s.chargeShared (e / 16) 1).countStart e 0).wakeWrite e
  else s.enqueueStart (.wakeWord e)

/-- The window of R173 that the present sc lies in, counted from reset alignment. -/
def State.windowNow (s : State) : Nat := (s.now - s.su.pulseAt.getD 0) / 64

/-- RAMP_WINDOW_END (R57, R173, R175): a window is over; `pmBudget` is what its last sc showed on the pins, and holds for the
next. Unused units lapse. -/
def execRampWindowEnd (pmBudget : BitVec 8) (s : State) : Host.Outcome State Fault Refusal :=
  s.when (decide (s.dcs.window < s.windowNow)) { s with dcs := { s.dcs with
    pmBudget := pmBudget, window := s.windowNow, usedShared := 0, usedClust := [], usedRsv := [] } }

/-- Reserves fixed at a tick edge (R177): cut from the highest plot down until they fit B. Answers the reserves and
the cuts, both by plot. -/
def cutReserves : List (Nat × Nat) → Nat → List (Nat × Nat) × List (Nat × Nat)
  | [], _ => ([], [])
  | (p, r) :: t, ex =>
    let c := min ex r
    let (a, b) := cutReserves t (ex - c)
    ((p, r - c) :: a, if c = 0 then b else (p, c) :: b)

/-- The reserves of the coming tick are fixed against B, and each cut is logged (R177). -/
def State.fixReserves (s : State) : State :=
  let want := (List.range 64).reverse.filterMap fun p =>
    let c := s.plotCfg p
    if c.det && decide (0 < c.rampRsv) then some (p, c.rampRsv) else none
  let (keep, cuts) := cutReserves want ((want.map (·.2)).sum - s.inForce)
  let s1 := { s with dcs := { s.dcs with granted := keep.foldl (fun t kv => t.put 0 kv.1 kv.2) [] } }
  cuts.foldl (fun t pc => t.errlog { code := 0x808, plot := some pc.1, arg := BitVec.ofNat 64 pc.2 }) s1

end Sys2Proof.Machine
end

