-- ==== Sys2Proof/Machine/Semaphores.lean ====
section
/-! DEFINITION. Semaphores (R226 to R246): access, declarations, the nine operations, waiters, the queue commands,
engine waits, the walk at a headland. -/
namespace Sys2Proof.Machine

/-- Value of semaphore `m`. -/
def State.semVal (s : State) (m : Nat) : BitVec 32 := s.sm.vals.look 0 m
/-- Writes semaphore `m`. -/
def State.setSem (s : State) (m : Nat) (v : BitVec 32) : State :=
  { s with sm := { s.sm with vals := s.sm.vals.put 0 m v } }

/-- SM_BLKACL admits function `f` to semaphore `m` (R228). -/
def State.semAdmits (s : State) (f m : Nat) : Bool :=
  let a := s.sm.acl.look 0 (m / 64)
  fld a 0 8 == f || (bit a 16 && fld a 8 8 == f) || bit a 17

/-- OWNER of semaphore `m`'s block. -/
def State.semOwner (s : State) (m : Nat) : Nat := fld (s.sm.acl.look 0 (m / 64)) 0 8

/-- Operations that are signals (R231). -/
def semSignal (op : Nat) : Bool := decide (1 ≤ op) && decide (op ≤ 5)

/-- The checks of R228 and R238, in that order: 0, SEM_ACCESS, or SEM_UNDECLARED. -/
def State.semCheck (s : State) (fn q m op : Nat) : Nat :=
  if !s.semAdmits fn m then 0x20 else if semSignal op && !s.declared q m then 0x16 else 0

/-- What an operation answers: it waits, or ends with a value and a status. -/
inductive SemAns where
  | waits
  | ends (value : BitVec 32) (status : Nat)
  deriving DecidableEq, Repr

/-- The effect of an operation on value `v`: its answer and the new value (R231, R232); `acq` when an ACQUIRE waits
on the semaphore. -/
def semEffect (op : Nat) (v v0 v1 : BitVec 32) (acq : Bool) : SemAns × BitVec 32 :=
  match op with
  | 0 => (.ends v 0, v)
  | 1 => (.ends v 0, v0)
  | 2 =>
    let r := v.toInt + v0.toInt
    if r < -2147483648 ∨ 2147483647 < r then (.ends v 0x21, v) else (.ends v 0, v + v0)
  | 3 => (.ends v 0, if v.toInt < v0.toInt then v0 else v)
  | 4 => (.ends v 0, if v = v0 then v1 else v)
  | 5 => if v0.toInt ≤ v.toInt ∧ acq = false then (.ends v 0, v - v0) else (.ends v 0x22, v)
  | 6 => if v0.toInt ≤ v.toInt then (.ends v 0, v) else (.waits, v)
  | 7 => if v = v0 then (.ends v 0, v) else (.waits, v)
  | 8 => if v0.toInt ≤ v.toInt ∧ acq = false then (.ends v 0, v - v0) else (.waits, v)
  | _ => (.ends 0 0x20, v)

/-- An ACQUIRE waits on semaphore `m`. -/
def State.acquireWaits (s : State) (m : Nat) : Bool := s.sm.waiters.any fun w => w.sem == m && w.op == 8

/-- One pass over the waiters of semaphore `m` in order of arrival (R233): those left, those satisfied with the value
each returns, and the value at the end. `blocked` once an ACQUIRE could not be satisfied. -/
def semPass (m : Nat) : List SemWait → BitVec 32 → Bool → List SemWait × List (SemWait × BitVec 32) × BitVec 32
  | [], v, _ => ([], [], v)
  | w :: r, v, blocked =>
    if w.sem = m then
      match semEffect w.op v w.val0 0 blocked with
      | (.waits, _) =>
        let (l, d, v') := semPass m r v (blocked || w.op == 8)
        (w :: l, d, v')
      | (.ends x _, n) =>
        let (l, d, v') := semPass m r n blocked
        (l, (w, x) :: d, v')
    else
      let (l, d, v') := semPass m r v blocked
      (w :: l, d, v')

/-- SM_ERES of engine `e` after its operation has ended (R241). -/
def State.setEres (s : State) (e : Nat) (value : BitVec 32) (status : Nat) : State :=
  s.modEngine e fun r => { r with
    eres := { r.eres with value := value, status := BitVec.ofNat 8 status, done := true, pending := false } }

/-- Engine `e`'s wait ends: SM_ERES, and the wake of a parked engine when `wake` (R241 to R243). -/
def State.endEngWait (s : State) (e : Nat) (value : BitVec 32) (status : Nat) (wake : Bool) : State :=
  match (s.engine e).wait with
  | none => s
  | some w =>
    let s1 := (s.setEres e value status).modEngine e fun r => { r with wait := none }
    if wake && w.park then s1.requestWakeWord e else s1

/-- A satisfied waiter goes on: its queue command retires, or its engine is told. -/
def State.wakeWaiter (s : State) (w : SemWait) (value : BitVec 32) : State :=
  match w.who with
  | .queue q => s.retire q 0 (value.signExtend 64)
  | .engine e => s.endEngWait e value 0 true

/-- The waiters on semaphore `m` are evaluated (R233). -/
def State.semEvaluate (s : State) (m : Nat) : State :=
  let r := semPass m s.sm.waiters (s.semVal m) false
  r.2.1.foldl (fun t wx => t.wakeWaiter wx.1 wx.2)
    { s.setSem m r.2.2 with sm := { (s.setSem m r.2.2).sm with waiters := r.1 } }

/-- Performs an operation that passed its checks (R231 to R233): the answer, and the state with the waiters evaluated
when the value changed. -/
def State.semOp (s : State) (m op : Nat) (v0 v1 : BitVec 32) : SemAns × State :=
  let v := s.semVal m
  let (a, n) := semEffect op v v0 v1 (s.acquireWaits m)
  let s1 := s.bumpChip 2 1
  (a, if n = v then s1 else (s1.setSem m n).semEvaluate m)

/-- A wait begins: it joins the waiters in order of arrival (R233). -/
def State.addWaiter (s : State) (w : SemWait) : State :=
  { s with sm := { s.sm with waiters := s.sm.waiters ++ [w] } }

/-! ### Queue commands -/

/-- SEM_OP of queue `q` (R231, R236, R238). -/
def State.semCommand (s : State) (q : Nat) (p : BitVec 512) : State :=
  let m := pf p 2 0 18
  let op := pf p 2 18 4
  let v0 := BitVec.ofNat 32 (pf p 2 32 32)
  let v1 := BitVec.ofNat 32 (pf p 3 0 32)
  let c := s.semCheck (fnOfQueue q) q m op
  if c ≠ 0 then s.retire q c 0
  else match s.semOp m op v0 v1 with
    | (.ends v st, t) => t.retire q st (v.signExtend 64)
    | (.waits, t) => (t.addWaiter ⟨m, op, v0, .queue q, t.now⟩).stall q 7 .sem

/-- The head packet is SEM_OP with operation `op`. -/
def isSem (op : Nat) (p : BitVec 512) : Bool := opcode p == 0x18 && pf p 2 18 4 == op

/-- SEM_READ; a reserved OP ends here with BAD_COMMAND (R231). -/
def execSemRead (q : Fin 16384) (s : State) : Host.Outcome State Fault Refusal :=
  s.command q (fun p => opcode p == 0x18 && (pf p 2 18 4 == 0 || decide (9 ≤ pf p 2 18 4))) fun p t => t.semCommand q p
/-- SEM_SET (R231). -/
def execSemSet (q : Fin 16384) (s : State) : Host.Outcome State Fault Refusal :=
  s.command q (isSem 1) fun p t => t.semCommand q p
/-- SEM_ADD (R231, R232). -/
def execSemAdd (q : Fin 16384) (s : State) : Host.Outcome State Fault Refusal :=
  s.command q (isSem 2) fun p t => t.semCommand q p
/-- SEM_MAX (R231). -/
def execSemMax (q : Fin 16384) (s : State) : Host.Outcome State Fault Refusal :=
  s.command q (isSem 3) fun p t => t.semCommand q p
/-- SEM_CAS (R231). -/
def execSemCas (q : Fin 16384) (s : State) : Host.Outcome State Fault Refusal :=
  s.command q (isSem 4) fun p t => t.semCommand q p
/-- SEM_TRY_ACQUIRE (R231). -/
def execSemTryAcquire (q : Fin 16384) (s : State) : Host.Outcome State Fault Refusal :=
  s.command q (isSem 5) fun p t => t.semCommand q p
/-- SEM_WAIT_GE (R231, R236). -/
def execSemWaitGe (q : Fin 16384) (s : State) : Host.Outcome State Fault Refusal :=
  s.command q (isSem 6) fun p t => t.semCommand q p
/-- SEM_WAIT_EQ (R231, R236). -/
def execSemWaitEq (q : Fin 16384) (s : State) : Host.Outcome State Fault Refusal :=
  s.command q (isSem 7) fun p t => t.semCommand q p
/-- SEM_ACQUIRE (R231, R233, R236). -/
def execSemAcquire (q : Fin 16384) (s : State) : Host.Outcome State Fault Refusal :=
  s.command q (isSem 8) fun p t => t.semCommand q p

/-! ### Engine waits (R240 to R243) -/

/-- Cancels engine `e`'s pending wait, and an ACQUIRE takes nothing (R243); `wake` on FAILING. The ACQUIREs behind a
cancelled one are evaluated (log 13); VALUE is free. -/
def State.cancelEngWait (s : State) (e : Nat) (wake : Bool) : State :=
  match (s.engine e).wait with
  | none => s
  | some w =>
    let s1 := { s with sm := { s.sm with waiters := s.sm.waiters.filter fun x => x.who != Waiter.engine e } }
    let (v, s2) := s1.drawWord
    (s2.endEngWait e (v.truncate 32) 0x24 wake).semEvaluate w.sem

/-! ### Abandoning a head command (R197) -/

/-- Removes queue `q`'s semaphore wait; the waiters behind an ACQUIRE so removed are evaluated (log 13). -/
def State.dropQueueWait (s : State) (q : Nat) : State :=
  match s.sm.waiters.find? fun w => w.who == Waiter.queue q with
  | none => s
  | some w =>
    { s with sm := { s.sm with waiters := s.sm.waiters.filter fun x => x.who != Waiter.queue q } }.semEvaluate w.sem

/-- Queue `q`'s head command takes back what its wait holds elsewhere: a semaphore wait, a drain of a graph, a place
in a graph's order, a place among waiting CORE_CALLs, a harvest request, a withdrawal's waiting queue. -/
def State.dropWaits (s : State) (q : Nat) : State :=
  let s1 := s.dropQueueWait q
  { s1 with
    gs := { s1.gs with graphs := s1.gs.graphs.map fun kv =>
      (kv.1, { kv.2 with turn := kv.2.turn.filter fun x => x.1 != q }) }
    ccx := { s1.ccx with waiting := s1.ccx.waiting.filter (· != q) }
    hv := { s1.hv with want := s1.hv.want.filter (· != q), asked := s1.hv.asked.filter (· != q) }
    pru := { s1.pru with segs := s1.pru.segs.map fun kv =>
      (kv.1, { kv.2 with queues := kv.2.queues.filter (· != q) }) } }

/-- A head command under way runs to its end before its queue halts (R197). -/
def Head.underway : Head → Bool
  | .rooting _ | .load | .patch .. | .swap | .seal | .signal | .coreRun _ | .preempt | .lend => true
  | _ => false

/-- Two halts of one queue that wait for the same command: the first CODE and record that there is. -/
def HaltDue.join (x y : HaltDue) : HaltDue :=
  ⟨if x.code = 0 then y.code else x.code, x.off || y.off, if x.note.isSome then x.note else y.note⟩

/-- A halt of queue `q` (R197): a waiting or unbegun head command is abandoned and the queue halts; one under way runs
to its end first. -/
def State.halt (s : State) (q : Nat) (d : HaltDue) : State :=
  if (s.queue q).head.underway then
    s.modQueue q fun r => { r with haltAfter := match r.haltAfter with
      | some x => some (x.join d)
      | none => some d }
  else (s.dropWaits q).takeHalt q d

/-! ### The walk (R244 to R246) -/

/-- A wait of the snapshot (R244): queue, semaphore, start, ring index. -/
abbrev Snap := Nat × Nat × Nat × BitVec 32

/-- The waits of queues now (R244). -/
def State.takeSnapshot (s : State) : List Snap :=
  s.sm.waiters.filterMap fun w => match w.who with
    | .queue q => some (q, w.sem, w.at', (s.queue q).rptr)
    | .engine _ => none

/-- Every queue that declares semaphore `m` is in `d` (R244). -/
def State.declarersIn (s : State) (d : List Snap) (m : Nat) : Bool :=
  s.hcf.queues.all fun kv => !s.declared kv.1 m || d.any fun a => a.1 == kv.1

/-- d of R244 after the repeat: at most `n` rounds, each removing what a queue outside d may signal. -/
def State.prune (s : State) : Nat → List Snap → List Snap
  | 0, d => d
  | n + 1, d =>
    let d' := d.filter fun a => s.declarersIn d a.2.1
    if d'.length = d.length then d else s.prune n d'

/-- The queue has a live sowing, or a CORE_CALL waiting or running (R244). -/
def State.mayStillSignal (s : State) (q : Nat) : Bool :=
  (s.sow.live.any fun kv => kv.2.queue == q && kv.2.st != .retired)
    || s.ccx.waiting.contains q || s.ccx.progs.any fun kv => kv.2.q == q

/-- Queues of d reachable from the queues of `seen` by edges a -> b, b declaring a's semaphore, in `n` rounds. -/
def State.reach (s : State) (d : List Snap) : Nat → List Nat → List Nat
  | 0, seen => seen
  | n + 1, seen =>
    let more := d.filter fun b => !seen.contains b.1 &&
      d.any fun a => seen.contains a.1 && s.declared b.1 a.2.1
    if more.isEmpty then seen else s.reach d n (seen ++ more.map (·.1))

/-- Successors of queue `a` in d. -/
def State.follows (s : State) (d : List Snap) (a : Snap) : List Nat :=
  (d.filter fun b => s.declared b.1 a.2.1).map (·.1)

/-- The queues reachable from `a` by at least one edge. -/
def State.reachFrom (s : State) (d : List Snap) (a : Snap) : List Nat := s.reach d d.length (s.follows d a)

/-- The strongly connected set of `a`, empty when it has no edge inside (R244). -/
def State.circleOf (s : State) (d : List Snap) (a : Snap) : List Snap :=
  d.filter fun b => (s.reachFrom d a).contains b.1 && (s.reachFrom d b).contains a.1

/-- The member whose wait began latest; ties to the highest queue (R244). -/
def latest : List Snap → Option Snap
  | [] => none
  | a :: r => match latest r with
    | none => some a
    | some b => if a.2.2.1 < b.2.2.1 ∨ (a.2.2.1 = b.2.2.1 ∧ a.1 < b.1) then some b else some a

/-- WCLASS of queue `q` is BE (R237). -/
def State.waitsBe (s : State) (q : Nat) : Bool := bit ((s.queue q).decl.look 0 0) 63

/-- The victim of circle `c` (R244). -/
def State.victim (s : State) (c : List Snap) : Option Snap :=
  let be := c.filter fun a => s.waitsBe a.1
  latest (if be.isEmpty then c else be)

/-- The victim is still stalled on the same wait (R245). -/
def State.sameWait (s : State) (a : Snap) : Bool :=
  (s.queue a.1).rptr == a.2.2.2 && s.sm.waiters.any fun w => w.who == Waiter.queue a.1 && w.sem == a.2.1 && w.at' == a.2.2.1

/-- The circles of d, each once (R244). -/
def State.circles (s : State) (d : List Snap) : List (List Snap) :=
  (d.map (s.circleOf d)).filter (fun c => !c.isEmpty) |>.foldl
    (fun (acc : List (List Snap)) c => if acc.any (fun x => x.any fun a => c.contains a) then acc else acc ++ [c]) []

/-- WAIT_CYCLE records of circle `c` with victim `v` (R246, R399): one to each function with a queue in it. -/
def State.reportCircle (s : State) (c : List Snap) (v : Snap) : State :=
  ((List.range 256).filter fun n => c.any fun a => fnOfQueue a.1 == n).foldl (fun t n =>
    t.report n { code := 0x302, queue := some v.1, aux := v.2.1, detail := min c.length 65535,
                 arg := BitVec.ofNat 64 ((c.filter fun a => fnOfQueue a.1 == n).foldl
                   (fun m a => m ||| (1 <<< (a.1 % 64))) 0) }) s

/-- One circle is broken when its victim passes the recheck (R245, R246). -/
def State.breakCircle (s : State) (c : List Snap) : State :=
  match s.victim c with
  | none => s
  | some v =>
    if s.sameWait v then
      let value := (s.semVal v.2.1).signExtend 64
      (((s.dropQueueWait v.1).retire v.1 stCycleBroken value).bumpChip 11 1).reportCircle c v
    else s

/-- The circles found in the state of a headland's first sc (R244). -/
def State.findCircles (s : State) : List (List Snap) :=
  let w := s.takeSnapshot
  s.circles (s.prune w.length (w.filter fun a => !s.mayStillSignal a.1))

/-- WAIT_CYCLE_BREAK: the walk of the last snapshot ends (R244 to R246). -/
def execWaitCycleBreak (s : State) : Host.Outcome State Fault Refusal :=
  match s.sm.snapshot with
  | none => .next s
  | some cs => s.when true (cs.foldl State.breakCircle { s with sm := { s.sm with snapshot := none } })

end Sys2Proof.Machine
end

