-- ==== Sys2Proof/Machine/Work.lean ====
section
/-! DEFINITION. Shared operations on scheduled work: node records (R75, R80), counters (R130), flows (R152, R153), lists
and their capacity (R139 to R146), engine slots and tokens (R26, R169, R172), notices (R354), preempt requests, engine
moves, tasks lost and sowings that fail (R115, R410). -/
namespace Sys2Proof.Machine

/-! ### Node and edge records (R75, R80) -/

/-- FANIN. -/
def nFanin (n : BitVec 512) : Nat := fld n 64 16
/-- FANOUT. -/
def nFanout (n : BitVec 512) : Nat := fld n 80 16
/-- KIND; 15 is NULL. -/
def nKind (n : BitVec 512) : Nat := fld n 96 4
/-- CLASS: 0 LC, 1 BE. -/
def nClass (n : BitVec 512) : Nat := fld n 100 1
/-- GROUP. -/
def nGroup (n : BitVec 512) : Nat := fld n 101 4
/-- FLOWV. -/
def nFlowv (n : BitVec 512) : Bool := bit n 105
/-- AFFV. -/
def nAffv (n : BitVec 512) : Bool := bit n 106
/-- NOPRESOW. -/
def nNopresow (n : BitVec 512) : Bool := bit n 107
/-- PSLOTV. -/
def nPslotv (n : BitVec 512) : Bool := bit n 108
/-- NODIGEST. -/
def nNodigest (n : BitVec 512) : Bool := bit n 109
/-- DLYV. -/
def nDlyv (n : BitVec 512) : Bool := bit n 110
/-- FLOW. -/
def nFlow (n : BitVec 512) : Nat := fld n 112 16
/-- EDGE_OFF. -/
def nEdgeOff (n : BitVec 512) : Nat := fld n 128 23
/-- AFF_ENG. -/
def nAffEng (n : BitVec 512) : Nat := fld n 151 9
/-- PSLOT. -/
def nPslot (n : BitVec 512) : Nat := fld n 160 20
/-- DELAY. -/
def nDelay (n : BitVec 512) : Nat := fld n 192 24
/-- TGW. -/
def nTgw (n : BitVec 512) : Nat := fld n 216 3
/-- MXC. -/
def nMxc (n : BitVec 512) : Nat := fld n 219 2
/-- USER. -/
def nUser (n : BitVec 512) : Nat := fld n 224 16
/-- LAYER. -/
def nLayer (n : BitVec 512) : Nat := fld n 240 12
/-- ENTRY. -/
def nEntry (n : BitVec 512) : W64 := BitVec.ofNat 64 (fld n 0 64)

/-- Target of an edge (R80, R94). -/
def eTarget (x : BitVec 32) : Nat := fld x 20 6 * 1048576 + fld x 0 20
/-- PRODUCER. -/
def eProducer (x : BitVec 32) : Bool := bit x 27

/-- Page of a node of a fallow graph (R93). -/
def pageOf (i : Nat) : Nat := i / 4096

/-- Key of node `i`'s first out-edge in the graph's edge table: the run's offset, or the page's block and the offset in
it for a fallow graph (R81, R94). -/
def Graph.edgeKey (g : Graph) (i : Nat) : Nat :=
  (if g.fallow then pageOf i * 65536 else 0) + nEdgeOff (g.nodes.look 0 i)

/-- Node `i` of the graph of sowing `w`. -/
def State.node (s : State) (w : Sowing) (i : Nat) : BitVec 512 :=
  match s.graph? w.graph with
  | some g => g.nodes.look 0 i
  | none => 0

/-- The page of node `i` is resident; every node of a resident graph is (R99). -/
def Graph.resident (g : Graph) (i : Nat) : Bool := !g.fallow || g.frames.any fun f => f.page == pageOf i

/-- FANIN of node `i` as a shadow fill takes it (R130). Every counter of a fallow graph's resident pages is listed: it came
with its page (R99). -/
def Graph.faninOf (g : Graph) (i : Nat) : Nat :=
  if g.fallow then 0 else nFanin (g.nodes.look 0 i)

/-- Counter of node `i` in sowing `w` of graph `g` (R130). -/
def Sowing.counter (w : Sowing) (g : Graph) (i : Nat) : Counter :=
  (w.ctr.look? i).getD ⟨g.faninOf i, .counting⟩

/-- Writes the counter of node `i`. -/
def Sowing.setCounter (w : Sowing) (i : Nat) (c : Counter) : Sowing := { w with ctr := w.ctr.ins i c }

/-- Class in which node record `n` of sowing `w` is placed (R316). -/
def State.classOf (s : State) (w : Sowing) (n : BitVec 512) : Nat :=
  if (s.plotCfg w.plot).det && w.cyc.isNone then 1 else nClass n

/-! ### Lists: keys and capacity (R141, R146) -/

/-- Key of the ready list of (plot, kind, class, group). -/
def listKey (p k c g : Nat) : Nat := p * 96 + k * 32 + c * 16 + g

/-- The ready list of key `l`. -/
def State.list (s : State) (l : Nat) : List Ready := s.rla.lists.look [] l
/-- Writes the ready list of key `l`. -/
def State.setList (s : State) (l : Nat) (v : List Ready) : State :=
  { s with rla := { s.rla with lists := s.rla.lists.put [] l v } }

/-- Ready-pool entries of plot `p`, chained nodes included (log 14). -/
def State.readyOcc (s : State) (p : Nat) : Nat :=
  ((s.rla.lists.filter fun kv => kv.1 / 96 == p).map fun kv => kv.2.length).sum
    + ((s.rla.flows.filter fun kv => kv.1 / 65536 == p).map fun kv => kv.2.chain.length).sum

/-- Delay-pool entries of plot `p`. -/
def State.delayOcc (s : State) (p : Nat) : Nat :=
  (s.rla.delays.map fun kv => (kv.2.filter fun d => d.plot == p).length).sum

/-- An entry enters a pool in this sc: key `p`, or `64 + p` for the delay pool (R141). -/
def State.noteAdd (s : State) (i : Nat) : State :=
  { s with inSc := { s.inSc with added := s.inSc.added.adj 0 i (· + 1) } }

/-- Entries of a pool as a new one counts them: those at the start of the sc and those added since. One freed in this sc
makes room from the next (R141). That additions of the sc count is DEDUCED: a ceiling cannot be passed (log 116). -/
def State.occ (s : State) (i : Nat) : Nat := s.inSc.occ.look 0 i + s.inSc.added.look 0 i

/-- Plot `p` may add an entry to a pool (R141). -/
def mayAdd (occ floor : Nat → Nat) (cap size p : Nat) : Bool :=
  decide (occ p < cap) &&
    (decide (occ p < floor p) ||
      decide (((List.range 64).map occ).sum
        + ((List.range 64).map fun q => if q = p then 0 else floor q - occ q).sum < size))

/-- Plot `p` may add a ready-list entry. -/
def State.mayReady (s : State) (p : Nat) : Bool :=
  mayAdd s.occ (fun q => (s.plotCfg q).readyFloor) (s.plotCfg p).readyCap 262144 p
/-- Plot `p` may add a delay-list entry. -/
def State.mayDelay (s : State) (p : Nat) : Bool :=
  mayAdd (fun q => s.occ (64 + q)) (fun q => (s.plotCfg q).delayFloor) (s.plotCfg p).delayCap 65536 p

/-- Plot `p` has an active engine of kind `k` (R151). -/
def State.hasKind (s : State) (p k : Nat) : Bool := engineIds.any fun e => s.belongs e p k

/-- KIND_ABSENT, once per sowing (R151). -/
def State.noteKind (s : State) (k : Nat) (w : Sowing) (i : Nat) : State :=
  let kind := nKind (s.node w i)
  if w.kindAbsent || s.hasKind w.plot kind then s
  else (s.modSowing k fun x => { x with kindAbsent := true }).report w.fn
    { code := 0x10C, plot := some w.plot, sow := some w.id, queue := some w.queue, node := some i, detail := kind }

/-- Places among the nodes that enter one list in one sc (R147): roots, DE outputs by bank, delay expiries, pending nodes,
returned nodes; a node that leaves a flow's chain comes after them (R153; log 116). -/
inductive Rank where
  | root | de (bank : Nat) | expiry | pending | returned | chain

/-- The number of a rank. -/
def Rank.num : Rank → Nat
  | .root => 0
  | .de b => 1 + b
  | .expiry => 32
  | .pending => 33
  | .returned => 34
  | .chain => 35

/-- An entry is appended to its list, in the order of R147 among those of its sc. -/
def insertReady (x : Ready) : List Ready → List Ready
  | [] => [x]
  | y :: r => if y.at' = x.at' ∧ x.rank < y.rank then x :: y :: r else y :: insertReady x r

/-- An entry of node `i` of sowing `k` enters list `l`, with the current tick (R146, R147). -/
def State.listNode (s : State) (l k i : Nat) (r : Rank) : State :=
  s.setList l (insertReady ⟨k, i, s.tcs.tick, false, s.now, r.num⟩ (s.list l))

/-- Node `i` of sowing `k` is appended to its ready list (R146, R151). -/
def State.pushReady (s : State) (k i : Nat) (r : Rank) : State :=
  match s.sowing? k with
  | none => s
  | some w =>
    let n := s.node w i
    ((s.listNode (listKey w.plot (nKind n) (s.classOf w n) (nGroup n)) k i r).noteAdd w.plot).noteKind k w i

/-- Sets the DE state of a counter. -/
def State.setCtrState (s : State) (k i : Nat) (st : CtrState) : State :=
  match s.sowing? k with
  | none => s
  | some w => match s.graph? w.graph with
    | none => s
    | some g => s.setSowing k (w.setCounter i { w.counter g i with st := st })

/-- Node `i` waits for space (R141): PEND_DELAY or PEND_READY. -/
def State.pend (s : State) (k i : Nat) (w : Sowing) (delay : Bool) : State :=
  let x : Pend := ⟨k, i, w.plot, delay, w.ordinal, false⟩
  let s1 : State := { s with rla := { s.rla with pend := s.rla.pend ++ [x] } }
  (s1.setCtrState k i (if delay then .pendDelay else .pendReady)).bumpPlot w.plot 8 1

/-- Node `i` of sowing `k` goes to its ready list, or waits for space (R141). -/
def State.enterReady (s : State) (k i : Nat) (r : Rank) : State :=
  match s.sowing? k with
  | none => s
  | some w => if s.mayReady w.plot then (s.setCtrState k i .passed).pushReady k i r else s.pend k i w false

/-- The delay list of a delay of `d` ticks (R155). -/
def delayList (d : Nat) : Nat := if d ≤ 64 then 0 else if d ≤ 4096 then 1 else if d ≤ 262144 then 2 else 3

/-- Inserts by expiry, after entries of equal expiry (R155). -/
def insertDelay (x : Delayed) : List Delayed → List Delayed
  | [] => [x]
  | y :: r => if y.expiry ≤ x.expiry then y :: insertDelay x r else x :: y :: r

/-- Node `i` starts its delay (R155). -/
def State.pushDelay (s : State) (k i : Nat) (w : Sowing) : State :=
  let d := nDelay (s.node w i) + 1
  let x : Delayed := ⟨k, i, w.plot, s.delayTicks + d, false⟩
  State.noteAdd { s with rla := { s.rla with delays := s.rla.delays.adj [] (delayList d) (insertDelay x) } } (64 + w.plot)

/-- Node `i` goes to its delay list, or waits for space (R139). -/
def State.enterDelay (s : State) (k i : Nat) : State :=
  match s.sowing? k with
  | none => s
  | some w => if s.mayDelay w.plot then (s.setCtrState k i .passed).pushDelay k i w else s.pend k i w true

/-! ### Atomic flows (R152 to R154) -/

/-- Flow of key `plot * 65536 + flow`. -/
def State.flow (s : State) (f : Nat) : Flow := s.rla.flows.look ⟨.idle, []⟩ f
/-- Writes a flow. -/
def State.setFlow (s : State) (f : Nat) (v : Flow) : State :=
  { s with rla := { s.rla with flows := s.rla.flows.put ⟨.idle, []⟩ f v } }

/-- Flow key of node record `n` in plot `p`. -/
def flowKey (p : Nat) (n : BitVec 512) : Nat := p * 65536 + nFlow n

/-- The flow is BUSY, or RESERVED for another node (R153, R154). -/
def FlowState.blocks (f : FlowState) (k i : Nat) : Bool :=
  match f with
  | .idle => false
  | .busy .. => true
  | .reserved k' i' => !(k' == k && i' == i)

/-- The flow becomes IDLE, or RESERVED for the first node of its chain, which goes to the tail of its list (R153). Dead
nodes stay in the chain until the sweep (R144). -/
def State.nextFlow (s : State) (f : Nat) : State :=
  let l := (s.flow f).chain
  match l.find? fun c => !c.dead with
  | none => s.setFlow f ⟨.idle, l⟩
  | some c =>
    let s1 := (s.setFlow f ⟨.reserved c.sow c.node, l.erase c⟩).listNode c.list c.sow c.node .chain
    match s1.sowing? c.sow with
    | some w => s1.noteKind c.sow w c.node
    | none => s1

/-- The service of node `i` of sowing `w` ends: its flow, when the node holds it, goes on (R152). -/
def State.freeFlow (s : State) (k i : Nat) (w : Sowing) : State :=
  let n := s.node w i
  if nFlowv n then
    (match (s.flow (flowKey w.plot n)).st with
     | .idle => s
     | .busy a b => if a = k ∧ b = i then s.nextFlow (flowKey w.plot n) else s
     | .reserved a b => if a = k ∧ b = i then s.nextFlow (flowKey w.plot n) else s)
  else s

/-- The flow of node `i` becomes BUSY with it (R152). -/
def State.takeFlow (s : State) (k i : Nat) (w : Sowing) : State :=
  let n := s.node w i
  if nFlowv n then
    let f := flowKey w.plot n
    s.setFlow f { s.flow f with st := .busy k i }
  else s

/-- The flow of node `i` permits a hold (R154). -/
def State.flowPermits (s : State) (k i : Nat) (w : Sowing) : Bool :=
  let n := s.node w i
  !nFlowv n || !((s.flow (flowKey w.plot n)).st.blocks k i)

/-- Flows let go of a sowing that fails: its chained nodes are dead, and a flow RESERVED for one of its nodes goes on
(R144). -/
def State.dropFlows (s : State) (k : Nat) : State :=
  let s1 : State := { s with rla := { s.rla with flows := s.rla.flows.map fun kv =>
    (kv.1, { kv.2 with chain := kv.2.chain.map fun c => if c.sow = k then { c with dead := true } else c }) } }
  s1.rla.flows.foldl (fun t kv => match kv.2.st with
    | .reserved a _ => if a = k then t.nextFlow kv.1 else t
    | _ => t) s1

/-! ### Tokens and the back slot (R26, R169 to R172) -/

/-- Drives a token of operation `op` to engine `e` with the HGS's copy of its incarnation (01_boundary.md). -/
def State.driveToken (s : State) (e op : Nat) : State :=
  let s1 : State := if s.looped (e / 16) then s else { s with pins := { s.pins with
    tokOut := s.pins.tokOut.ins (e / 16) (pack [(0, 4, e % 16), (4, 2, op), (8, 8, (s.engine e).inc.toNat)]) } }
  s1.modEngine e fun r => { r with token := some op, tokenAt := s.now }

/-- A withdraw trigger for engine `e`'s held descriptor (R169, R171): `trig` as R430 numbers triggers. -/
def State.withdraw (s : State) (e trig : Nat) : State :=
  let r := s.engine e
  match r.back.st with
  | .empty | .withdrawing => s
  | .writing => s.modEngine e fun r => { r with back :=
      if r.back.wdAt.isSome then r.back else { r.back with wdAt := some s.now, trigger := trig } }
  | .held | .pending =>
    (s.modEngine e fun r => { r with back := { r.back with st := .withdrawing, trigger := trig } }).driveToken e 1
  | .releasing =>
    if r.back.sent then s
    else ((s.cancelStart fun x => x == .release e).modEngine e fun r =>
      { r with back := { r.back with st := .withdrawing, trigger := trig }, freeAt := s.now }).driveToken e 1

/-- Node `i` of sowing `k` returns unstarted to its ready list, or is abandoned (R138, R115). -/
def State.returnUnstarted (s : State) (k i : Nat) : State :=
  match s.sowing? k with
  | none => s
  | some w => let s1 := s.freeFlow k i w
              if w.st = .active then s1.enterReady k i .returned else s1

/-- A node whose held descriptor ended unstarted is routed (R172). -/
def State.unheld (s : State) (k i : Nat) : State :=
  match s.sowing? k with
  | none => s
  | some w =>
    let s1 := s.freeFlow k i w
    if w.st ≠ .active then s1
    else match s1.graph? w.graph with
      | none => s1
      | some g => if (w.counter g i).cnt = 0 then s1.enterReady k i .returned else s1

/-- The drill's lookahead entries for node `x` of sowing `k` end (R168): it has completed, or is withdrawn or lost. -/
def State.dropProducers (s : State) (k x : Nat) : State :=
  { s with
    dcs := { s.dcs with producers := s.dcs.producers.filter fun y => !(y.1 == k && y.2.2.2 == x) }
    de := { s.de with looks := s.de.looks.filter fun y => !(y.1 == k && y.2.1 == x) } }

/-- The back slot of engine `e` becomes EMPTY and its node is routed (R169, R172); `res` when a result returned. -/
def State.emptyBack (s : State) (e : Nat) (res : Option Nat) : State :=
  let b := (s.engine e).back
  if b.st = .empty then s
  else
    let s1 := (s.modEngine e fun r => { r with
      back := Back.reset, backAt := s.now, freeAt := if b.st = .releasing then s.now else r.freeAt }).cancelStart
        fun x => x == .release e
    let s2 := State.dropProducers { s1 with dcs := { s1.dcs with
      seqB := s1.dcs.seqB.adj [] (e / 16) fun l => l.filter (· != e) } } b.task.sow b.task.node
    let w := s2.sowing? b.task.sow
    let s3 := s2.capture ⟨0x04, some (b.task.sow / 2 ^ 32), w.map (·.plot), some e, some (BitVec.ofNat 32 b.task.sow),
      some b.task.node, b.trigger, BitVec.ofNat 64 (res.getD 0)⟩
    let s4 := if res.isSome then s3.bumpEng e 7 1 else s3
    (if b.trigger = 6 then s4.bumpEng e 8 1 else s4).unheld b.task.sow b.task.node

/-! ### Save area (R355, R356) -/

/-- Slices of plot `p`'s area (R356). -/
def State.sliceCount (s : State) (p : Nat) : Nat :=
  let c := (s.plot p).saveCfg
  if fld c 0 16 = 0 then 0 else min 512 ((fld c 16 25 - 1) / fld c 0 16)

/-- Bytes of a slice of plot `p`. -/
def State.sliceBytes (s : State) (p : Nat) : Nat := fld (s.plot p).saveCfg 0 16 * 65536

/-- The lowest free slice of plot `p`. -/
def State.freeSlice? (s : State) (p : Nat) : Option Nat :=
  (List.range (s.sliceCount p)).find? fun i => !(s.plot p).busySlices.contains i

/-- Translates `b` bytes at offset `off` of plot `p`'s save area under its OWNER's segments (R355). -/
def State.areaAddr (s : State) (p off b : Nat) (need : Need) : Trans :=
  s.translate (s.plotCfg p).owner ((s.plot p).saveA + BitVec.ofNat 64 off) b need (some p) true

/-- Physical address of slice `i`, 0 where the area no longer translates (R354). -/
def State.sliceAddr (s : State) (p i : Nat) : Nat :=
  match s.areaAddr p (65536 + i * s.sliceBytes p) (s.sliceBytes p) .write with
  | .ok a => a
  | _ => 0

/-- A transfer of plot `p`'s save area, on behalf of its OWNER at QoS 1 (R355). -/
def State.areaXfer (s : State) (p off b : Nat) (w : Bool) (data : Words) (u : Purpose) : Option Xfer :=
  match s.areaAddr p off b (if w then .write else .read) with
  | .ok a => some (Xfer.make u (s.plotCfg p).owner 1 w a b data
      (some ⟨(s.plot p).saveA + BitVec.ofNat 64 off, if w then .write else .read, some p, true⟩) none)
  | _ => none

/-- Slice `i` of plot `p` is freed: word 1 of its directory entry is rewritten with VALID 0 (R356). -/
def State.freeSlice (s : State) (p i : Nat) : State :=
  match (s.plot p).saved.find? fun x => x.slice == i with
  | none => s.modPlot p fun r => { r with busySlices := r.busySlices.filter (· != i) }
  | some x =>
    let s1 := s.modPlot p fun r => { r with saved := r.saved.filter fun y => y.slice != i }
    match s1.areaXfer p (i * 64 + 8) 8 true [x.entry.at 1 &&& ~~~(0x4000000 : W64)] (.saveFree p i) with
    | some xf => s1.issue xf
    | none => s1.modPlot p fun r => { r with busySlices := r.busySlices.filter (· != i) }

/-! ### Sowings that fail, tasks lost (R115, R410) -/

/-- How a sowing fails: the code of its fault and what the record names. -/
structure Why where
  code   : Nat
  node   : Option Nat := none
  eng    : Option Nat := none
  detail : Nat := 0
  arg    : W64 := 0
  silent : Bool := false

/-- The sowing's nodes leave the lists: entries and pending marks are dead until the sweeps free them, decrements stale, edges
unread (R115, R112, R144). -/
def State.killEntries (s : State) (k : Nat) : State :=
  { s with
    rla := { s.rla with
      lists := s.rla.lists.map fun kv => (kv.1, kv.2.map fun e => if e.sow = k then { e with dead := true } else e)
      delays := s.rla.delays.map fun kv => (kv.1, kv.2.map fun e => if e.sow = k then { e with dead := true } else e)
      pend := s.rla.pend.map fun x => if x.sow = k then { x with dead := true } else x }
    de := { s.de with
      banks := s.de.banks.map fun kv => (kv.1, kv.2.map fun d => if d.sow = k then { d with stale := true } else d)
      fallow := s.de.fallow.map fun d => if d.sow = k then { d with stale := true } else d
      jobs := s.de.jobs.filter fun j => j.sow != k
      notices := s.de.notices.filter fun x => x.sow != k
      looks := s.de.looks.filter fun x => x.1 != k }
    pru := { s.pru with segs := s.pru.segs.map fun kv => (kv.1, { kv.2 with aside := kv.2.aside.filter (· != k) }) } }

/-- Node `i` of sowing `k` is lost: its flow, when it has one, goes on (R152), and its lookahead entries end (R168). -/
def State.nodeLost (s : State) (k i : Nat) : State :=
  (match s.sowing? k with
   | some w => s.freeFlow k i w
   | none => s).dropProducers k i

/-- Saved tasks of a sowing that fails are lost, and their slices freed at once (R361). -/
def State.loseSaved (s : State) (k : Nat) : State :=
  s.pru.plots.foldl (fun t kv => (kv.2.saved.filter fun x => x.task.sow == k && !x.begun).foldl (fun u x =>
    ((((u.modSowing k fun w => { w with lost := w.lost + 1 }).nodeLost k x.task.node).bumpEng x.eng 3 1).freeSlice kv.1
      x.slice)) t) s

/-- A sowing enters FAILING (R115) with its one report (R410). A second fault changes nothing here. -/
def State.failSowing (s : State) (k : Nat) (y : Why) : State :=
  match s.sowing? k with
  | none => s
  | some w =>
    if w.st ≠ .active then s
    else
      let s1 := s.setSowing k { w with st := .failing, code := BitVec.ofNat 16 y.code }
      let s2 := if y.silent then s1 else s1.report w.fn
        { code := y.code, plot := some w.plot, sow := some w.id, queue := some w.queue, eng := y.eng, node := y.node,
          detail := y.detail, arg := y.arg }
      let s3 := (((s2.bumpPlot w.plot 2 1).killEntries k).dropFlows k).loseSaved k
      let s4 := engineIds.foldl (fun t e => if (t.engine e).back.task.sow = k then t.withdraw e 1 else t) s3
      engineIds.foldl (fun t e => match (t.engine e).wait with
        | some x => if x.sow = k then t.cancelEngWait e true else t
        | none => t) s4

/-- Changes the plot commands that wait for engine `e`. -/
def State.countPlot (s : State) (e : Nat) (f : PlotCmd → PlotCmd) : State :=
  let g (c : Option PlotCmd) : Option PlotCmd := c.map fun x => if x.wait.contains e then f x else x
  { s with pru := { s.pru with plots := s.pru.plots.map fun kv =>
    (kv.1, { kv.2 with cmd := g kv.2.cmd, move := g kv.2.move }) } }

/-- A task is lost: it counts, in the VALUE of a plot command that waits for its engine too, its flow goes on, its slice is
freed, its sowing fails (R115, R350, R351, R353; log 108). -/
def State.loseTask (s : State) (e : Nat) (t : Task) (y : Why) : State :=
  if t.test then s
  else
  let s0 := s.countPlot e fun c => { c with lost := c.lost + 1 }
  match s0.sowing? t.sow with
  | none => s0
  | some w =>
    let s1 := (s0.setSowing t.sow { w with lost := w.lost + 1 }).nodeLost t.sow t.node
    let s2 := (s1.bumpEng e 3 1).capture
      ⟨0x06, some w.fn, some w.plot, some e, some w.id, some t.node, y.code, 0⟩
    let s3 := match t.slice with
      | some (p, i) => s2.freeSlice p i
      | none => s2
    s3.failSowing t.sow { y with node := some t.node, eng := some e }

/-- Every started and uncompleted task of engine `e` is lost (R34, R35, R182). -/
def State.loseStarted (s : State) (e : Nat) (y : Why) : State :=
  let l := (s.engine e).started
  let s1 := s.modEngine e fun r => { r with
    started := []
    front := match r.front with | .running .. => .empty | f => f
    freeAt := match r.front with | .running .. => s.now | _ => r.freeAt }
  l.foldl (fun t x => t.loseTask e x.2 y) s1

/-! ### Notices (R354) -/

/-- The words of a notice (R354): kind, NSEQ, function, segment, epoch, address, size. -/
def noticeWords (kind : Nat) (nseq : BitVec 8) (fn seg epoch addr size : Nat) : Words :=
  [pack [(0, 4, kind), (8, 8, nseq.toNat), (16, 8, fn), (24, 4, seg), (32, 16, epoch)], BitVec.ofNat 64 (addr % 2 ^ 56),
    pack [(0, 48, size)], 0, 0, 0, 0, 0]

/-- The slice a notice to engine `e` names: a SAVE's, or the one a RESTORE reads. -/
def State.noticeSlice (s : State) (e kind : Nat) : Option (Nat × Nat) :=
  if kind = 1 then (match (s.engine e).preempt with | some p => p.slice | none => none)
  else if kind = 2 then (match (s.engine e).front with | .committed t _ => t.slice | _ => none)
  else none

/-- Writes the next waiting notice of engine `e` when none is outstanding (R354). -/
def State.nextNotice (s : State) (e : Nat) : State :=
  let r := s.engine e
  match r.notice, r.noticeQ with
  | none, (kind, fn, seg) :: q =>
    let n := r.nseq + 1
    let (addr, size) := match s.noticeSlice e kind with
      | some (p, i) => (s.sliceAddr p i, s.sliceBytes p)
      | none => (0, 0)
    let epoch := if kind = 3 then (s.segment fn seg).epoch.toNat else 0
    ((s.modEngine e fun r => { r with notice := some ⟨kind, n, fn, seg, false, s.now⟩, noticeQ := q, nseq := n }).issue
      (Xfer.make (.notice e) 0 1 true (s.engCfg e).notice 64
        (noticeWords kind n fn (if kind = 3 then seg else 0) epoch addr size) none none))
  | _, _ => s

/-- Asks for a notice to engine `e`. -/
def State.sendNotice (s : State) (e kind fn seg : Nat) : State :=
  (s.modEngine e fun r => { r with noticeQ := r.noticeQ ++ [(kind, fn, seg)] }).nextNotice e

/-- The notice of kind `kind` to engine `e` is consumed: the outstanding one, or one that still waits to be written and then is
not (R354). -/
def State.consumeNotice (s : State) (e kind : Nat) : State :=
  match (s.engine e).notice with
  | some n =>
    if n.kind = kind then (s.modEngine e fun r => { r with notice := none }).nextNotice e
    else if kind = 3 then s
    else s.modEngine e fun r => { r with noticeQ := r.noticeQ.filter fun x => x.1 != kind }
  | none => s

/-! ### Preempt requests, plot commands and moves (R341, R350 to R352, R358, R359) -/

/-- Counts a task of engine `e` that has ended: as lost when a function reset waits for the engine (R414, step 4; log
108). -/
def State.countTask (s : State) (e : Nat) (f : PlotCmd → PlotCmd) : State :=
  s.countPlot e (if s.ftt.resets.any fun kv => kv.2.wait.contains e then fun c => { c with lost := c.lost + 1 } else f)

/-- Status with which a plot command retires (R350). -/
def PlotCmd.status (c : PlotCmd) : Nat := if c.noresp then 0x45 else if c.fail then 0x44 else 0
/-- VALUE of PLOT_PREEMPT (R350). -/
def PlotCmd.value (c : PlotCmd) : W64 := pack [(0, 16, c.saved), (16, 16, c.done), (32, 16, c.lost)]

/-- The queues bound to plot `p` are quiesced (R357): their windows are discarded, but for the packet of a command under way. -/
def State.quiesce (s : State) (p : Nat) (own : Option Nat) : State :=
  { s with hcf := { s.hcf with queues := s.hcf.queues.map fun kv =>
    if kv.2.plot == p && own != some kv.1 && kv.2.held then
      (kv.1, { kv.2 with win := if kv.2.head = .none then [] else kv.2.win.take 1, drop := kv.2.fetching })
    else kv } }

/-- Plot commands that wait for no engine end (R350, R358, R359). -/
def State.finishPlot (s : State) (p : Nat) : State :=
  let r := s.plot p
  let s1 := match r.cmd with
    | some c => if c.wait.isEmpty then
        let t := (s.quiesce p c.q).modPlot p fun r => { r with cmd := none, st := .preempted }
        (match c.q with | some q => t.retire q c.status c.value | none => t)
      else s
    | none => s
  match (s1.plot p).move with
  | some c => if c.wait.isEmpty then
      let t := s1.modPlot p fun r => { r with move := none }
      (match c.q with | some q => t.retire q c.status 0 | none => t)
    else s1
  | none => s1

/-- Drives the preempt request of engine `e` (R28, R354). -/
def State.drivePreempt (s : State) (e : Nat) (p : Preempt) : State :=
  let t := match (s.engine e).front with | .running t _ => some t | _ => none
  let w := t.bind fun t => s.sowing? t.sow
  let s1 : State := if s.looped (e / 16) then s else { s with pins := { s.pins with
    preOut := s.pins.preOut.ins (e / 16) (pack [(0, 4, e % 16), (4, 2, p.grain)]) } }
  (s1.modEngine e fun r => { r with preempt := some { p with driven := some s.now } }).capture
    ⟨0x07, w.map (·.fn), w.map (·.plot), some e, w.map (·.id), t.map (·.node), p.grain, 0⟩

/-- Engine `e` neither runs nor is about to run a task that a preemption waits for. -/
def Front.still : Front → Bool
  | .empty | .committed .. => true
  | _ => false

/-- The saved-slice of a request: taken when its SAVE notice is asked for (R356); none for a function reset (R414). -/
def State.noteSave (s : State) (e : Nat) (p : Preempt) : State :=
  match (s.engine e).front with
  | .running t _ =>
    let fn := t.sow / 2 ^ 32
    let plot := match s.sowing? t.sow with | some w => w.plot | none => 0
    let slice := match p.cause with
      | .fnReset _ => none
      | _ => (s.freeSlice? plot).map fun i => (plot, i)
    let s1 := s.modEngine e fun r => { r with preempt := some { p with noted := true, slice := slice } }
    let s2 := match slice with
      | some (q, i) => s1.modPlot q fun r => { r with
          busySlices := r.busySlices ++ [i]
          saveTokens := if r.savePhase then r.saveTokens else 0
          savePhase := true }
      | none => s1
    s2.sendNotice e 1 fn 0
  | _ => s

/-- The outstanding notice of engine `e` is a SAVE its mesh has acknowledged. -/
def Engine.saveReady (r : Engine) : Bool := match r.notice with | some n => n.kind == 1 && n.acked | none => false

/-- A slice taken for a save that did not happen is free again. -/
def State.dropSlice (s : State) (p : Preempt) : State :=
  match p.slice with
  | some (q, i) => s.modPlot q fun r => { r with busySlices := r.busySlices.filter (· != i) }
  | none => s

/-- Engine `e`'s preempt request counts as answered (R351, R352), its SAVE notice as consumed. -/
def State.answered (s : State) (e : Nat) : State :=
  (s.modEngine e fun r => { r with preempt := none }).consumeNotice e 1

/-- What engine `e`'s preempt request can do now: its SAVE notice, then the request; a request that finds no task and
no notice lapses (R350), and so does one not yet sent to an engine that a swap has made a spare (R1). -/
def State.stepPreempt (s : State) (e : Nat) : State :=
  let r := s.engine e
  match r.preempt with
  | none => s
  | some p =>
    if p.driven.isSome then s
    else if !s.active e then (s.dropSlice p).answered e
    else if r.token.isSome || r.back.st ≠ .empty then s
    else if p.noted then (if r.saveReady then s.drivePreempt e p else s)
    else match r.front with
      | .running .. => if p.grain = 1 then s.drivePreempt e p else s.noteSave e p
      | .driven .. => s
      | _ => s.modEngine e fun r => { r with preempt := none }

/-- Engine `e` has nothing under way that a plot command or move waits for. -/
def Engine.quiet (r : Engine) : Bool :=
  r.front.still && r.back.st == .empty && r.token.isNone && r.preempt.isNone

/-- A directory write of a task that engine `e` saved is not settled: the save may still count as failed (R355). -/
def State.savingDir (s : State) (e : Nat) : Bool :=
  (s.mesh.out ++ s.mesh.waiting).any fun x => match x.purpose with
    | .saveDir p i => (s.plot p).saved.any fun y => y.slice == i && y.eng == e
    | _ => false

/-- After any event of engine `e`: its preempt request goes on, an engine on the move joins its new plot, and the
commands that waited for it go on (R341, R350, R358, R359, R414). -/
def State.settleEngine (s : State) (e : Nat) : State :=
  let s1 := s.stepPreempt e
  let r := s1.engine e
  if r.quiet then
    let s2 := if r.moving.isSome && r.front == .empty then
        s1.modEngine e fun r => { r with moving := none, lent := !r.lent } else s1
    let rm (c : Option PlotCmd) : Option PlotCmd :=
      if s2.savingDir e then c else c.map fun x => { x with wait := x.wait.filter (· != e) }
    let s3 : State := { s2 with
      pru := { s2.pru with plots := s2.pru.plots.map fun kv =>
        (kv.1, { kv.2 with cmd := rm kv.2.cmd, move := if (s2.engine e).moving.isSome then kv.2.move else rm kv.2.move }) }
      ftt := { s2.ftt with resets := s2.ftt.resets.map fun kv =>
        (kv.1, { kv.2 with wait := kv.2.wait.filter (· != e) }) } }
    s3.pru.plots.foldl (fun t kv => t.finishPlot kv.1) s3
  else s1

/-- A preempt request is made of engine `e` (R28, R350): its held descriptor is withdrawn first. A request already
made stands (R26), and a spare gets none (R1). -/
def State.requestPreempt (s : State) (e grain : Nat) (cause : Cause) : State :=
  if (s.engine e).preempt.isSome || !s.active e then s
  else ((s.withdraw e 2).modEngine e fun r => { r with preempt := some ⟨grain, cause, none, false, none⟩ }).settleEngine e

/-! ### Incarnations, engines out of service (R25, R184 to R186) -/

/-- Engine `e` counts as having acknowledged every withdrawal (R367). -/
def State.ackSegments (s : State) (e : Nat) : State :=
  { s with pru := { s.pru with segs := s.pru.segs.map fun kv =>
    (kv.1, { kv.2 with unacked := kv.2.unacked.filter (· != e), holders := kv.2.holders.filter (· != e) }) } }

/-- The HGS raises its copy of engine `e`'s incarnation (R185): the expected SEQ restarts, its wait is cancelled
(R243), OPSEQ and SHF_ERES restart (R241, R269), its segment buffer is empty (R367). -/
def State.raiseInc (s : State) (e : Nat) : State :=
  ((s.cancelEngWait e false).modEngine e fun r => { r with
    inc := r.inc + 1, seqx := 0, nextSeq := 0, eres := { r.eres with opseq := 0 }
    shf := Engine.reset.shf }).ackSegments e

/-- Engine `e` gave no answer (R25, R352, R367, R414): it leaves service, an outstanding RELEASE counts as started and
is lost, any other held node is unstarted, its tasks are lost with ENGINE_NORESP (R185). -/
def State.noAnswer (s : State) (e detail : Nat) : State :=
  let r := s.engine e
  let y : Why := { code := 0x10A, detail := detail }
  let s1 := match r.preempt with | some p => (s.dropSlice p).answered e | none => s
  let s2 := if r.back.st = .releasing ∧ r.back.sent = true then
      (s1.modEngine e fun r => { r with back := Back.reset, backAt := s.now, freeAt := s.now }).loseTask e r.back.task y
    else (s1.modEngine e fun r => { r with back := { r.back with trigger := 7 } }).emptyBack e none
  ((s2.modEngine e fun r => { r with token := none, service := .out, flushed := false }).loseStarted e y).settleEngine e

/-- Engine `e` is taken out of service for targeted self-test once its held descriptor has gone (R182, R184). -/
def State.takeOut (s : State) (e : Nat) : State :=
  ((s.withdraw e 7).modEngine e fun r => { r with service := .out, flushed := false }).settleEngine e

/-! ### Layer digests (R189) -/

/-- A write of step 1 of the end action of sowing `k` has failed: the semaphore signal and the signal write are not
performed (R216, R40). -/
def State.mute (s : State) (k : Nat) : State :=
  s.modSowing k fun w => { w with act := { w.act with semv := false, sigv := false } }

/-- An address of the end action of sowing `w` does not translate (R189, R216). -/
def State.endFault (s : State) (k : Nat) (w : Sowing) (status : Nat) : State :=
  (s.mute k).report w.fn (transferReport status 2 (some w.queue) (some w.id))

/-- An addition to the word of layer `l` of sowing `k` is under way. -/
def State.layerBusy (s : State) (k l : Nat) : Bool :=
  (s.mesh.out ++ s.mesh.waiting).any fun x => match x.purpose with
    | .layerRead j m _ => j == k && m == l
    | .layerWrite j m => j == k && m == l
    | _ => false

/-- A transfer of the word of layer `l` of sowing `k`, under the function's segments at QoS 3. -/
def State.layerXfer (s : State) (k : Nat) (w : Sowing) (l : Nat) (u : Purpose) (need : Need) (data : Words) : State :=
  let a := w.act.ldaddr + BitVec.ofNat 64 (8 * l)
  match s.translate w.fn a 8 need (some w.plot) true with
  | .ok p => s.issue (Xfer.make u w.fn 3 (need == .write) p 8 data (some ⟨a, need, some w.plot, true⟩) (some w.plot))
  | .fault => s.endFault k w stSegFault
  | .stale => s.endFault k w stSegStale

/-- A partial sum that has left the cache is added to its word: the word is read first; one whose word an earlier addition
still concerns waits for it. -/
def State.addLayer (s : State) (k l : Nat) (v : W64) : State :=
  match s.sowing? k with
  | none => s
  | some w =>
    if s.layerBusy k l then s.setSowing k { w with layerWait := w.layerWait ++ [(l, v)] }
    else s.layerXfer k w l (.layerRead k l v) .read []

/-- The partial sum of layer `l` of sowing `k` leaves the cache. -/
def State.evictLayer (s : State) (k : Nat) (w : Sowing) (l : Nat) : State :=
  match w.layers.look? l with
  | none => s
  | some v => (s.setSowing k { w with layers := w.layers.del l }).addLayer k l v

/-- The word of a layer has been read: the sum goes back. -/
def State.layerBack (s : State) (k l : Nat) (v : W64) (old : W64) : State :=
  match s.sowing? k with
  | none => s
  | some w => s.layerXfer k w l (.layerWrite k l) .write [old + v]

/-- An addition to the word of layer `l` of sowing `k` is over: the next one that waits for the word goes on. -/
def State.layerNext (s : State) (k l : Nat) : State :=
  match s.sowing? k with
  | none => s
  | some w =>
    if s.layerBusy k l then s
    else (w.layerWait.filter fun x => x.1 == l).foldl (fun t x => t.addLayer k l x.2)
      (s.setSowing k { w with layerWait := w.layerWait.filter fun x => x.1 != l })

/-- Entries of the cache that are in use. -/
def State.layersHeld (s : State) : Nat := (s.sow.live.map fun kv => kv.2.layers.length).sum

/-- Makes room for one entry when all 4,096 are in use: the entry of the sowing and layer listed first leaves. R189 does not
say which does. DESIGN CHOICE (log 119). -/
def State.roomLayer (s : State) : State :=
  if s.layersHeld < 4096 then s
  else match s.sow.live.find? fun kv => !kv.2.layers.isEmpty with
    | some (k, w) => (match w.layers with
      | (l, _) :: _ => s.evictLayer k w l
      | [] => s)
    | none => s

/-- Layer partial sums are kept for the sowing. -/
def State.layered (s : State) (w : Sowing) : Bool :=
  w.act.ldv && match s.graph? w.graph with | some g => decide (0 < g.l) | none => false

/-- The contribution `c` of a node of layer `l` joins its partial sum in the cache. -/
def State.foldLayer (s : State) (k l : Nat) (c : W64) : State :=
  match s.sowing? k with
  | none => s
  | some w =>
    if !s.layered w then s
    else match w.layers.look? l with
      | some v => s.setSowing k { w with layers := w.layers.ins l (v + c) }
      | none => s.roomLayer.modSowing k fun x => { x with layers := x.layers.ins l c }

/-! ### Retirement (R78, R131, R187 to R189) -/

/-- Node `i` retires with status OK and an output digest (R78, R187): it counts, folds, and its edges are to be read. -/
def State.retireNode (s : State) (k i : Nat) (digest : W64) (src : Option Nat) : State :=
  match s.sowing? k with
  | none => s
  | some w =>
    let n := s.node w i
    let c := contribution i digest
    let w1 := { w with done := w.done + 1, retired := w.retired + 1 }
    if w.st ≠ .active then s.setSowing k w1
    else
      let s1 := if nNodigest n then s.setSowing k w1
        else (s.setSowing k { w1 with digest := w1.digest + c }).foldLayer k (nLayer n) c
      if nFanout n = 0 then s1
      else { s1 with de := { s1.de with jobs := s1.de.jobs ++ [⟨k, i, src, 0⟩] } }

/-- The engine that holds node `i` of sowing `k`: the hold is committed, and no withdrawal of it has returned (R4, R137,
R172). -/
def State.holder? (s : State) (k i : Nat) : Option Nat :=
  engineIds.find? fun e =>
    let b := (s.engine e).back
    b.st != .empty && b.task.sow == k && b.task.node == i

/-- A held node's counter reached 0 (R169). -/
def State.heldZero (s : State) (e : Nat) : State :=
  s.modEngine e fun r => match r.back.st with
    | .writing => { r with back := { r.back with zeroAt := some s.now } }
    | .held => { r with back := { r.back with zeroAt := some s.now, st := if r.front == .empty then .held else .pending } }
    | _ => r

/-- The commit to hold of engine `e` loses to the decrement to 0 of its own sc (R137): it does not take place, charges
nothing and leaves the node's flow as it was. -/
def State.undoHold (s : State) (e : Nat) (w : Sowing) : State :=
  let b := (s.engine e).back
  let n := s.node w b.task.node
  let i := s.classOf w n * 16 + nGroup n
  let s1 := s.modEngine e fun r => { r with back := Back.reset }
  let s2 : State := { s1 with
    dcs := { s1.dcs with seqB := s1.dcs.seqB.adj [] (e / 16) fun l => l.filter (· != e) }
    rla := { s1.rla with arbs := s1.rla.arbs.adj Arb.reset (w.plot * 3 + nKind n) fun a =>
      { a with deficit := a.deficit.adj 0 i (· + (b.charged : Int)) } }
    inSc := { s1.inSc with events := s1.inSc.events.filter fun x =>
      !(x.type == 2 && x.eng == some e && x.node == some b.task.node) } }
  let s3 := if nFlowv n then s2.setFlow (flowKey w.plot n) { s2.flow (flowKey w.plot n) with st := b.flowWas } else s2
  s3.bumpEng e 5 (2 ^ 64 - 1)

/-- A page of a fallow graph is used now (R100). -/
def State.touch (s : State) (h p : Nat) : State :=
  s.modGraph h fun g => { g with frames := g.frames.map fun f => if f.page = p then { f with lastUse := s.now } else f }

/-- A node that is not held goes where R139 sends it, an output of bank `bank` (R147). -/
def State.routeFree (s0 : State) (k i bank : Nat) (w : Sowing) : State :=
  let s := s0.touch w.graph (pageOf i)
  let n := s.node w i
  if nKind n = 15 ∧ nDlyv n = false then (s.setCtrState k i .passed).retireNode k i 0 none
  else if nDlyv n then s.enterDelay k i
  else s.enterReady k i (.de bank)

/-- A node whose counter reached 0 in bank `bank` is routed (R139); a commit to hold it in this sc has lost (R137). -/
def State.route (s : State) (k i bank : Nat) : State :=
  match s.sowing? k with
  | none => s
  | some w =>
    if w.st ≠ .active then s.setCtrState k i .passed
    else match s.holder? k i with
      | some e =>
        if (s.engine e).back.st = .writing ∧ (s.engine e).back.holdAt = s.now then (s.undoHold e w).routeFree k i bank w
        else (s.setCtrState k i .passed).heldZero e
      | none => s.routeFree k i bank w

end Sys2Proof.Machine
end

