-- ==== Sys2Proof/Machine/Cores.lean ====
section
/-! DEFINITION. Fall-back programs on the control cores (R221 to R225): CORE_CALL, its start, the program's run, the
services, traps and the budget. -/
namespace Sys2Proof.Machine

/-- The program in the sandbox of core `c` + 1. -/
def State.prog? (s : State) (c : Nat) : Option Program := s.ccx.progs.look? c
/-- Writes the program of sandbox `c`. -/
def State.setProg (s : State) (c : Nat) (p : Program) : State :=
  { s with ccx := { s.ccx with progs := s.ccx.progs.ins c p } }

/-- A transfer that fills or serves sandbox `c`. -/
def Purpose.ofCore (c : Nat) : Purpose → Bool
  | .coreImage _ k | .coreLoad k | .coreStore k => k == c
  | _ => false

/-- Sandbox `c` is free: no program in it, its core not stopped (R411), no transfer of an earlier program left. -/
def State.sandboxFree (s : State) (c : Nat) : Bool :=
  (s.prog? c).isNone && !s.ccx.stopped.contains c
    && (s.mesh.out ++ s.mesh.waiting).all fun x => !x.purpose.ofCore c

/-- The free sandbox a CORE_CALL takes. -/
def State.freeSandbox? (s : State) : Option Nat := [0, 1, 2].find? s.sandboxFree

/-- CORE_CALL (R221): it waits behind those that wait already. -/
def execCoreCall (q : Fin 16384) (s : State) : Host.Outcome State Fault Refusal :=
  s.command q (fun p => opcode p == 0x22) fun p t =>
    if nowait p && (t.freeSandbox?.isNone || !t.ccx.waiting.isEmpty) then t.retire q 0x1A 0
    else State.stall { t with ccx := { t.ccx with waiting := t.ccx.waiting ++ [q.val] } } q 9 .coreWait

/-- Registers a program starts with (R222), by number; the others are 0. -/
def startRegs (q : Nat) (p : BitVec 512) : Tab W64 :=
  let put (t : Tab W64) (x : Nat × W64) : Tab W64 := t.put 0 x.1 x.2
  [(1, 0x18000), (2, 0x18000), (10, pw p 4), (11, pw p 5), (12, pw p 6), (13, pw p 7),
    (14, BitVec.ofNat 64 (fnOfQueue q)), (15, BitVec.ofNat 64 q)].foldl put []

/-- CORE_CALL_START (R221, R222): the first CORE_CALL that waits takes a free sandbox, and its image is read. -/
def execCoreCallStart (q : Fin 16384) (s : State) : Host.Outcome State Fault Refusal :=
  match s.freeSandbox?, s.headPacket? q with
  | some c, some p =>
    let n := fnOfQueue q
    let prog : Program := ⟨q, n, pf p 0 32 14, none, BitVec.ofNat 64 (pf p 3 32 16), startRegs q p, [], [], none, 0, false, none⟩
    let s1 : State := State.stall { s with ccx := { s.ccx with waiting := s.ccx.waiting.tail } } q 9 (.coreRun c)
    s.when (s.ccx.waiting.head? == some q.val)
      (match s.translate n (pw p 2) (pf p 3 0 17) .read (some (s.queue q).plot) false with
       | .ok a => (s1.setProg c prog).issue (Xfer.make (.coreImage q c) n 2 false a (pf p 3 0 17) []
           (some ⟨pw p 2, .read, some (s.queue q).plot, false⟩) none)
       | .fault => s1.retire q stSegFault 0
       | .stale => s1.retire q stSegStale 0)
  | _, _ => .next s

/-- The image has arrived (R221): the program starts, the sandbox 0 past the image, and fetch sees it as it stands. -/
def State.coreImage (s : State) (c : Nat) (ws : Words) : State :=
  match s.prog? c with
  | some p =>
    let m := Tab.putAll 0 [] 0 ws
    s.setProg c { p with mem := m, code := m, start := some s.now }
  | none => s

/-- The image could not be read (R221): the program does not run. -/
def State.coreImageFailed (s : State) (c status : Nat) : State :=
  match s.prog? c with
  | some p => State.retire { s with ccx := { s.ccx with progs := s.ccx.progs.del c } } p.q status 0
  | none => s

/-- The program that has ended retires its CORE_CALL once every store is acknowledged (R224); the sandbox is zeroed with
it (R225). -/
def State.coreRetire (s : State) (c : Nat) : State :=
  match s.prog? c with
  | some p => match p.exiting with
    | some (status, v) =>
      if p.stores = 0 then State.retire { s with ccx := { s.ccx with progs := s.ccx.progs.del c } } p.q status v else s
    | none => s
  | none => s

/-- The program in sandbox `c` ends with a status and VALUE. -/
def State.coreEnd (s : State) (c status : Nat) (v : W64) : State :=
  match s.prog? c with
  | some p => (s.setProg c { p with exiting := some (status, v), loading := false }).coreRetire c
  | none => s

/-- The program runs: it has started, has not ended, and awaits no LOAD. -/
def Program.runs (p : Program) : Bool := p.start.isSome && p.exiting.isNone && !p.loading

/-- One instruction of the program in sandbox `c`; nothing where it stands at an end, a service or a trap. A counter it
reads is a free value (log 80). -/
def State.runProgram (s : State) (c : Nat) : State :=
  match s.prog? c with
  | some p =>
    let (w, t) := match p.fetch with | some (.counter _, _) => s.drawWord | _ => (0, s)
    if p.runs then (match p.turn w with | some r => t.setProg c r | none => s) else s
  | none => s

/-- The programs run for one sc: DESIGN CHOICE (log 80), one instruction of each. -/
def State.runPrograms (s : State) : State := [0, 1, 2].foldl State.runProgram s

/-- The frame of a service of sandbox `c`'s program, which is what it stands at; one that must follow the stores waits until
they are acknowledged (R224, R235). -/
def State.service (s : State) (c : Nat) (here : Program → Bool) (fenced : Bool) (f : Program → State) :
    Host.Outcome State Fault Refusal :=
  match s.prog? c with
  | some p => s.when (p.runs && here p && (!fenced || p.stores == 0)) (f p.past)
  | none => .next s

/-- The plot of the program's queue. -/
def State.progPlot (s : State) (p : Program) : Option Nat := some (s.queue p.q).plot

/-- ECALL_EXIT, or the jump to 0x0001_8000 (R222, R224). -/
def execEcallExit (core : Fin 3) (a0 : W64) (s : State) : Host.Outcome State Fault Refusal :=
  s.service core (fun p => (p.atExit || p.calls 0) && p.reg 10 == a0) false fun _ => s.coreEnd core 0 a0

/-- ECALL_LOAD (R224); an address that is misaligned or does not translate fails the service. -/
def execEcallLoad (core : Fin 3) (address : W64) (s : State) : Host.Outcome State Fault Refusal :=
  s.service core (fun p => p.calls 1 && p.reg 10 == address) false fun p =>
    match (if fld address 0 3 = 0 then s.translate p.fn address 8 .read (s.progPlot p) false else .fault) with
    | .ok a => (s.setProg core { p with loading := true }).issue
        (Xfer.make (.coreLoad core) p.fn 2 false a 8 [] (some ⟨address, .read, s.progPlot p, false⟩) none)
    | _ => s.coreEnd core 0x1B 0

/-- A LOAD has been answered (R224): a0, or the trap of a failed service. -/
def State.coreLoaded (s : State) (c : Nat) (data : Option Words) : State :=
  match s.prog? c, data with
  | some p, some ws =>
    if p.loading then s.setProg c { p with loading := false, regs := p.regs.put 0 10 (ws.at 0) } else s
  | some p, none => if p.loading then s.coreEnd c 0x1B 0 else s
  | none, _ => s

/-- ECALL_STORE (R224): stores go in program order, each after the one before is acknowledged. -/
def execEcallStore (core : Fin 3) (address data : W64) (s : State) : Host.Outcome State Fault Refusal :=
  s.service core (fun p => p.calls 2 && p.reg 10 == address && p.reg 11 == data) true fun p =>
    match (if fld address 0 3 = 0 then s.translate p.fn address 8 .write (s.progPlot p) false else .fault) with
    | .ok a => (s.setProg core { p with stores := p.stores + 1 }).issue
        (Xfer.make (.coreStore core) p.fn 2 true a 8 [data] (some ⟨address, .write, s.progPlot p, false⟩) none)
    | _ => s.coreEnd core 0x1B 0

/-- A STORE has been answered (R224): one that failed ends the program with CORE_TRAP, also when it was about to end
otherwise. -/
def State.coreStored (s : State) (c : Nat) (ok : Bool) : State :=
  match s.prog? c with
  | some p =>
    let s1 := s.setProg c { p with stores := p.stores - 1 }
    if ok then s1.coreRetire c else s1.coreEnd c 0x1B 0
  | none => s

/-- ECALL_SEM (R224, R230, R231, R238): a wait, a refused operation and an undeclared signal trap. VAL1 of a CAS is free:
the service has one operand (log 49). -/
def execEcallSem (core : Fin 3) (index op operand : W64) (s : State) : Host.Outcome State Fault Refusal :=
  s.service core (fun p => p.calls 3 && p.reg 10 == index && p.reg 11 == op && p.reg 12 == operand) true fun p =>
    let m := index.toNat
    let o := op.toNat
    let v0 : BitVec 32 := operand.truncate 32
    let bad := decide (262144 ≤ m) || decide (6 ≤ o) || (o == 5 && decide (v0.toInt < 1)) || s.semCheck p.fn p.q m o != 0
    let (w, s1) := if o = 4 then s.drawWord else (0, s)
    if bad then s.coreEnd core 0x1B 0
    else match s1.semOp m o v0 (w.truncate 32) with
      | (.ends v _, t) => t.setProg core { p with regs := p.regs.put 0 10 (v.signExtend 64) }
      | (.waits, _) => s.coreEnd core 0x1B 0

/-- ECALL_NOW (R224). -/
def execEcallNow (core : Fin 3) (s : State) : Host.Outcome State Fault Refusal :=
  s.service core (·.calls 4) false fun p => s.setProg core { p with regs := p.regs.put 0 10 (s.dlyNow.zeroExtend 64) }

/-- CORE_TRAP (R223): the program stands at something the rule forbids. -/
def execCoreTrap (core : Fin 3) (s : State) : Host.Outcome State Fault Refusal :=
  s.service core Program.traps false fun _ => s.coreEnd core 0x1B 0

/-- CORE_BUDGET (R225): BUDGET µs since entry. -/
def execCoreBudget (core : Fin 3) (s : State) : Host.Outcome State Fault Refusal :=
  match s.prog? core with
  | some p => match p.start with
    | some t => s.when (p.exiting.isNone && s.since t (p.budget * scPerUs)) (s.coreEnd core 0x1C 0)
    | none => .next s
  | none => .next s

/-- Function `n`'s programs end at once (R225). -/
def State.dropPrograms (s : State) (n : Nat) : State :=
  { s with
    ccx := { s.ccx with progs := s.ccx.progs.filter fun kv => kv.2.fn != n
                        waiting := s.ccx.waiting.filter fun q => fnOfQueue q != n } }

end Sys2Proof.Machine
end

