-- ==== Sys2Proof/Machine/Drill.lean ====
section
/-! DEFINITION. The arbiter and the drill (R129 to R178): decrements and routing, arbitration, holds, descriptors, tokens,
delay lists, sweeps, the start queue and the power domains. -/
namespace Sys2Proof.Machine

/-! ### Dependency engine (R129 to R137) -/

/-- Bank of a node's counter (R129). -/
def ctrBank (i : Nat) : Nat := bits i 0 4 ^^^ bits i 4 4 ^^^ bits i 8 4 ^^^ bits i 12 4 ^^^ bits i 16 4

/-- Resident or frame index of node `i` (R129): in a fallow graph, its place in the frame that holds its page. -/
def Graph.ctrIndex (g : Graph) (i : Nat) : Nat :=
  if g.fallow then (match g.frames.find? fun f => f.page == pageOf i with | some f => f.slot | none => 0) * 4096 + i % 4096
  else i

/-- The bank input queues (R132). -/
def State.bank (s : State) (b : Nat) : List Dec := s.de.banks.look [] b

/-- A transfer of the page of node `i` is in progress (R101). -/
def Graph.inTransfer (g : Graph) (i : Nat) : Bool := g.pages.any fun x => x.page == pageOf i

/-- The counter of node `i` is in the DE now: its page is resident and in no transfer (R101). -/
def Graph.here (g : Graph) (i : Nat) : Bool := g.resident i && !g.inTransfer i

/-- Sowing `k` belongs to the first lane: its plot is deterministic (R317). -/
def State.firstLane (s : State) (k : Nat) : Bool :=
  match s.sowing? k with
  | some w => (s.plotCfg w.plot).det
  | none => false

/-- The next of a queue that serves two lanes: the first of the deterministic plots', else the first (R317). -/
def nextOf {α : Type} (lane : α → Bool) (l : List α) : Option α := (l.find? lane).or l.head?

/-- A decrement enters its bank queue, or waits for the workspace (R101, R132). -/
def State.sendDec (s : State) (g : Graph) (d : Dec) : State :=
  if g.here d.node then
    { s with de := { s.de with banks := s.de.banks.adj [] (ctrBank (g.ctrIndex d.node)) fun l => l ++ [d] } }
  else { s with de := { s.de with fallow := s.de.fallow ++ [d] } }

/-- Out-edge `j` of node `i` (R81). -/
def Graph.edge (g : Graph) (i j : Nat) : BitVec 32 := g.edges.look 0 (g.edgeKey i + j)

/-- The decrements of one line of 16 slots of a job (R131). -/
def EdgeJob.line16 (j : EdgeJob) (g : Graph) : List Dec :=
  let n := nFanout (g.nodes.look 0 j.node)
  ((List.range 16).filter fun x => 16 * j.line + x < n).map fun x =>
    let ed := g.edge j.node (16 * j.line + x)
    ⟨j.sow, eTarget ed, j.src, eProducer ed, false⟩

/-- No bank queue would overflow (R132): decrements that go to the workspace take no room. -/
def State.lineFits (s : State) (g : Graph) (l : List Dec) : Bool :=
  (List.range 16).all fun b =>
    decide ((s.bank b).length + (l.filter fun d => g.here d.node && ctrBank (g.ctrIndex d.node) == b).length ≤ 64)

/-- EDGE_LINE_READ (R131, R132, R317): the next line of the oldest job of the first lane, or of the second; the reader then
serves the next job of the lane. A line that is held holds every later one. -/
def execEdgeLineRead (s : State) : Host.Outcome State Fault Refusal :=
  match nextOf (fun j => s.firstLane j.sow) s.de.jobs with
  | none => .next s
  | some j =>
    let r := s.de.jobs.erase j
    match s.sowing? j.sow with
    | none => s.when true { s with de := { s.de with jobs := r } }
    | some w => match s.graph? w.graph with
      | none => s.when true { s with de := { s.de with jobs := r } }
      | some g =>
        let l := j.line16 g
        let more := decide (16 * (j.line + 1) < nFanout (g.nodes.look 0 j.node))
        let s1 : State := { s with de := { s.de with jobs := if more then r ++ [{ j with line := j.line + 1 }] else r } }
        s.when (s.lineFits g l) ((l.foldl (fun t d => t.sendDec g d) s1).bumpChip 1 1)

/-- A one-left notice is raised for node `i` (R135, R136). -/
def State.oneLeft (s : State) (w : Sowing) (g : Graph) (d : Dec) : State :=
  let n := g.nodes.look 0 d.node
  if nNopresow n || nDlyv n || nKind n == 15 || w.st != .active || !g.resident d.node then s
  else { s with de := { s.de with notices := s.de.notices ++ [⟨d.sow, d.node, d.src, d.producer⟩] } }

/-- Applies one decrement to its counter (R112, R133, R135, R139). -/
def State.applyDec (s : State) (d : Dec) : State :=
  match s.sowing? d.sow with
  | none => if d.stale then s else s.errlog { code := 0x806 }
  | some w =>
    if d.stale || w.st == .failing then s
    else if w.st != .active then s.errlog { code := 0x806 }
    else match s.graph? w.graph with
      | none => s
      | some g =>
        let c := w.counter g d.node
        if c.cnt = 0 ∨ c.st ≠ .counting then s.failSowing d.sow { code := 0x10D, node := some d.node }
        else
          let s1 := (s.setSowing d.sow (w.setCounter d.node ⟨c.cnt - 1, .counting⟩)).bumpChip 0 1
          if c.cnt = 1 then s1.route d.sow d.node (ctrBank (g.ctrIndex d.node))
          else if c.cnt = 2 then s1.oneLeft w g d
          else s1

/-- The counter of a decrement is in the DE: its page has not left, and is in no transfer (R101). -/
def State.decHere (s : State) (d : Dec) : Bool :=
  match s.sowing? d.sow with
  | none => true
  | some w => match s.graph? w.graph with
    | none => true
    | some g => g.here d.node

/-- DECREMENT of bank `bank` (R129, R133, R317): the oldest of the first lane, or of the second. One whose page's spill has
begun waits for the end of the transfer (R101). -/
def execDecrement (bank : Fin 16) (s : State) : Host.Outcome State Fault Refusal :=
  match nextOf (fun d => s.firstLane d.sow) (s.bank bank) with
  | none => .next s
  | some d =>
    let s1 : State := { s with de := { s.de with banks := s.de.banks.put [] bank ((s.bank bank).erase d) } }
    s.when true (if s.decHere d then s1.applyDec d else { s1 with de := { s1.de with fallow := s1.de.fallow ++ [d] } })

/-- The decrement may be applied now: its page is not in transfer (R101). -/
def State.decFree (s : State) (d : Dec) : Bool :=
  match s.sowing? d.sow with
  | none => true
  | some w => match s.graph? w.graph with
    | none => true
    | some g => !g.inTransfer d.node

/-- The sowing and graph of a decrement whose counter is in the workspace; none when it is not to be applied there. -/
def State.decHome (s : State) (d : Dec) : Option (Sowing × Graph) :=
  match s.sowing? d.sow with
  | none => none
  | some w => match s.graph? w.graph with
    | none => none
    | some g => if d.stale || w.st != .active || g.resident d.node then none else some (w, g)

/-! ### Arbitration (R146 to R150, R153, R459) -/

/-- Arbiter of (p, k). -/
def State.arb (s : State) (p k : Nat) : Arb := s.rla.arbs.look Arb.reset (p * 3 + k)
/-- Writes the arbiter of (p, k). -/
def State.setArb (s : State) (p k : Nat) (a : Arb) : State :=
  { s with rla := { s.rla with arbs := s.rla.arbs.put Arb.reset (p * 3 + k) a } }

/-- deficit[c][g]. -/
def Arb.def (a : Arb) (c g : Nat) : Int := a.deficit.look 0 (c * 16 + g)
/-- Writes deficit[c][g]. -/
def Arb.setDef (a : Arb) (c g : Nat) (v : Int) : Arb := { a with deficit := a.deficit.put 0 (c * 16 + g) v }

/-- BE nodes of deterministic plot `p` do not start now (R316). -/
def State.beStopped (s : State) (p : Nat) : Bool := (s.plotCfg p).det && s.tcs.inHead

/-- The head of list (p, k, c, g) is aged (R148). -/
def State.aged (s : State) (p k c g : Nat) : Bool :=
  match s.list (listKey p k c g) with
  | [] => false
  | e :: _ => decide ((if c = 0 then (s.plotCfg p).ageLc else (s.plotCfg p).ageBe) ≤ (s.tcs.tick - e.tick).toNat)

/-- The entries at the head of a list that a decision passes over: dead ones are freed, flow-blocked ones go to the
tail of their flow's chain (R144, R153). -/
def State.strip (s : State) (l : Nat) : List Ready → State
  | [] => s.setList l []
  | e :: r =>
    if e.dead then s.strip l r
    else match s.sowing? e.sow with
      | none => s.strip l r
      | some w =>
        let n := s.node w e.node
        let f := flowKey w.plot n
        if nFlowv n && (s.flow f).st.blocks e.sow e.node then
          (s.setFlow f { s.flow f with chain := (s.flow f).chain ++ [⟨l, e.sow, e.node, false⟩] }).strip l r
        else s.setList l (e :: r)

/-- The 32 lists of (p, k). -/
def listKeys (p k : Nat) : List Nat := (List.range 32).map fun j => p * 96 + k * 32 + j

/-- Every list of (p, k) is brought to a head that can be popped. -/
def State.stripAll (s : State) (p k : Nat) : State := (listKeys p k).foldl (fun t l => t.strip l (t.list l)) s

/-- First aged group of class c after aptr[c], cyclically (R149). -/
def State.agedGroup (s : State) (p k c : Nat) (a : Arb) : Option Nat :=
  ((List.range 16).map fun j => (a.aptr.look 15 c + 1 + j) % 16).find? fun g => s.aged p k c g

/-- drr(c) of R149: at most `fuel` visits (64 suffice: a deficit lies at or above minus its weight). -/
def State.drr (s : State) (p k c : Nat) : Nat → Arb → Option (Nat × Arb)
  | 0, _ => none
  | fuel + 1, a =>
    let g := a.ptr.look 0 c
    let empty := (s.list (listKey p k c g)).isEmpty
    if !empty && decide (1 ≤ a.def c g) then some (g, a.setDef c g (a.def c g - 1))
    else
      let a1 := if empty then a.setDef c g (min (a.def c g) 0) else a
      let g' := (g + 1) % 16
      let w : Int := s.weight p c g'
      let a2 := { a1 with ptr := a1.ptr.put 0 c g' }
      s.drr p k c fuel (a2.setDef c g' (min (a2.def c g' + w) (2 * w)))

/-- Class c of (p, k) has a node. -/
def State.hasWork (s : State) (p k c : Nat) : Bool :=
  (List.range 16).any fun g => !(s.list (listKey p k c g)).isEmpty

/-- A choice of the arbiter: class, group, whether on an aged turn. -/
structure Choice where
  cls  : Nat
  grp  : Nat
  aged : Bool

/-- LC strictly first (R149): the choice, and the arbiter afterwards. -/
def State.byDrr (s : State) (p k : Nat) (cs : List Nat) (a : Arb) : Option Choice × Arb :=
  match cs with
  | [] => (none, a)
  | c :: r =>
    if s.hasWork p k c then
      (match s.drr p k c 64 a with
       | some (g, a') => (some ⟨c, g, false⟩, a')
       | none => s.byDrr p k r a)
    else s.byDrr p k r a

/-- decide(p, k) of R149 on stripped lists: the choice, and the arbiter afterwards, whether or not there is one. -/
def State.arbitrate (s : State) (p k : Nat) : Option Choice × Arb :=
  let a := s.arb p k
  let ok (c : Nat) : Bool := c == 0 || !s.beStopped p
  let cs := [0, 1].filter ok
  if a.turn = 15 then
    let a1 := { a with turn := 0 }
    match (if a.ageflip then [1, 0] else [0, 1]).filter ok |>.find? fun c => (s.agedGroup p k c a1).isSome with
    | some c =>
      let g := (s.agedGroup p k c a1).getD 0
      let a2 := { a1 with ageflip := !a.ageflip, aptr := a1.aptr.put 15 c g }
      (some ⟨c, g, true⟩, a2.setDef c g (max (a2.def c g - 1) (-(s.weight p c g : Int))))
    | none => s.byDrr p k cs a1
  else s.byDrr p k cs { a with turn := a.turn + 1 }

/-! ### Engines for work (R159, R160, R347) -/

/-- Throttle level on cluster `c`'s stack (R347). -/
def State.therm (s : State) (c : Nat) : Nat := fld s.pins.therm (2 * (c / 4)) 2

/-- Engines of cluster `c`. -/
def clusterEngines (c : Nat) : List Nat := (List.range 16).map fun i => c * 16 + i

/-- An engine runs a task, or a front-slot write to it is in flight (R347). -/
def State.busyEng (s : State) (e : Nat) : Bool := (s.engine e).front != .empty

/-- Cluster `c` is at its cap for engines of kind `k` (R347). -/
def State.capped (s : State) (c k : Nat) : Bool :=
  let act := ((clusterEngines c).filter s.active).length
  let busy := ((clusterEngines c).filter s.busyEng).length
  match s.therm c with
  | 0 => false
  | 1 => decide (cdiv (3 * act) 4 ≤ busy)
  | 2 => decide (cdiv act 2 ≤ busy)
  | _ => (clusterEngines c).any fun e => engineKind? e == some k && s.busyEng e

/-- Engine `e` may take work of plot `p` and kind `k`: active, in service, its domain awake, no preemption or move. -/
def State.serves (s : State) (e p k : Nat) : Bool :=
  s.belongs e p k && (s.engine e).service == .inService && s.domain (e / 16) == .awake
    && (s.engine e).preempt.isNone && (s.engine e).moving.isNone && (s.plot p).st == .running

/-- A BE task of a deterministic plot waits for the tick edge (R316). -/
def State.frontStopped (s : State) (t : Task) : Bool :=
  match s.sowing? t.sow with
  | some w => !t.test && s.beStopped w.plot && s.classOf w (s.node w t.node) == 1
  | none => false

/-- The held node of engine `e` has counter 0. -/
def State.heldReady (s : State) (e : Nat) : Bool :=
  let t := (s.engine e).back.task
  match s.sowing? t.sow with
  | none => false
  | some w => match s.graph? w.graph with
    | none => false
    | some g => (w.counter g t.node).cnt == 0

/-- The back slot of engine `e` takes the front slot: its release is decided, or is as soon as the drill sees the held node
(R159, R169). -/
def State.releaseDue (s : State) (e : Nat) : Bool :=
  let b := (s.engine e).back
  b.st == .releasing || (b.st == .held && s.heldReady e && !s.frontStopped b.task)

/-- Engine `e` is eligible for a front-slot write of plot `p` and kind `k` (R159, R347). -/
def State.eligible (s : State) (e p k : Nat) : Bool :=
  s.serves e p k && (s.engine e).front == .empty && !s.releaseDue e && !s.capped (e / 16) k

/-- Of two engines, the one whose front slot fell free earliest; ties to the lowest logical number (R160). -/
def State.earlier (s : State) (a b : Nat) : Nat :=
  if (s.engine b).freeAt < (s.engine a).freeAt ∨
     ((s.engine b).freeAt = (s.engine a).freeAt ∧ (s.engCfg b).logical < (s.engCfg a).logical) then b else a

/-- The earliest of some engines. -/
def State.earliest (s : State) : List Nat → Option Nat
  | [] => none
  | a :: r => match s.earliest r with
    | none => some a
    | some b => some (s.earlier a b)

/-- The engine for a node of plot `p`, kind `k` and record `n` (R160). -/
def State.chooseEngine (s : State) (p k : Nat) (n : BitVec 512) : Option Nat :=
  let el := engineIds.filter fun e => s.eligible e p k
  let aff := if nAffv n then (s.physical? (nAffEng n)).filter fun e => s.eligible e p k else none
  match aff with
  | some e => some e
  | none => match s.earliest (el.filter fun e => (s.engine e).back.st == .empty) with
    | some e => some e
    | none => s.earliest el

/-- Segment of a node's ENTRY, as it stands for the sowing's function. -/
def State.entrySeg (s : State) (w : Sowing) (n : BitVec 512) : Seg := s.segment w.fn (segOf (nEntry n))

/-- A front-slot write is committed to the cluster sequencer (R161); a held node whose counter is 0 is then PENDING (R169). -/
def State.commitFront (s : State) (e : Nat) (t : Task) : State :=
  let s1 := s.modEngine e fun r => { r with
    front := .committed t r.inc
    back := if r.back.st = .held ∧ s.heldReady e = true then { r.back with st := .pending } else r.back }
  { s1 with dcs := { s1.dcs with seqF := s1.dcs.seqF.adj [] (e / 16) fun l => l ++ [e] } }

/-- A popped node is dispatched, set aside, or returned (R115, R160, R368). -/
def State.dispatch (s : State) (p k : Nat) (x : Ready) : State :=
  match s.sowing? x.sow with
  | none => s
  | some w =>
    let n := s.node w x.node
    let g := s.entrySeg w n
    if w.st ≠ .active then s.freeFlow x.sow x.node w
    else if g.wdraw then (s.modSegment w.fn (segOf (nEntry n)) fun r => { r with aside := r.aside ++ [x.sow] }).freeFlow
      x.sow x.node w
    else if g.stale then (s.freeFlow x.sow x.node w).failSowing x.sow { code := 0x103, node := some x.node }
    else match s.chooseEngine p k n with
      | none => s.returnUnstarted x.sow x.node
      | some e => (s.takeFlow x.sow x.node w).commitFront e ⟨x.sow, x.node, k, none, false⟩

/-- A saved task of plot `p` and kind `k` waits to be restored (R353); none whose ENTRY, or whose save area, lies in a segment
that is being withdrawn (R365, R368). -/
def State.restorable (s : State) (p k : Nat) : Option Saved :=
  let area := s.segment (s.plotCfg p).owner (segOf (s.plot p).saveA)
  (s.plot p).saved.find? fun x => x.task.kind == k && x.check.isNone && !x.begun && !area.wdraw &&
    (match s.sowing? x.task.sow with
     | some w => !(s.entrySeg w (s.node w x.task.node)).wdraw
     | none => false)

/-- Number of an engine kind. -/
def kindNum : Kind → Nat
  | .compute => 0
  | .copy => 1
  | .collective => 2

/-- DECISION of (plot, kind) (R149, R160, R353): an eligible engine exists and no saved task goes first. A decision that finds
no node moves the turn counter all the same, as R149's pseudocode has it. -/
def execDecision (plot : Fin 64) (kind : Kind) (s : State) : Host.Outcome State Fault Refusal :=
  let k := kindNum kind
  let t := s.stripAll plot k
  s.when ((engineIds.any fun e => s.eligible e plot k) && (s.restorable plot k).isNone)
    (match t.arbitrate plot k with
     | (none, a) => t.setArb plot k a
     | (some c, a) => match t.list (listKey plot k c.cls c.grp) with
       | [] => t.setArb plot k a
       | x :: r =>
         let t1 := ((t.setArb plot k a).setList (listKey plot k c.cls c.grp) r).bumpPlot plot (3 + c.cls) 1
         (if c.aged then t1.bumpPlot plot 5 1 else t1).dispatch plot k x)

/-! ### Holds (R166 to R168) -/

/-- Engine `e` meets R166 for node `i` of sowing `k`, which no engine holds yet (R4), and whose page is not on its way out
(R102). -/
def State.holdOk (s : State) (e k i : Nat) (w : Sowing) (g : Graph) : Bool :=
  let n := g.nodes.look 0 i
  s.serves e w.plot (nKind n) && (s.engine e).back.st == .empty && (s.engine e).token.isNone
    && (s.plotCfg w.plot).presow && w.st == .active && s.flowPermits k i w && g.here i
    && !(s.entrySeg w n).wdraw && w.counter g i == ⟨1, .counting⟩ && (s.holder? k i).isNone
    && !(s.beStopped w.plot && s.classOf w n == 1)

/-- The drill commits to hold node `i` on engine `e`, candidate `cand` (R137, R150, R169). -/
def State.commitHold (s : State) (e k i cand : Nat) (w : Sowing) : State :=
  let n := s.node w i
  let kind := nKind n
  let c := s.classOf w n
  let a := s.arb w.plot kind
  let wt : Int := s.weight w.plot c (nGroup n)
  let d := max (a.def c (nGroup n) - 1) (-wt)
  let s1 := (s.setArb w.plot kind (a.setDef c (nGroup n) d)).takeFlow k i w
  let s2 := s1.modEngine e fun r => { r with
    back := ⟨.writing, ⟨k, i, kind, none, false⟩, r.inc, s.now, none, (a.def c (nGroup n) - d).toNat,
      (s.flow (flowKey w.plot n)).st, none, none, false, 0⟩ }
  let s3 : State := { s2 with dcs := { s2.dcs with seqB := s2.dcs.seqB.adj [] (e / 16) fun l => l ++ [e] } }
  (s3.bumpEng e 5 1).capture ⟨0x02, some w.fn, some w.plot, some e, some w.id, some i, cand,
    BitVec.ofNat 64 (s.engine e).inc.toNat⟩

/-- The candidates of R167 with their numbers. -/
def State.candidates (s : State) (k i : Nat) (n : BitVec 512) (prod src : Option Nat) : List (Nat × Nat) :=
  let c1 := if nAffv n then (s.physical? (nAffEng n)).map fun e => (e, 1) else none
  let rec2 := (s.dcs.producers.find? fun x => x.1 == k && x.2.1 == i).map fun x => x.2.2.1
  let c2 := (prod.or rec2).map fun e => (e, 2)
  let c3 := src.map fun e => (e, 3)
  [c1, c2, c3].filterMap id

/-- The drill tries to hold node `i` of sowing `k` (R167). -/
def State.tryHold (s : State) (k i : Nat) (prod src : Option Nat) : State :=
  match s.sowing? k with
  | none => s
  | some w => match s.graph? w.graph with
    | none => s
    | some g =>
      match (s.candidates k i (g.nodes.look 0 i) prod src).find? fun c => s.holdOk c.1 k i w g with
      | some (e, c) => s.commitHold e k i c w
      | none => s

/-- ONE_LEFT_NOTICE (R135, R167). -/
def execOneLeftNotice (s : State) : Host.Outcome State Fault Refusal :=
  match s.de.notices with
  | [] => .next s
  | x :: r => s.when true
      (State.tryHold { s with de := { s.de with notices := r } } x.sow x.node none (if x.producer then x.src else none))

/-- One PRODUCER target `y` of a lookahead for node `x` on engine `e` (R168). An entry of `x` for the target names the engine
that `x` goes to now. -/
def State.lookTarget (s : State) (k x y e : Nat) : State :=
  match s.sowing? k with
  | none => s
  | some w => match s.graph? w.graph with
    | none => s
    | some g =>
      let n := g.nodes.look 0 y
      let c := w.counter g y
      if c.st ≠ .counting then s
      else if c.cnt = 1 then
        (if nNopresow n || nDlyv n || nKind n == 15 then s else s.tryHold k y (some e) none)
      else if 1 < c.cnt then
        let l := s.dcs.producers.filter fun z => !(z.1 == k && z.2.1 == y && z.2.2.2 == x)
        if l.length < 4096 then { s with dcs := { s.dcs with producers := l ++ [(k, y, e, x)] } } else s
      else s

/-- PRODUCER_LOOKAHEAD (R168), below every retirement line (R131). -/
def execProducerLookahead (s : State) : Host.Outcome State Fault Refusal :=
  match s.de.looks with
  | [] => .next s
  | (k, i, e) :: r =>
    let s1 : State := { s with de := { s.de with looks := r } }
    s.when s.de.jobs.isEmpty (match s.sowing? k with
      | none => s1
      | some w => match s.graph? w.graph with
        | none => s1
        | some g =>
          (((List.range 16).filter fun j => j < nFanout (g.nodes.look 0 i)).map (g.edge i) |>.filter eProducer).foldl
            (fun t x => t.lookTarget k i (eTarget x) e) s1)

/-! ### Descriptors (R84, R161, R162) -/

/-- The 64-byte descriptor of a task (R84, R417). -/
def State.descriptor (s : State) (t : Task) : Words :=
  if t.test then [0, pack [(58, 4, t.kind)], 0, 1, 0, 0, 0, 0]
  else match s.sowing? t.sow with
  | none => List.replicate 8 0
  | some w => match s.graph? w.graph with
    | none => List.replicate 8 0
    | some g =>
      let n := g.nodes.look 0 t.node
      let args := if nPslotv n then toWords 4 ((if w.bankB then g.bankB else g.bankA).look 0 (nPslot n)).toNat
        else [0, 0, 0, 0]
      [nEntry n, pack [(0, 32, w.id.toNat), (32, 26, t.node), (58, 4, nKind n)],
       pack [(0, 8, w.fn), (8, 6, w.plot), (14, 16, w.graph), (30, 1, nClass n), (31, 1, b2n w.bankB),
         (32, 3, nTgw n), (35, 2, nMxc n), (48, 16, nUser n)], 0] ++ args

/-- The port of cluster `c` drives no beat of an earlier descriptor (R24). -/
def State.portFree (s : State) (c : Nat) : Bool := decide (s.dcs.portAt.look 0 c ≤ s.now)

/-- Drives a descriptor's two beats on engine `e`'s port, which is then busy with the second: key `cluster * 16 + 8` holds
position, slot, hold and incarnation (01_boundary.md, R24). -/
def State.driveDesc (s0 : State) (e slot : Nat) (t : Task) : State :=
  let c := e / 16
  let s : State := { s0 with dcs := { s0.dcs with portAt := s0.dcs.portAt.ins c (s0.now + 2) } }
  let hd := pack [(0, 4, e % 16), (4, 1, slot), (5, 1, slot), (8, 8, (s.engine e).inc.toNat)]
  if s.looped c then s
  else { s with pins := { s.pins with
    descOut := ((s.pins.descOut.ins (c * 16 + 8) hd)).putAll 0 (c * 16) (s.descriptor t) } }

/-- The checks of R161 for the task `t` committed at incarnation `inc` to engine `e`. -/
def State.writeOk (s : State) (e : Nat) (t : Task) (inc : BitVec 8) : Bool :=
  s.active e && (s.engine e).inc == inc &&
    (if t.test then true
     else match s.sowing? t.sow with
       | some w => s.plotOf e == w.plot && w.st == .active && (s.engine e).service == .inService
       | none => false)

/-- A preemption of its plot stops the front-slot write of task `t`; a hold that is committed goes on to its withdrawal
(R169, R350, step 1; log 107). -/
def State.preemptStops (s : State) (t : Task) : Bool :=
  !t.test && match s.sowing? t.sow with
    | some w => (s.plot w.plot).st != .running
    | none => false

/-- A committed front-slot descriptor is not written: its node is unstarted, or its restore stays saved (R161, R353,
R416). -/
def State.dropFront (s : State) (e : Nat) : State :=
  match (s.engine e).front with
  | .committed t _ | .driven t _ =>
    let s1 := (s.modEngine e fun r => { r with front := .empty, freeAt := s.now }).cancelStart fun x => x == .front e
    let s2 : State := { s1 with dcs := { s1.dcs with seqF := s1.dcs.seqF.adj [] (e / 16) fun l => l.filter (· != e) } }
    let s3 : State := match t.slice with
      | some (p, i) => (s2.modPlot p fun r => { r with saved := r.saved.map fun x =>
          if x.slice = i then { x with check := none } else x }).consumeNotice e 2
      | none => if t.test then s2 else s2.returnUnstarted t.sow t.node
    s3.settleEngine e
  | _ => s

/-- A committed descriptor that has not been driven to engine `e` goes back (R350, R359). -/
def State.takeBackFront (s : State) (e : Nat) : State :=
  match (s.engine e).front with
  | .committed t _ => if t.test then s else s.dropFront e
  | _ => s

/-- Beat 0 of a front-slot descriptor is driven (R161, R163, R168). -/
def State.driveFront (s : State) (e : Nat) (t : Task) : State :=
  let w := s.sowing? t.sow
  let n := match w with | some w => s.node w t.node | none => 0
  let s1 := (s.driveDesc e 0 t).modEngine e fun r => { r with front := .driven t s.now }
  if t.test then s1
  else
    let s2 : State := { s1 with de := { s1.de with looks := s1.de.looks ++ [(t.sow, t.node, e)] } }
    match t.slice with
    | some (_, i) => (s2.bumpEng e 12 1).capture ⟨0x09, w.map (·.fn), w.map (·.plot), some e, w.map (·.id), some t.node,
        0, BitVec.ofNat 64 i⟩
    | none =>
      let s3 : State := match w with | some w => s2.bumpPlot w.plot 7 1 | none => s2
      s3.capture
        ⟨0x01, w.map (·.fn), w.map (·.plot), some e, w.map (·.id), some t.node,
          nClass n + 2 * nGroup n + 32 * nKind n, BitVec.ofNat 64 (s.engine e).inc.toNat⟩

/-- The task of a committed front slot. -/
def Front.committed? : Front → Option (Task × BitVec 8)
  | .committed t i => some (t, i)
  | _ => none

/-- The cluster sequencer takes up the front-slot descriptor of engine `e` (R161, R174 to R176). -/
def State.takeFront (s : State) (e : Nat) (t : Task) (inc : BitVec 8) : State :=
  if !s.writeOk e t inc || s.preemptStops t then s.dropFront e
  else
    let s1 : State := { s with dcs := { s.dcs with seqF := s.dcs.seqF.adj [] (e / 16) fun l => l.filter (· != e) } }
    if !s.isStart e then s1.driveFront e t
    else if s1.reservedNow (.front e) then
      ((s1.chargeReserve (s1.plotOf e) (e / 16)).countStart e 0).driveFront e t
    else if s1.admitNow (.front e) then ((s1.chargeShared (e / 16) 1).countStart e 0).driveFront e t
    else s1.enqueueStart (.front e)

/-- The cluster sequencer takes up the hold of engine `e` (R161, R166). -/
def State.takeBack (s : State) (e : Nat) : State :=
  let b := (s.engine e).back
  let s1 : State := { s with dcs := { s.dcs with seqB := s.dcs.seqB.adj [] (e / 16) fun l => l.filter (· != e) } }
  if s.writeOk e b.task b.inc then
    (s1.driveDesc e 1 b.task).modEngine e fun r => { r with back := { r.back with drivenAt := some s.now } }
  else (s1.modEngine e fun r => { r with back := { r.back with trigger := 7 } }).emptyBack e none |>.settleEngine e

/-- DESCRIPTOR_WRITE of a cluster's port, free of an earlier descriptor: front-slot descriptors before back-slot ones (R24,
R161). A hold is taken up after the sc of its commit, in which it may still lose to the decrement to 0 (R137, R166). -/
def execDescriptorWrite (cluster : Fin 32) (s : State) : Host.Outcome State Fault Refusal :=
  let ready (e : Nat) : Bool := match (s.engine e).front.committed? with
    | some (t, _) => !s.frontStopped t
    | none => true
  match (s.dcs.seqF.look [] cluster).find? ready with
  | some e => s.when (s.portFree cluster) (match (s.engine e).front.committed? with
      | some (t, i) => s.takeFront e t i
      | none => { s with dcs := { s.dcs with seqF := s.dcs.seqF.adj [] cluster fun l => l.filter (· != e) } })
  | none => match s.dcs.seqB.look [] cluster with
    | [] => .next s
    | e :: _ => s.when (s.portFree cluster && decide ((s.engine e).back.holdAt < s.now)) (s.takeBack e)

/-- Engine `e` runs a task of function `n`, which is in reset: the task is lost whatever the engine answers, and the
reset waits for the answer (R414, step 4). -/
def State.lostToReset (s : State) (e n : Nat) (t : Task) : State :=
  let s1 := (s.bumpEng e 3 1).capture
    ⟨0x06, some n, some (s.plotOf e), some e, some (BitVec.ofNat 32 t.sow), some t.node, 0x30A, 0⟩
  State.requestPreempt { s1 with ftt := { s1.ftt with resets := s1.ftt.resets.map fun kv =>
    if kv.1 = n then (n, { kv.2 with wait := kv.2.wait ++ [e], tasks := kv.2.tasks + 1 }) else kv } } e 2 (.fnReset n)

/-- The loopback responder counts the starts of a cluster: key `c` the starts, key `64 + e` whether the task that engine
`e` runs is a FAULTN-th one (R455). -/
def State.countLoop (s : State) (e : Nat) (t : Task) : State :=
  let c := e / 16
  if s.looped c && !t.test then
    let n := s.su.loopStarts.look 0 c + 1
    let f := fld s.su.loop 48 16
    { s with su := { s.su with
      loopStarts := (s.su.loopStarts.put 0 c n).put 0 (64 + e) (b2n (decide (f ≠ 0) && n % f == 0)) } }
  else s

/-- A task begins on engine `e` (R162, R183); one of a function in reset is lost (R414). -/
def State.begin (s0 : State) (e : Nat) (t : Task) : State :=
  let s := s0.countLoop e t
  let s1 := (s.modEngine e fun r => { r with
    front := .running t s.now, started := r.started ++ [(r.nextSeq, t)], nextSeq := r.nextSeq + 1,
    testAt := if t.test then some s.now else r.testAt, ran := true }).bumpEng e 0 1
  if !t.test && (s.ftt.resets.look? (t.sow / 2 ^ 32)).isSome then s1.lostToReset e (t.sow / 2 ^ 32) t else s1

/-- The older of the two descriptors driven to engine `e` and not acknowledged: front (some true), back (some false). -/
def Engine.unacked (r : Engine) : Option (Bool × Nat) :=
  match r.front, r.back.st, r.back.drivenAt with
  | .driven _ a, .writing, some b => if a ≤ b then some (true, a) else some (false, b)
  | .driven _ a, _, _ => some (true, a)
  | _, .writing, some b => some (false, b)
  | _, _, _ => none

/-- A restored task has begun: its RESTORE notice is consumed and its saved-list entry only keeps the slice (R353). -/
def State.restored (s : State) (e : Nat) (t : Task) : State :=
  match t.slice with
  | some (p, i) => (s.modPlot p fun r => { r with saved := r.saved.map fun x =>
      if x.slice = i then { x with begun := true } else x }).consumeNotice e 2
  | none => s

/-- A RELEASE waits no longer: its token is driven (R164, R168). -/
def State.driveRelease (s : State) (e : Nat) : State :=
  let b := (s.engine e).back
  let w := s.sowing? b.task.sow
  let s1 := (s.driveToken e 0).modEngine e fun r => { r with back := { r.back with sent := true } }
  let s2 : State := { s1 with de := { s1.de with looks := s1.de.looks ++ [(b.task.sow, b.task.node, e)] } }
  let s3 := match w with | some w => s2.bumpPlot w.plot 6 1 | none => s2
  (s3.bumpEng e 6 1).capture ⟨0x03, w.map (·.fn), w.map (·.plot), some e, w.map (·.id), some b.task.node, 0,
    BitVec.ofNat 64 (s.now - b.holdAt)⟩

/-- A field map swap of this sc is still to be applied: it goes before a release (R170). -/
def State.swapFirst (s : State) : Bool := s.fm.swap.isSome && decide (s.tcs.start + s.tcs.len ≤ s.now)

/-- The drill may release the held node of engine `e` (R3, R164, R169, R174): its counter reached 0 in an earlier sc, the front
slot is free, no token is out, the engine still serves the sowing's plot and the cluster is below its cap. -/
def State.releaseOk (s : State) (e : Nat) : Bool :=
  let r := s.engine e
  let b := r.back
  s.heldReady e && (match b.zeroAt with | some t => decide (t < s.now) | none => true) && r.front == .empty && r.token.isNone
    && r.service == .inService && s.domain (e / 16) == .awake && r.preempt.isNone && r.moving.isNone
    && s.writeOk e b.task b.inc && (s.plot (s.plotOf e)).st == .running && !s.capped (e / 16) b.task.kind
    && !s.frontStopped b.task && !s.swapFirst

/-- The drill decides the release of engine `e` (R164, R174 to R176): RELEASING, sent when the ramp admits it. -/
def State.releaseHeld (s : State) (e : Nat) : State :=
  let s1 := s.modEngine e fun r => { r with back := { r.back with st := .releasing, sent := false } }
  if !s.isStart e then s1.driveRelease e
  else if s1.reservedNow (.release e) then
    ((s1.chargeReserve (s1.plotOf e) (e / 16)).countStart e 0).driveRelease e
  else if s1.admitNow (.release e) then ((s1.chargeShared (e / 16) 1).countStart e 0).driveRelease e
  else s1.enqueueStart (.release e)

/-- The back slot after its acknowledgement (R169, R170): HELD, or PENDING when the counter is 0 and the front slot busy. A
release that was marked goes before a withdrawal that was, unless both were marked in one sc; it goes on by HELD_RELEASE
when no withdrawal was. -/
def State.heldNow (s : State) (e : Nat) : State :=
  let b := (s.engine e).back
  let s1 := s.modEngine e fun r => { r with
    back := { r.back with st := if b.zeroAt.isSome && r.front != .empty then .pending else .held, wdAt := none } }
  if b.wdAt.isNone then s1
  else (if b.zeroAt.isSome && b.zeroAt != b.wdAt && s1.releaseOk e then s1.releaseHeld e else s1).withdraw e b.trigger

/-- DESCRIPTOR_ACCEPTED (R25, R162, R169). -/
def State.onDescriptorAccepted (s : State) (eng : Nat) : Host.Outcome State Fault Refusal :=
  match (s.engine eng).unacked with
  | none => .next s
  | some (true, _) => match (s.engine eng).front with
    | .driven t _ => s.when true ((((s.begin eng t).modEngine eng fun r => { r with ackAt := some s.now }).restored eng
        t).settleEngine eng)
    | _ => .next s
  | some (false, _) => s.when true ((s.heldNow eng).settleEngine eng)
/-- DESCRIPTOR_ACCEPTED from the port. -/
def execDescriptorAccepted (eng : Fin 512) (s : State) : Host.Outcome State Fault Refusal := s.fromPort (eng / 16) (s.onDescriptorAccepted eng)

/-- HELD_RELEASE (R164, R169, R174). -/
def execHeldRelease (eng : Fin 512) (s : State) : Host.Outcome State Fault Refusal :=
  let st := (s.engine eng).back.st
  s.when ((st == .held || st == .pending) && s.releaseOk eng) (s.releaseHeld eng)

/-- MISPREDICT_WITHDRAW (R169): a PENDING node finds another eligible engine. -/
def execMispredictWithdraw (eng : Fin 512) (s : State) : Host.Outcome State Fault Refusal :=
  let b := (s.engine eng).back
  let other := match s.sowing? b.task.sow with
    | some w => engineIds.any fun e => e != eng.val && s.eligible e w.plot b.task.kind
    | none => false
  s.when (b.st == .pending && other) (s.withdraw eng 6)

/-! ### Tokens (R26, R169, R172, R186) -/

/-- TOKEN_STARTED (R27, R162, R169). -/
def State.onTokenStarted (s : State) (eng : Nat) : Host.Outcome State Fault Refusal :=
  let r := s.engine eng
  s.when (r.token == some 0 && r.back.st == .releasing)
    (((s.modEngine eng fun r => { r with token := none, back := Back.reset, backAt := s.now }).begin eng
      r.back.task).settleEngine eng)
/-- TOKEN_STARTED from the port. -/
def execTokenStarted (eng : Fin 512) (s : State) : Host.Outcome State Fault Refusal := s.fromPort (eng / 16) (s.onTokenStarted eng)

/-- TOKEN_WITHDRAWN (R169, R172). -/
def State.onTokenWithdrawn (s : State) (eng : Nat) : Host.Outcome State Fault Refusal :=
  s.when ((s.engine eng).token == some 1)
    (((s.modEngine eng fun r => { r with token := none }).emptyBack eng (some 1)).settleEngine eng)
/-- TOKEN_WITHDRAWN from the port. -/
def execTokenWithdrawn (eng : Fin 512) (s : State) : Host.Outcome State Fault Refusal := s.fromPort (eng / 16) (s.onTokenWithdrawn eng)

/-! ### Delay lists, pending moves, sweeps (R142, R144, R156, R157) -/

/-- An expired node goes on (R157). -/
def State.expire (s : State) (x : Delayed) : State :=
  match s.sowing? x.sow with
  | none => s
  | some w =>
    if x.dead || w.st != .active then s
    else if nKind (s.node w x.node) = 15 then s.retireNode x.sow x.node 0 none
    else s.enterReady x.sow x.node .expiry

/-- The entries of the four lists that have expired, in expiry order, then list order (R156). -/
def State.expired (s : State) : List Delayed :=
  let l := ((List.range 4).map fun j => (s.rla.delays.look [] j).takeWhile fun x => decide (x.expiry ≤ s.delayTicks)).flatten
  l.foldl (fun acc x => insertDelay x acc) []

/-- DELAY_EXPIRY (R156): up to 16 entries leave their lists. -/
def execDelayExpiry (s : State) : Host.Outcome State Fault Refusal :=
  let out := s.expired.take 16
  let left : Tab (List Delayed) :=
    (List.range 4).foldl (fun t j => t.adj [] j fun l => out.foldl (fun m x => m.erase x) l) s.rla.delays
  let s1 : State := { s with rla := { s.rla with delays := left } }
  s.when (!out.isEmpty) (out.foldl State.expire s1)

/-- The oldest pending node of plot `p` that may move (R142). -/
def State.nextPend (s : State) (p : Nat) : Option Pend :=
  let l := s.rla.pend.filter fun x => x.plot == p && !x.dead && (if x.delay then s.mayDelay p else s.mayReady p)
  l.foldl (fun acc x => match acc with
    | none => some x
    | some y => if x.ord < y.ord ∨ (x.ord = y.ord ∧ x.node < y.node) then some x else some y) none

/-- One pending node of plot `p` moves into its list (R142). -/
def State.moveOne (s : State) (p : Nat) : State :=
  match s.nextPend p with
  | none => s
  | some x =>
    let s1 : State := { s with rla := { s.rla with pend := s.rla.pend.erase x } }
    match s1.sowing? x.sow with
    | none => s1
    | some w => if x.delay then (s1.setCtrState x.sow x.node .passed).pushDelay x.sow x.node w
                else (s1.setCtrState x.sow x.node .passed).pushReady x.sow x.node .pending

/-- The plot of a lane that PENDING_MOVE serves next, round-robin (R142, R317). -/
def State.pendPlotOf (s : State) (det : Bool) : Option Nat :=
  ((List.range 64).map fun j => ((if det then s.rla.pendDet else s.rla.pendPtr) + j) % 64).find?
    fun p => (s.plotCfg p).det == det && (s.nextPend p).isSome

/-- The plot that PENDING_MOVE serves next: the first lane's before the second's (R317). -/
def State.pendPlot (s : State) : Option Nat := (s.pendPlotOf true).or (s.pendPlotOf false)

/-- Plot `p` has been served: its lane's round goes on behind it. -/
def State.pendServed (s : State) (p : Nat) : State :=
  if (s.plotCfg p).det then { s with rla := { s.rla with pendDet := (p + 1) % 64 } }
  else { s with rla := { s.rla with pendPtr := (p + 1) % 64 } }

/-- Up to `n` moves, plots served round-robin within their lanes. -/
def State.movePend (s : State) : Nat → State
  | 0 => s
  | n + 1 => match s.pendPlot with
    | none => s
    | some p => ((s.pendServed p).moveOne p).movePend n

/-- PENDING_MOVE (R142). -/
def execPendingMove (s : State) : Host.Outcome State Fault Refusal := s.when s.pendPlot.isSome (s.movePend 16)

/-- Removes up to `n` entries that `f` marks, from the lists in key order; answers what is left to remove. -/
def sweepLists {α : Type} (f : α → Bool) : Tab (List α) → Nat → Tab (List α)
  | [], _ => []
  | (k, l) :: r, n =>
    let d := min n (l.filter f).length
    let l' := (l.foldl (fun (acc : List α × Nat) x => if f x && acc.2 != 0 then (acc.1, acc.2 - 1) else (acc.1 ++ [x], acc.2))
      ([], d)).1
    if l'.isEmpty then sweepLists f r (n - d) else (k, l') :: sweepLists f r (n - d)

/-- Dead entries of some lists. -/
def deadIn {α : Type} (f : α → Bool) (t : Tab (List α)) : Nat := (t.map fun kv => (kv.2.filter f).length).sum

/-- Removes up to `n` dead nodes from the flows' chains (R144). -/
def sweepChains : Tab Flow → Nat → Tab Flow
  | [], _ => []
  | (k, f) :: r, n =>
    let c := sweepLists (fun (x : Chained) => x.dead) [(k, f.chain)] n
    let f' : Flow := { f with chain := Tab.look [] c k }
    let d := f.chain.length - f'.chain.length
    if f' = ⟨.idle, []⟩ then sweepChains r (n - d) else (k, f') :: sweepChains r (n - d)

/-- DEAD_ENTRY_SWEEP (R144): up to 16 dead entries of each pool are freed, the ready pool's in the lists and then in the chains
of flows; the pending marks of FAILING sowings are cleared in the same sweep. -/
def execDeadEntrySweep (s : State) : Host.Outcome State Fault Refusal :=
  s.when true { s with rla := { s.rla with
    lists := sweepLists (fun e => e.dead) s.rla.lists 16
    flows := sweepChains s.rla.flows (16 - deadIn (fun e : Ready => e.dead) s.rla.lists)
    delays := sweepLists (fun e => e.dead) s.rla.delays 16
    pend := s.rla.pend.filter fun x => !x.dead } }

/-! ### The start queue and the power domains (R54 to R56, R175, R176, R178) -/

/-- What an admitted start does. -/
def State.offer (s : State) (x : Start) : State :=
  match x with
  | .front e => match (s.engine e).front.committed? with
    | some (t, i) => if s.writeOk e t i then s.driveFront e t else s.dropFront e
    | none => s
  | .release e => s.driveRelease e
  | .wakeWord e => s.wakeWrite e
  | .domain c => s.setDomain c (.waking s.now)

/-- A queued start may go when the budgets allow: a BE start of a deterministic plot waits for the edge (R316), a
release for its engine's cap (R347), a front-slot write for its port (R174). -/
def State.startReady (s : State) (x : Start) : Bool :=
  match x with
  | .front e => s.portFree (e / 16) && match (s.engine e).front.committed? with
    | some (t, _) => !s.frontStopped t
    | none => true
  | .release e => !s.frontStopped (s.engine e).back.task && !s.capped (e / 16) (s.engine e).back.task.kind
  | _ => true

/-- The checks of R161 still hold for a queued front-slot write; any other entry stands. -/
def State.startStands (s : State) (x : Start) : Bool :=
  match x with
  | .front e => match (s.engine e).front.committed? with
    | some (t, i) => s.writeOk e t i && !s.preemptStops t
    | none => true
  | .release e => s.writeOk e (s.engine e).back.task (s.engine e).back.inc
  | _ => true

/-- A queued front-slot write whose checks fail is not written, and charges nothing (R161, R174); a queued release to an engine
that no longer serves the sowing's plot is withdrawn (R3, R171). -/
def State.dropStart (s : State) (x : Start) : State :=
  match x with
  | .front e => s.dropFront e
  | .release e => s.withdraw e 3
  | _ => s

/-- The scan of the start queue (R176): `stopped` once the chip budget could not admit an entry. An entry that its plot's
reserve has come to admit goes from behind that place too, as a reserved start goes ahead of every queued entry when it
arrives. DESIGN CHOICE (log 118): R176 says nothing of reserved entries in the queue. -/
def State.scanStarts (s : State) (stopped : Bool) : List Queued → State
  | [] => s
  | q :: r =>
    let c := q.what.cluster
    let out (t : State) : State := { t with dcs := { t.dcs with queue := t.dcs.queue.erase q } }
    let cnt (t : State) : State := match q.what with
      | .front e | .release e | .wakeWord e => t.countStart e (s.now - q.at')
      | .domain _ => t
    if !s.startStands q.what then State.scanStarts ((out s).dropStart q.what) stopped r
    else if !s.startReady q.what then s.scanStarts stopped r
    else if s.reservedNow q.what then
      State.scanStarts (((out (cnt (s.chargeReserve ((s.startPlot q.what).getD 0) c)))).offer q.what) stopped r
    else if stopped then s.scanStarts stopped r
    else if !s.clusterRoom c then s.scanStarts stopped r
    else if !s.chipRoom then s.scanStarts true r
    else State.scanStarts ((out (cnt (s.chargeShared c (s.startCost q.what)))).offer q.what) stopped r

/-- START_QUEUE_ADMIT (R176). -/
def execStartQueueAdmit (s : State) : Host.Outcome State Fault Refusal := s.when true (s.scanStarts false s.dcs.queue)

/-- Lists of (p, k) hold work (R178). -/
def State.listsWait (s : State) (p k : Nat) : Bool :=
  (listKeys p k).any fun l => (s.list l).any fun e => !e.dead

/-- The lowest cluster asleep with an engine of (p, k), or the lowest one marked unavailable, which only a later wake request
makes available again (R55, R56, R178). -/
def State.sleepingDomain (s : State) (p k : Nat) : Option Nat :=
  let l (d : Domain) : Option Nat := (List.range 32).find? fun c => s.domain c == d && (clusterEngines c).any fun e => s.belongs e p k
  (l .asleep).or (l .unavailable)

/-- DOMAIN_WAKE_REQUEST (R54, R178). -/
def execDomainWakeRequest (plot : Fin 64) (kind : Kind) (s : State) : Host.Outcome State Fault Refusal :=
  let k := kindNum kind
  match s.sleepingDomain plot k with
  | none => .next s
  | some c => s.when ((s.listsWait plot k || (s.restorable plot k).isSome)
      && !(engineIds.any fun e => s.eligible e plot k) && !(s.dcs.queue.any fun q => q.what == .domain c))
      (if s.admitNow (.domain c) then (s.chargeShared c (s.startCost (.domain c))).setDomain c (.waking s.now)
       else s.enqueueStart (.domain c))

/-- Every active engine of domain `c` has been idle with an empty back slot for SLEEP_IDLE sc (R178). -/
def State.domainIdle (s : State) (c : Nat) : Bool :=
  let n := (s.clusterCfg c).sleepIdle
  decide (0 < n) && (clusterEngines c).all fun e =>
    !s.active e || ((s.engine e).front == .empty && (s.engine e).back.st == .empty && (s.engine e).token.isNone
      && (s.engine e).service == .inService && s.since (max (s.engine e).freeAt (s.engine e).backAt) n)

/-- DOMAIN_SLEEP_REQUEST (R54, R178). -/
def execDomainSleepRequest (cluster : Fin 32) (s : State) : Host.Outcome State Fault Refusal :=
  s.when (s.domain cluster == .awake && s.domainIdle cluster) (s.setDomain cluster (.sleeping s.now))

/-- WAKE_ACK (R54, R55): the domain is awake and available; it answers a late acknowledgement only for a request that
stands. -/
def execWakeAck (cluster : Fin 32) (s : State) : Host.Outcome State Fault Refusal :=
  s.when (match s.domain cluster with | .waking _ => true | _ => false) (s.setDomain cluster .awake)

/-- WAKE_TIMEOUT (R55). -/
def execWakeTimeout (cluster : Fin 32) (s : State) : Host.Outcome State Fault Refusal :=
  s.when (match s.domain cluster with | .waking t => s.since t 65536 | _ => false)
    ((s.setDomain cluster .unavailable).errlog { code := 0x807, detail := 1, arg := BitVec.ofNat 64 cluster })

/-- SLEEP_TIMEOUT (R56): the first FLUSH of the engines' return may be answered with EMPTY. -/
def execSleepTimeout (cluster : Fin 32) (s : State) : Host.Outcome State Fault Refusal :=
  s.when (match s.domain cluster with | .sleeping t => s.since t 65536 | _ => false)
    ((clusterEngines cluster).foldl (fun t e => if (engineKind? e).isSome then
      t.modEngine e fun r => { r with service := if r.service == .retired then .retired else .away, emptyOk := true }
      else t)
      ((s.setDomain cluster .unavailable).errlog { code := 0x807, detail := 2, arg := BitVec.ofNat 64 cluster }))

/-- THERMAL_CHANGE (R58, R347). -/
def execThermalChange (stack : Fin 8) (level : BitVec 2) (s : State) : Host.Outcome State Fault Refusal :=
  s.when true { s with pins := { s.pins with
    therm := BitVec.ofNat 16 ((s.pins.therm.toNat &&& ~~~(BitVec.ofNat 16 (3 <<< (2 * stack.val)))) |>.toNat)
      ||| BitVec.ofNat 16 (level.toNat <<< (2 * stack.val)) } }

end Sys2Proof.Machine
end

