-- ==== Sys2Proof/Machine/Access.lean ====
section
/-! DEFINITION. Accesses at the mesh target (R42 to R51, R413, R448): who is granted, refusals, responses. -/
namespace Sys2Proof.Machine

/-- mt_src_i of a requester (01_boundary.md). -/
def Source.code : Source → Nat
  | .host => 0
  | .core => 1
  | .engine => 2
  | .test => 3

/-- A response at the target. -/
def State.respond (s : State) (code : BitVec 2) (v : W64) : State :=
  { s with mt := { s.mt with resp := code, rdata := v, rbeats := [] } }

/-- A refused access (R45): TGT_ERR, read data 0, REG_ACCESS; before start-up step 3 has passed no log runs (R448). -/
def State.refuse (s : State) (req : Req) (offset : Nat) : State :=
  let s1 := s.respond 1 0
  if s.su.step = 1 ∨ s.su.step = 2 ∨ s.su.step = 3 then s1
  else s1.errlog { code := 0x801, fn := some req.fn.val, aux := offset, detail := Source.code req.src }

/-- Function `n` is enabled (R50). -/
def State.enabledFn (s : State) (n : Nat) : Bool := decide (n ≤ s.pins.numvf.toNat)

/-- A function reset of `n` is in progress (R49). -/
def State.inReset (s : State) (n : Nat) : Bool := (s.ftt.resets.look? n).isSome

/-- The requester is let in at all: before release only secure ones (R448), never one whose function is in reset
(R49). -/
def State.admitted (s : State) (req : Req) : Bool :=
  (s.su.released || req.sec) && !s.inReset req.fn.val && req.src != .engine

/-- Access to the global page (R43). -/
def State.globalOk (s : State) (req : Req) : Bool := s.admitted req && (req.fn.val == 0 || req.sec)

/-- Access to the secure page (R43). -/
def State.secureOk (s : State) (req : Req) : Bool := s.admitted req && req.sec

/-- Access to function page `n` (R43, R50). -/
def State.pageOk (s : State) (req : Req) (n : Nat) : Bool :=
  s.admitted req && (req.fn.val == n || req.sec) && s.enabledFn n

/-- Engine `e` runs a task of function `n` (R239). -/
def State.runsFn (s : State) (e n : Nat) : Bool :=
  match (s.engine e).front with
  | .running t _ => !t.test && t.sow / 2 ^ 32 == n && (s.sowing? t.sow).isSome
  | _ => false

/-- Access of an engine running a task of page `n` (R44, R239). -/
def State.engineOk (s : State) (req : Req) (n : Nat) : Bool :=
  s.su.released && req.src == .engine && s.runsFn req.eng n && !s.inReset n && s.enabledFn n

/-- A read by an engine of a register of page `n` that answers 0 unless its own check holds (R44, R241, R269, R345,
R364). -/
def State.engineReads (s : State) (req : Req) (n : Nat) : Bool :=
  req.src == .engine && s.su.released && !s.inReset req.fn.val && s.enabledFn n

/-- A register access: refused, or answered with a value (R45); every write is refused in the FATAL state (R413). -/
def State.access (s : State) (req : Req) (offset : Nat) (ok write : Bool) (f : State → W64 × State) :
    Host.Outcome State Fault Refusal :=
  if ok && !(write && s.ftt.fatal) then .next ((f s).2.respond 0 (f s).1) else .next (s.refuse req offset)

/-- A write: no read data. -/
def State.regWrite (s : State) (req : Req) (offset : Nat) (ok : Bool) (f : State → State) :
    Host.Outcome State Fault Refusal := s.access req offset ok true fun t => (0, f t)

/-- Offset of function page `n` (R19). -/
def pageBase (n : Nat) : Nat := 0x1000000 + n * 0x10000

end Sys2Proof.Machine
end

