-- ==== Sys2Proof/Machine/FieldMap.lean ====
section
/-! DEFINITION. Field maps (R389 to R396): reading and writing the image, the checks, the commands of FM_CTRL, the
exchange; and the rewritable store they and the repair record are kept in (R62 to R65, R425, R426). -/
namespace Sys2Proof.Machine

/-! ### Reading the image (R389 to R392) -/

/-- The chip section. -/
def parseChip (ws : Words) : ChipCfg :=
  let c0 := ws.at 8
  let c1 := ws.at 9
  let c2 := ws.at 10
  { tickPeriod := fld c0 0 24, headland := fld c0 24 13, cycleTicks := fld c0 37 9, chipStarts := fld c0 46 8,
    wakeCost := fld c0 54 5, idleStart := fld c1 0 12, role := fld c1 12 2, field := fld c1 14 16,
    chip := fld c1 30 8, chips := fld c1 38 9, parent := fld c1 47 7, sparent := fld c1 54 7,
    mirrorField := fld c2 0 16, mirrorV := bit c2 16, mirrorPort := fld c2 17 7 }

/-- A cluster entry. -/
def parseCluster (w : W64) : ClusterCfg := ⟨fld w 0 5, fld w 5 21⟩

/-- A plot entry from its three words. -/
def parsePlot (a b c : W64) : PlotCfg :=
  { det := bit a 0, overrunFail := bit a 1, presow := bit a 2, rampRsv := fld a 3 8, owner := fld a 11 8,
    rate := fld a 19 12, saveRate := fld a 31 12, burst := fld a 43 11, ageLc := fld b 0 8, ageBe := fld b 8 8,
    preemptLimit := fld b 16 16, readyFloor := fld c 0 11 * 256, readyCap := fld c 11 11 * 256,
    delayFloor := fld c 22 11 * 64, delayCap := fld c 33 11 * 64 }

/-- An engine entry from its three words. -/
def parseEngine (a b c : W64) : EngCfg :=
  ⟨bit a 0, fld a 1 9, fld a 10 6, bit a 16, fld a 17 6, fld b 0 56, fld c 0 56⟩

/-- CYC_COUNT. -/
def cycCount (ws : Words) : Nat := fld (ws.at 1) 32 13

/-- The map an image holds (R389). -/
def parseMap (ws : Words) : FieldMap :=
  { gen := ws.at 2
    chip := parseChip ws
    clusters := (List.range 32).foldl (fun t c => t.put ClusterCfg.reset c (parseCluster (ws.at (16 + c)))) []
    plots := (List.range 64).foldl (fun t p =>
      let i := 64 + 8 * p
      t.put PlotCfg.reset p (parsePlot (ws.at i) (ws.at (i + 1)) (ws.at (i + 2)))) []
    weights := (List.range 2048).foldl (fun t i => t.put 1 i (byteAt (ws.drop 576) i)) []
    engines := engineIds.foldl (fun t e =>
      let i := 1024 + 4 * e
      t.put EngCfg.reset e (parseEngine (ws.at i) (ws.at (i + 1)) (ws.at (i + 2)))) []
    cyc := (List.range (cycCount ws)).map fun i => BitVec.ofNat 256 (record 4 (ws.drop 3072) i) }

/-! ### Writing the image -/

/-- The image of a map, its CRC field 0. -/
def encodeBody (m : FieldMap) : Words :=
  let k := m.cyc.length
  let c := m.chip
  let plot (p : Nat) : Words :=
    let r := m.plots.look PlotCfg.reset p
    [pack [(0, 1, b2n r.det), (1, 1, b2n r.overrunFail), (2, 1, b2n r.presow), (3, 8, r.rampRsv), (11, 8, r.owner),
       (19, 12, r.rate), (31, 12, r.saveRate), (43, 11, r.burst)],
     pack [(0, 8, r.ageLc), (8, 8, r.ageBe), (16, 16, r.preemptLimit)],
     pack [(0, 11, r.readyFloor / 256), (11, 11, r.readyCap / 256), (22, 11, r.delayFloor / 64),
       (33, 11, r.delayCap / 64)], 0, 0, 0, 0, 0]
  let eng (e : Nat) : Words :=
    let r := m.engines.look EngCfg.reset e
    [pack [(0, 1, b2n r.active), (1, 9, r.logical), (10, 6, r.home), (16, 1, b2n r.lendv), (17, 6, r.lend)],
     BitVec.ofNat 64 r.notice, BitVec.ofNat 64 r.wake, 0]
  let weight (i : Nat) : W64 := pack ((List.range 8).map fun j => (8 * j, 8, m.weights.look 1 (8 * i + j)))
  [pack [(0, 32, 0x4D415046), (32, 16, 1)], pack [(0, 32, 0x6000 + 32 * k), (32, 13, k)], m.gen, 0, 0, 0, 0, 0]
  ++ [pack [(0, 24, c.tickPeriod), (24, 13, c.headland), (37, 9, c.cycleTicks), (46, 8, c.chipStarts), (54, 5, c.wakeCost)],
      pack [(0, 12, c.idleStart), (12, 2, c.role), (14, 16, c.field), (30, 8, c.chip), (38, 9, c.chips),
        (47, 7, c.parent), (54, 7, c.sparent)],
      pack [(0, 16, c.mirrorField), (16, 1, b2n c.mirrorV), (17, 7, c.mirrorPort)], 0, 0, 0, 0, 0]
  ++ (List.range 32).map (fun i =>
      let r := m.clusters.look ClusterCfg.reset i
      pack [(0, 5, r.starts), (5, 21, r.sleepIdle)])
  ++ List.replicate 16 0
  ++ (List.range 64).flatMap plot
  ++ (List.range 256).map weight
  ++ List.replicate 192 0
  ++ engineIds.flatMap eng
  ++ m.cyc.flatMap (fun r => toWords 4 r.toNat)

/-- The image of a map with its CRC (R390). -/
def encodeMap (m : FieldMap) : Words :=
  let b := encodeBody m
  b.take 3 ++ [BitVec.ofNat 64 (crc32 b)] ++ b.drop 4

/-! ### Checks (R396) -/

/-- An outcome: ERR and ERRIDX. -/
abbrev FmErr := Nat × Nat

/-- The first failure of some checks. -/
def firstErr : List (Option FmErr) → FmErr
  | [] => (0, 0)
  | none :: r => firstErr r
  | some e :: _ => e

/-- Error `code` at the first index that `bad` marks. -/
def errAt (code : Nat) (idx : List Nat) (bad : Nat → Bool) : Option FmErr := (idx.find? bad).map fun i => (code, i)

/-- HEADER. -/
def headerBad (ws : Words) : Bool :=
  fld (ws.at 0) 0 32 != 0x4D415046 || fld (ws.at 0) 32 16 != 1 || decide (4096 < cycCount ws)
    || fld (ws.at 1) 0 32 != 0x6000 + 32 * cycCount ws

/-- The image's words, SIZE bytes of them. -/
def imageOf (ws : Words) : Words := ws.take (fld (ws.at 1) 0 32 / 8)

/-- CRC (R390). -/
def crcBad (ws : Words) : Bool :=
  let b := imageOf ws
  fld (ws.at 3) 0 32 != crc32 (b.take 3 ++ [ws.at 3 &&& ~~~(0xFFFFFFFF : W64)] ++ b.drop 4)

/-- RESERVED, section by section (R389 to R392, R309). -/
def reservedErr (ws : Words) : Option FmErr :=
  let z (i lo len : Nat) : Bool := fld (ws.at i) lo len == 0
  let hdr := z 0 48 16 && z 1 45 19 && z 3 32 32 && [4, 5, 6, 7].all fun i => z i 0 64
  let chip := z 8 59 5 && z 9 61 3 && z 10 24 40 && [11, 12, 13, 14, 15].all fun i => z i 0 64
  let pad := ((List.range 16).all fun i => z (48 + i) 0 64) && (List.range 192).all fun i => z (832 + i) 0 64
  let plot (p : Nat) : Bool :=
    let i := 64 + 8 * p
    z i 54 10 && z (i + 1) 32 32 && z (i + 2) 44 20 && [3, 4, 5, 6, 7].all fun j => z (i + j) 0 64
  let eng (e : Nat) : Bool :=
    let i := 1024 + 4 * e
    z i 23 41 && z (i + 1) 56 8 && z (i + 2) 56 8 && z (i + 3) 0 64
  let cyc (k : Nat) : Bool :=
    let i := 3072 + 4 * k
    z i 39 1 && z i 46 18 && z (i + 1) 14 2 && z (i + 1) 32 32 && z (i + 2) 19 13 && z (i + 3) 29 35
  match firstErr [if hdr && chip && pad then none else some (4, 0),
      errAt 4 (List.range 32) fun c => !z (16 + c) 26 38, errAt 4 (List.range 64) fun p => !plot p,
      errAt 4 engineIds fun e => !eng e, errAt 4 (List.range (cycCount ws)) fun k => !cyc k] with
  | (0, _) => none
  | e => some e

/-- Fields of a cyclic entry (R309). -/
def cyTick (r : BitVec 256) : Nat := fld r 0 8
/-- OFFSET. -/
def cyOffset (r : BitVec 256) : Nat := fld r 8 28
/-- KIND: 0 NONE, 1 LAUNCH, 2 STEP, 3 SEM. -/
def cyKind (r : BitVec 256) : Nat := fld r 36 3
/-- PLOT. -/
def cyPlot (r : BitVec 256) : Nat := fld r 40 6
/-- FN. -/
def cyFn (r : BitVec 256) : Nat := fld r 64 8
/-- LQ. -/
def cyLq (r : BitVec 256) : Nat := fld r 72 6
/-- TARGET. -/
def cyTarget (r : BitVec 256) : Nat := fld r 80 16
/-- SEM. -/
def cySem (r : BitVec 256) : Nat := fld r 128 18
/-- SEMV. -/
def cySemv (r : BitVec 256) : Bool := bit r 146
/-- SEMVAL. -/
def cySemval (r : BitVec 256) : BitVec 32 := BitVec.ofNat 32 (fld r 160 32)
/-- BUDGET. -/
def cyBudget (r : BitVec 256) : Nat := fld r 192 28
/-- CMP. -/
def cyCmp (r : BitVec 256) : Bool := bit r 220

/-- RANGE (R140, R173, R305, R311, R320, R338, R392). -/
def rangeErr (m : FieldMap) : Option FmErr :=
  let c := m.chip
  let within (x lo hi : Nat) : Bool := decide (lo ≤ x) && decide (x ≤ hi)
  let chip := within c.tickPeriod 1000 10000000 && within c.headland 100 6400 && within c.cycleTicks 1 256
    && within c.chipStarts 1 255 && within c.wakeCost 1 16 && within c.chips 1 256 && within c.parent 0 95
    && within c.sparent 0 95 && within c.mirrorPort 0 95
  let clu (i : Nat) : Bool :=
    let r := m.clusters.look ClusterCfg.reset i
    within r.starts 1 16 && within r.sleepIdle 0 1048576
  let plot (p : Nat) : Bool :=
    let r := m.plots.look PlotCfg.reset p
    within r.rate 1 4095 && within r.saveRate 1 4095 && within r.burst 1 1024 && within r.ageLc 1 255
      && within r.ageBe 1 255 && within r.preemptLimit 100 50000 && within r.readyFloor 0 262144
      && within r.readyCap 256 262144 && within r.delayFloor 0 65536 && within r.delayCap 64 65536
  let wt (p : Nat) : Bool := (List.range 32).all fun j => m.weights.look 1 (p * 32 + j) != 0
  let eng (e : Nat) : Bool :=
    let r := m.engines.look EngCfg.reset e
    r.notice % 64 == 0 && r.wake % 16 == 0
  let cyc (i : Nat) : Bool :=
    let r := m.cyc.getD i 0
    cyKind r == 0 || (decide (cyKind r ≤ 3) && (cyKind r != 2 || decide (cyTarget r < 1024))
      && (cyKind r != 3 || cyTarget r == 0))
  match firstErr [if chip then none else some (5, 0), errAt 5 (List.range 32) fun i => !clu i,
      errAt 5 (List.range 64) fun p => !plot p, errAt 5 (List.range 64) fun p => !wt p,
      errAt 5 engineIds fun e => !eng e, errAt 5 (List.range m.cyc.length) fun i => !cyc i] with
  | (0, _) => none
  | e => some e

/-- An engine of the map. -/
def FieldMap.eng (m : FieldMap) (e : Nat) : EngCfg := m.engines.look EngCfg.reset e
/-- A plot of the map. -/
def FieldMap.plot (m : FieldMap) (p : Nat) : PlotCfg := m.plots.look PlotCfg.reset p

/-- ENGINE: an unpopulated or retired engine is active, or an inactive entry is not 0. -/
def engineErr (m : FieldMap) (retired : Nat → Bool) : Option FmErr :=
  errAt 6 engineIds fun e =>
    let r := m.eng e
    if r.active then (engineKind? e).isNone || retired e else r != EngCfg.reset

/-- LOGICAL (R9). -/
def logicalErr (m : FieldMap) : Option FmErr :=
  errAt 7 engineIds fun e => (m.eng e).active &&
    (List.range e).any fun f => (m.eng f).active && (m.eng f).logical == (m.eng e).logical

/-- LISTS (R140). -/
def listsErr (m : FieldMap) : Option FmErr :=
  match errAt 8 (List.range 64) fun p =>
      decide ((m.plot p).readyCap < (m.plot p).readyFloor) || decide ((m.plot p).delayCap < (m.plot p).delayFloor) with
  | some e => some e
  | none =>
    if 262144 < ((List.range 64).map fun p => (m.plot p).readyFloor).sum
      ∨ 65536 < ((List.range 64).map fun p => (m.plot p).delayFloor).sum then some (8, 0) else none

/-- A home plot has an active engine in cluster `c`. -/
def FieldMap.inCluster (m : FieldMap) (p c : Nat) : Bool :=
  (List.range 16).any fun i => (m.eng (c * 16 + i)).active && (m.eng (c * 16 + i)).home == p

/-- Deterministic plots. -/
def FieldMap.det (m : FieldMap) : List Nat := (List.range 64).filter fun p => (m.plot p).det

/-- RAMP (R173): the reserves of the deterministic plots. -/
def rampErr (m : FieldMap) : Option FmErr :=
  if m.chip.chipStarts < (m.det.map fun p => (m.plot p).rampRsv).sum then some (9, 0)
  else errAt 9 (List.range 32) fun c => decide ((m.clusters.look ClusterCfg.reset c).starts
    < ((m.det.filter fun p => m.inCluster p c).map fun p => (m.plot p).rampRsv).sum)

/-- CYCLIC (R311). -/
def cyclicErr (m : FieldMap) : Option FmErr :=
  let lim := 20 * m.chip.tickPeriod - 20 * m.chip.headland
  let prior (i : Nat) : Option (BitVec 256) := ((m.cyc.take i).filter fun r => cyKind r != 0).getLast?
  if m.chip.tickPeriod < 2 * m.chip.headland then some (10, 0)
  else errAt 10 (List.range m.cyc.length) fun i =>
    let r := m.cyc.getD i 0
    cyKind r != 0 && (decide (m.chip.cycleTicks ≤ cyTick r) || decide (lim ≤ cyOffset r) || (cyKind r == 3 && !cySemv r)
      || (match prior i with
          | none => false
          | some a => !(decide (cyTick a < cyTick r) || (cyTick a == cyTick r && decide (cyOffset a < cyOffset r)))))

/-- DET (R315). -/
def detErr (m : FieldMap) : Option FmErr :=
  if 16 < m.det.length then some (11, 0)
  else errAt 11 (List.range 64) fun p => (m.plot p).det &&
    (List.range 32).any fun c => m.inCluster p c && (List.range 64).any fun q => q != p && m.inCluster q c

/-- LEND (R339). -/
def lendErr (m : FieldMap) : Option FmErr :=
  errAt 12 engineIds fun e =>
    let r := m.eng e
    let mates := (List.range 16).map fun i => m.eng (e / 16 * 16 + i)
    r.active && ((r.lendv && (r.lend == r.home || (m.plot r.lend).det
        || ((m.plot r.home).det && mates.any fun x => x.active && x.home != r.home)))
      || ((m.plot r.home).det && mates.any fun x => x.active && x.home == r.home
          && (x.lendv != r.lendv || x.lend != r.lend)))

/-- YOKE (R390, R396). -/
def yokeErr (m : FieldMap) : Option FmErr :=
  let c := m.chip
  let none' := c.chips == 1 && c.field == 0 && c.chip == 0 && c.parent == 0 && c.sparent == 0 && c.mirrorField == 0
    && !c.mirrorV && c.mirrorPort == 0
  if (c.role = 0 ∧ none' = false) ∨ c.chips ≤ c.chip ∨ (c.chips = 1 ∧ c.role ≠ 0)
    ∨ (c.mirrorV = true ∧ c.mirrorField = c.field) then some (13, 0) else none

/-- The checks from ENGINE through LEND, which a repair repeats (R421). -/
def checkUnits (m : FieldMap) (retired : Nat → Bool) : FmErr :=
  firstErr [engineErr m retired, logicalErr m, listsErr m, rampErr m, cyclicErr m, detErr m, lendErr m]

/-- The checks on a map after substitution. -/
def checkMap (m : FieldMap) (retired : Nat → Bool) : FmErr :=
  match rangeErr m with
  | some e => e
  | none => match checkUnits m retired with
    | (0, _) => firstErr [yokeErr m]
    | e => e

/-- Engine `e` is retired (R392, R424). -/
def State.retiredEng (s : State) (e : Nat) : Bool := (s.engine e).repState != 0

/-- One substitution (R423): the active entry of a retired engine moves to its spare when that entry is inactive. -/
def FieldMap.subst (m : FieldMap) (e : Nat) (sp : Option Nat) : FieldMap :=
  match sp with
  | none => { m with engines := m.engines.put EngCfg.reset e EngCfg.reset }
  | some x => { m with engines := (m.engines.put EngCfg.reset x (m.eng e)).put EngCfg.reset e EngCfg.reset }

/-- The repair map applied to a map, in the order of its entries (R423). -/
def State.substitute (s : State) (m : FieldMap) : FieldMap :=
  s.ftt.entries.foldl (fun t r =>
    if r.kind = 1 ∧ r.spare ≠ 0x1FF ∧ (t.eng r.unit).active = true ∧ (t.eng r.spare).active = false then
      t.subst r.unit (some r.spare)
    else t) m

/-- A LOAD's or RECALL's checks on an image: the map and the outcome (R396, R423). -/
def State.checkImage (s : State) (ws : Words) : FieldMap × FmErr :=
  let m := s.substitute (parseMap ws)
  if headerBad ws then (m, (2, 0))
  else if crcBad ws then (m, (3, 0))
  else match reservedErr ws with
    | some e => (m, e)
    | none => (m, checkMap m s.retiredEng)

/-! ### Steps of start-up (R445, R446) -/

/-- A step of start-up fails with "stop" (R446): every output as R23 requires. -/
def State.suStop (s : State) (code detail : Nat) : State :=
  { s with
    su := { s.su with failed := true, code := BitVec.ofNat 8 code, detail := BitVec.ofNat 64 detail }
    pins := { s.pins with descOut := [], tokOut := [], preOut := [], linkOut := [] } }

/-- Step `k` of start-up has passed, and the next begins. -/
def State.suPass (s : State) (k : Nat) : State :=
  { s with su := { s.su with passed := s.su.passed ||| BitVec.ofNat 8 (2 ^ (k - 1)), step := k + 1, stepAt := s.now } }

/-! ### The rewritable store (R62 to R65) -/

/-- Word `i` of the store; one that nothing has programmed since its erase reads as the free erased word (log 10). -/
def State.nvWord (s : State) (i : Nat) : W64 := s.nv.words.look Config.erasedWord i

/-- The newest valid repair record (R427): its area's first word and its generation. -/
def State.areaGen (s : State) (base : Nat) : Option Nat :=
  let h := s.nvWord base
  let n := fld h 16 16
  if fld h 0 16 = 0x5246 ∧ n ≤ 2045 ∧ s.nvWord (base + n + 2) = 0x434D4954
    ∧ s.nvWord (base + n + 1) = BitVec.ofNat 64 (crc32 ((List.range (n + 1)).map fun i => s.nvWord (base + i))) then
    some (fld h 32 32)
  else none

/-- First word of area A and of area B (R425). -/
def areaA : Nat := 28672
/-- Area B. -/
def areaB : Nat := 30720

/-- The chosen field record: area and generation (R427). -/
def State.newestRecord (s : State) : Option (Nat × Nat) :=
  match s.areaGen areaA, s.areaGen areaB with
  | none, none => none
  | some a, none => some (areaA, a)
  | none, some b => some (areaB, b)
  | some a, some b => if a < b then some (areaB, b) else some (areaA, a)

/-- An entry of the repair record (R425). -/
def RepairEntry.encode (r : RepairEntry) : W64 :=
  pack [(0, 4, r.kind), (4, 9, r.unit), (13, 9, r.spare), (32, 32, r.row.toNat)]
/-- Reads an entry. -/
def RepairEntry.decode (w : W64) : RepairEntry :=
  ⟨fld w 0 4, fld w 4 9, fld w 13 9, BitVec.ofNat 32 (fld w 32 32)⟩

/-- Programs of some words from word `i` on. -/
def programs (i : Nat) : Words → List NvOp
  | [] => []
  | w :: r => .program i w :: programs (i + 1) r

/-- Operations of a commit (R426) with its generation. -/
def State.commitOps (s : State) : BitVec 32 × List NvOp :=
  let (base, gen) := match s.newestRecord with
    | none => (areaA, (1 : Nat))
    | some (a, g) => (if a = areaA then areaB else areaA, g + 1)
  let body := pack [(0, 16, 0x5246), (16, 16, s.ftt.entries.length), (32, 32, gen)] :: s.ftt.entries.map RepairEntry.encode
  let words := body ++ [BitVec.ofNat 64 (crc32 body), 0x434D4954]
  (BitVec.ofNat 32 gen, ((List.range (cdiv words.length 512)).map fun i => NvOp.erase (base / 512 + i)) ++ programs base words)

/-- Operations of a SAVE (R394). -/
def State.saveOps (s : State) : List NvOp :=
  let b := encodeMap s.fm.active
  ((List.range (cdiv b.length 512)).map NvOp.erase) ++ [.erase 38] ++ programs 0 b
    ++ [.program 19456 (BitVec.ofNat 64 (crc32 b)), .program 19457 0x4D415053]

/-- Reads of one area's record: its header, and the rest where the header's MAGIC and COUNT are in order (R425, R427). -/
def State.areaReads (s : State) (base : Nat) : List NvOp :=
  let n := fld (s.nvWord base) 16 16
  .read base 1 :: (if fld (s.nvWord base) 0 16 = 0x5246 ∧ n ≤ 2045 then [.read (base + 1) (n + 2)] else [])

/-- Bytes of the saved map over 8, from its header's SIZE (R394). -/
def State.savedLen (s : State) : Nat := fld (s.nvWord 1) 0 32 / 8

/-- Reads of a RECALL: the header's first two words, the rest of the image, the CRC word and the flag (R394). -/
def State.recallReads (s : State) : List NvOp :=
  let n := s.savedLen
  .read 0 2 :: (if 2 < n ∧ n ≤ 19456 then [.read 2 (n - 2)] else []) ++ [.read 19456 2]

/-- The address an NV_FAIL record names. -/
def NvOp.addr : NvOp → Nat
  | .read a _ => a
  | .program a _ => a
  | .erase k => k * 512

/-- Bound of an operation in sc (R65). -/
def NvOp.bound : NvOp → Nat
  | .read _ _ => 20000
  | .program _ _ => 200000
  | .erase _ => 20000000

/-- The effect of an operation that succeeds. -/
def State.nvApply (s : State) (op : NvOp) : State :=
  match op with
  | .read _ _ => s
  | .program a w => { s with nv := { s.nv with words := s.nv.words.ins a w } }
  | .erase k => { s with nv := { s.nv with words := s.nv.words.filter fun e => !(e.1 / 512 == k) } }

/-- The effect of one that fails or is cut off: the word, or every word of the sector, is free (R64; log 34). -/
def State.nvSpoil (s : State) (op : NvOp) : State :=
  let one (t : State) (a : Nat) : State :=
    let (w, t1) := t.drawWord
    { t1 with nv := { t1.nv with words := t1.nv.words.ins a w } }
  match op with
  | .read _ _ => s
  | .program a _ => one s a
  | .erase k => (List.range 512).foldl (fun t i => one t (k * 512 + i)) s

/-- NV_FAIL (R63, R65). -/
def State.nvFail (s : State) (detail addr : Nat) : State :=
  s.errlog { code := 0x80A, detail := detail, arg := BitVec.ofNat 64 addr }

/-- A field map command ends with an outcome; one that completed places an event (R395, R396). -/
def State.fmEnd (s : State) (e : FmErr) : State :=
  let s1 : State := { s with fm := { s.fm with
    state := .idle, err := BitVec.ofNat 5 e.1, erridx := BitVec.ofNat 13 e.2, image := none, failed := false } }
  if e.1 = 0 then s1.coreEvent else s1

/-- A LOAD or RECALL ends with an outcome. One of step 5 of start-up (R445, R454): its SWAP is pending, or the saved map is
refused and start-up goes on to the image at SU_FMSRC, or it stops with FM_ERR. -/
def State.mapEnd (s : State) (e : FmErr) : State :=
  let s1 := s.fmEnd e
  let swapping : State := { s1 with fm := { s1.fm with state := .swapPending, swap := some (s.now, none), boot := .none } }
  match s.fm.boot with
  | .none | .refused => s1
  | .recalling => if e.1 = 0 then swapping else { s1 with fm := { s1.fm with boot := .refused } }
  | .loading => if e.1 = 0 then swapping else s1.suStop 0x0A (e.1 + e.2 * 32)

/-- A job is abandoned, its read of word `addr` having failed where it reads: SAVE ends with STORE, RECALL with READ, or
with STORE where the store is unavailable, a commit may be retried up to 3 times, and step 2 stops with FUSE_READ (R63,
R65, R396, R428, R450). -/
def State.nvAbandon (s : State) (addr : Nat) (j : NvJob) : State :=
  match j with
  | .save => s.fmEnd (17, 0)
  | .recall => s.mapEnd (if s.nv.gone then 17 else 1, 0)
  | .records => s.suStop 2 addr
  | .commit _ =>
    if s.ftt.retries < 3 then
      { s with ftt := { s.ftt with retries := s.ftt.retries + 1, retryAt := some (s.now + 2000000000) } }
    else { s with ftt := { s.ftt with retryAt := none } }

/-- The saved map (R394): none when the flag is missing, the CRC differs, or the store is unavailable. -/
def State.savedMap? (s : State) : Option Words :=
  let n := s.savedLen
  let ws := (List.range (min n 19456)).map s.nvWord
  if !s.nv.gone && s.nvWord 19457 == 0x4D415053 && decide (n ≤ 19456)
      && s.nvWord 19456 == BitVec.ofNat 64 (crc32 ws) then some ws else none

/-- A job waits to commit a repair record. -/
def NvJob.isCommit : NvJob → Bool
  | .commit _ => true
  | .save | .recall | .records => false

/-- A job has ended well: what a RECALL read waits for its checks (R394, R425). -/
def State.nvFinish (s : State) (j : NvJob) : State :=
  match j with
  | .save => s.fmEnd (0, 0)
  | .recall => { s with fm := { s.fm with image := s.savedMap?, failed := s.savedMap?.isNone } }
  | .records => s
  | .commit g =>
    let s1 : State := { s with ftt := { s.ftt with
      repgen := g
      unsaved := s.nv.next.any NvJob.isCommit
      retries := 0
      retryAt := none } }
    s1.errlog { code := 0x81B, arg := g.zeroExtend 64 }

/-- A job with its operations, as the store stands when it starts. -/
def State.nvJobOps (s : State) : NvJob → NvJob × List NvOp
  | .save => (.save, s.saveOps)
  | .recall => (.recall, s.recallReads)
  | .commit _ => (.commit s.commitOps.1, s.commitOps.2)
  | .records => (.records, s.areaReads areaA ++ s.areaReads areaB)

/-- Starts the next job when none is in progress (R426); an unavailable store fails every job that waits at once (R65). -/
def State.nvStart (s : State) : State :=
  match s.nv.job, s.nv.next with
  | none, j :: r =>
    if s.nv.gone then (j :: r).foldl (fun t i => t.nvAbandon 0 i) { s with nv := { s.nv with next := [] } }
    else
      let (job, ops) := s.nvJobOps j
      { s with nv := { s.nv with next := r, job := some job, ops := ops, issued := some s.now, second := false, bound := false } }
  | _, _ => s

/-- Queues a job. -/
def State.nvRequest (s : State) (j : NvJob) : State :=
  ({ s with nv := { s.nv with next := s.nv.next ++ [j] } }).nvStart

/-- A commit of the field repair record is started afresh; one already waiting stands (R421, R428). -/
def State.requestCommit (s : State) : State :=
  let s1 : State := { s with ftt := { s.ftt with unsaved := true, retries := 0, retryAt := none } }
  if s1.nv.next.any NvJob.isCommit then s1 else s1.nvRequest (.commit 0)

/-- What is left of a list of operations when the one in progress has ended. -/
def nvRest : List NvOp → List NvOp
  | .read a (n + 2) :: r => .read (a + 1) (n + 1) :: r
  | l => l.tail

/-- The operation in progress has ended for good: the next is issued, or the job ends. -/
def State.nvNext (s : State) : State :=
  match nvRest s.nv.ops, s.nv.job with
  | [], some j => (({ s with nv := { s.nv with ops := [], job := none, issued := none } }).nvFinish j).nvStart
  | r, _ => { s with nv := { s.nv with ops := r, issued := some s.now, second := false, bound := false } }

/-- The record being written, or the read, is abandoned (R63). -/
def State.nvGiveUp (s : State) (addr : Nat) : State :=
  match s.nv.job with
  | some j => (({ s with nv := { s.nv with ops := [], job := none, issued := none, second := false, bound := false } }).nvAbandon
      addr j).nvStart
  | none => s

/-- The one repeat of the operation in progress is issued (R63). -/
def State.nvRepeat (s : State) : State :=
  { s with nv := { s.nv with second := true, bound := false, issued := some s.now } }

/-- NV_OP_DONE (R62, R63): a failure is repeated once, a second abandons the record; when the operation had reached its
bound, the port is free again and the repeat follows (R65). -/
def execNvOpDone (err : Bool) (s : State) : Host.Outcome State Fault Refusal :=
  match s.nv.ops, s.nv.issued with
  | op :: _, some _ =>
    s.when true
      (let s0 : State := { s with pins := { s.pins with nvBusy := false } }
       if s.nv.bound then s0.nvRepeat
       else if !err then (s0.nvApply op).nvNext
       else if s.nv.second then ((s0.nvSpoil op).nvFail 1 op.addr).nvGiveUp op.addr
       else (s0.nvSpoil op).nvRepeat)
  | _, _ => .next s

/-- The store is unavailable until the next rst_n_i (R65). -/
def State.nvGone (s : State) (op : NvOp) : State :=
  (({ s with nv := { s.nv with gone := true } }).nvFail 3 op.addr).nvGiveUp op.addr

/-- NV_OP_TIMEOUT (R65): the operation in progress has reached its bound, counts as failed,
and its words are free from then on; the repeat waits for the port where it is busy, and whether it is busy is free (log 34).
When the repeat reaches its
bound too, or the port stays busy for a further 20,000,000 sc, the store is unavailable. -/
def execNvOpTimeout (s : State) : Host.Outcome State Fault Refusal :=
  match s.nv.ops, s.nv.issued with
  | op :: _, some t =>
    let (busy, t0) := s.drawBit
    let s0 : State := { t0 with pins := { t0.pins with nvBusy := busy } }
    if s.nv.bound then
      (if busy then s.when (s.since t 20000000) (s0.nvGone op) else s.when true s0.nvRepeat)
    else
      s.when (s.since t op.bound)
        (let u := (s0.nvSpoil op).nvFail 2 op.addr
         if s.nv.second then u.nvGone op
         else if busy then { u with nv := { u.nv with bound := true, issued := some s.now } }
         else u.nvRepeat)
  | _, _ => .next s

/-! ### FM_CTRL (R393 to R395) -/

/-- A command of FM_CTRL: ignored with BUSY while one is in progress (R394). -/
def State.fmCommand (s : State) (req : Req) (f : State → State) : Host.Outcome State Fault Refusal :=
  s.regWrite req 0x9008 (s.globalOk req) fun t =>
    if t.fm.state = .idle then f { t with fm := { t.fm with busyAt := t.now } }
    else { t with fm := { t.fm with err := 16 } }

/-- The shadow takes an image, and the checks decide SHVALID (R394, R396). -/
def State.fillShadow (s : State) (ws : Words) : FmErr × State :=
  let (m, e) := s.checkImage ws
  (e, { s with fm := { s.fm with shadow := m, shvalid := e.1 == 0 } })

/-- FM_LOAD_DONE: the checks of a LOAD or RECALL end, once the image is here: READ for a LOAD whose read failed, STORE for
a RECALL that found no committed map (R394, R396). -/
def execFmLoadDone (s : State) : Host.Outcome State Fault Refusal :=
  if s.fm.state == .loading || s.fm.state == .recalling then
    if s.fm.failed then s.when true (s.mapEnd (if s.fm.state = .loading then 1 else 17, 0))
    else match s.fm.image with
      | none => .next s
      | some ws => s.when true ((s.fillShadow ws).2.mapEnd (s.fillShadow ws).1)
  else .next s

/-- x lies at or after y among 48-bit tick numbers (R331). -/
def tickGe (x y : BitVec 48) : Bool := decide ((x - y).toNat < 2 ^ 47)

/-- Start of the next tick (R305, R324). -/
def TickUnit.edge (t : TickUnit) : Nat := t.start + t.len

/-- FM_SWAP (R395). -/
def execFmSwap (req : Req) (atv : Bool) (tick : BitVec 48) (s : State) : Host.Outcome State Fault Refusal :=
  s.fmCommand req fun t =>
    let late := tickGe t.tcs.tick tick || (tick == t.tcs.tick + 1 && decide (t.tcs.edge < t.now + 64))
    if !t.fm.shvalid then t.fmEnd (14, 0)
    else if atv && late then t.fmEnd (15, 0)
    else { t with fm := { t.fm with state := .swapPending, swap := some (t.now, if atv then some tick else none) } }

/-- FM_SAVE (R394, R426). -/
def execFmSave (req : Req) (s : State) : Host.Outcome State Fault Refusal :=
  s.fmCommand req fun t => ({ t with fm := { t.fm with state := .saving } }).nvRequest .save

/-! ### The exchange (R22, R395) -/

/-- Engines whose held descriptor a changed map withdraws (R171). -/
def State.withdrawForeign (s : State) : State :=
  engineIds.foldl (fun t e =>
    let b := (t.engine e).back
    if b.st = .empty then t
    else match t.sowing? b.task.sow with
      | some w => if t.active e && t.plotOf e == w.plot then t else t.withdraw e 3
      | none => t.withdraw e 3) s

/-- Engines that a new map makes active return under R186 (R185, R454). -/
def State.activate (s : State) (old : FieldMap) : State :=
  engineIds.foldl (fun t e =>
    if t.active e && !(old.eng e).active && (t.engine e).repState == 0 then
      t.modEngine e fun r => { r with service := .away }
    else t) s

/-- A lent engine whose HOME, LENDV or LEND changed goes home by the task-boundary path (R340). -/
def State.sendHome (s : State) (old : FieldMap) : State :=
  engineIds.foldl (fun t e =>
    let a := old.eng e
    let b := t.engCfg e
    if (t.engine e).lent && (a.home != b.home || a.lendv != b.lendv || a.lend != b.lend) then
      let t1 := ((t.takeBackFront e).withdraw e 3).modEngine e fun r => { r with moving := some b.home }
      match (t1.engine e).front with
      | .running .. => t1.requestPreempt e 1 (.reclaim b.home)
      | .driven .. => t1.requestPreempt e 1 (.reclaim b.home)
      | _ => t1.settleEngine e
    else t) s

/-- Both buckets of every plot are clamped to the new BURST (R344). -/
def State.clampBuckets (s : State) : State :=
  (List.range 64).foldl (fun t p => t.modPlot p fun r => { r with
    tokens := min r.tokens (t.bucketCap p), saveTokens := min r.saveTokens (t.bucketCap p) }) s

/-- Every deficit is clamped to the new weights (R459). -/
def State.clampDeficits (s : State) : State :=
  { s with rla := { s.rla with arbs := s.rla.arbs.foldl (fun t kv =>
    t.put Arb.reset kv.1 { kv.2 with deficit := kv.2.deficit.foldl (fun d x =>
      let w : Int := s.weight (kv.1 / 3) (x.1 / 16) (x.1 % 16)
      d.put 0 x.1 (max (-w) (min x.2 (2 * w)))) [] }) [] } }

/-- A chip whose yoke values changed leaves the yoke (R321), and the role is the new map's (R320); a returned master
that acted as standby is the master again (R327). -/
def State.yokeSwap (s : State) (old : ChipCfg) : State :=
  let c := s.fm.active.chip
  let same := old.role == c.role && old.field == c.field && old.chip == c.chip && old.chips == c.chips
    && old.tickPeriod == c.tickPeriod && old.headland == c.headland && old.cycleTicks == c.cycleTicks
    && old.parent == c.parent && old.sparent == c.sparent && old.mirrorField == c.mirrorField
    && old.mirrorV == c.mirrorV && old.mirrorPort == c.mirrorPort
  if same && !(c.role == 2 && s.yoke.role == 3) then s
  else { s with yoke := { Yoke.reset with role := c.role } }

/-- The exchange of the two copies (R22, R395), with what each quantity's change brings. -/
def State.exchange (s : State) : State :=
  let old := s.fm.active
  let s1 : State := { s with fm := { s.fm with active := s.fm.shadow, shadow := old, edits := 0, swap := none } }
  let s2 := ((((s1.yokeSwap old.chip).activate old).withdrawForeign).sendHome old).clampBuckets.clampDeficits
  (s2.capture ⟨0x0F, none, none, none, none, none, 1, s2.fm.active.gen⟩).fmEnd (0, 0)

/-- Row 1 of R308: a pending SWAP takes effect at the edge that begins tick `next` (R395). -/
def State.swapAtEdge (s : State) (next : BitVec 48) : State :=
  match s.fm.swap with
  | none => s
  | some (t, tick) =>
    let due := match tick with | none => s.since t 64 | some a => tickGe next a
    if !due then s
    else match errAt 6 engineIds fun e => (s.fm.shadow.eng e).active && ((engineKind? e).isNone || s.retiredEng e) with
      | some e => ({ s with fm := { s.fm with swap := none } }).fmEnd e
      | none => s.exchange

end Sys2Proof.Machine
end

