-- ==== Sys2Proof/Machine/Repair.lean ====
section
/-! DEFINITION. Units that fail their self-test, spares and the repair edit (R416 to R422, R428). -/
namespace Sys2Proof.Machine

/-! ### Engines (R416, R421) -/

/-- Unit encoding of an engine (R422). -/
def engUnit (e : Nat) : Nat := 0x10000 + e
/-- Unit encoding of a physical bank (R422). -/
def bankUnit (b : Nat) : Nat := 0x20000 + b

/-- The active map with the repair edits that wait for their edge (R422). -/
def State.editedMap (s : State) : FieldMap := s.ftt.edits.foldl (fun m x => m.subst x.1 x.2.1) s.fm.active

/-- Candidate spares for engine `e` in the order of R421. -/
def State.spares (s : State) (e : Nat) (m : FieldMap) : List Nat :=
  let ok (x : Nat) : Bool := engineKind? x == engineKind? e && !(m.eng x).active && !s.retiredEng x && x != e
  let here := e / 16
  ((List.range 16).map fun i => here * 16 + i).filter ok ++ engineIds.filter fun x => x / 16 != here && ok x

/-- The first spare for which the substituted map passes the checks from ENGINE through LEND (R421). -/
def State.chooseSpare (s : State) (e : Nat) (m : FieldMap) : Option Nat :=
  (s.spares e m).find? fun x => (checkUnits (m.subst e (some x)) s.retiredEng).1 == 0

/-- An entry is added to the repair record, and a commit starts (R418, R421). -/
def State.addRepair (s : State) (r : RepairEntry) : State :=
  ({ s with ftt := { s.ftt with entries := s.ftt.entries ++ [r] } }).requestCommit

/-- The replacement of a retired engine: REPAIR or REPAIR_NOSPARE, the edit that waits for its edge, the commit (R421,
R422). -/
def State.replaceEngine (s : State) (e : Nat) : State :=
  let m := s.editedMap
  if (m.eng e).active then
    let sp := s.chooseSpare e m
    let s1 : State := match sp with
      | some x => ((s.modEngine e fun r => { r with spare := some x }).modEngine x fun r => { r with serves := some e }).errlog
          { code := 0x818, arg := BitVec.ofNat 64 (engUnit e + 2 ^ 32 * engUnit x) }
      | none => s.errlog { code := 0x819, arg := BitVec.ofNat 64 (engUnit e) }
    let s2 : State := { s1 with ftt := { s1.ftt with edits := s1.ftt.edits ++ [(e, sp, s.now)] } }
    s2.addRepair ⟨1, e, sp.getD 0x1FF, 0⟩
  else s.addRepair ⟨1, e, 0x1FF, 0⟩

/-- A self-test in engine `e`'s slots ends with it. -/
def State.clearTest (s : State) (e : Nat) : State :=
  let s1 : State := { s with dcs := { s.dcs with seqF := s.dcs.seqF.adj [] (e / 16) fun l => l.filter (· != e) } }
  (s1.cancelStart fun x => x == .front e).modEngine e fun r => { r with
    front := .empty, started := [], token := none, testAt := none, flushed := false, freeAt := s.now }

/-- Engine `e` fails its test: TEST_FAIL, RETIRED, its incarnation raised even without FLUSHED (R416). -/
def State.testFail (s : State) (e : Nat) : State :=
  let s1 := (s.clearTest e).modEngine e fun r => { r with service := .retired, repState := 2 }
  ((s1.errlog { code := 0x817, eng := some e, arg := BitVec.ofNat 64 (engUnit e) }).raiseInc e).replaceEngine e

/-- Engine `e` passes: IDLE, TEST_PASS (R416). -/
def State.testPass (s : State) (e : Nat) : State :=
  (((s.clearTest e).modEngine e fun r => { r with service := .inService, ran := false })).errlog
    { code := 0x816, eng := some e, arg := BitVec.ofNat 64 (engUnit e) }

/-- One repair edit (R422): in the active map, in the shadow where it fits, else SHVALID is cleared. -/
def State.applyEdit (s : State) (x : Nat × Option Nat × Nat) : State :=
  let f := s.fm
  let fits := (f.shadow.eng x.1).active && (match x.2.1 with | some y => !(f.shadow.eng y).active | none => true)
  let s1 : State := { s with fm := { f with
    active := f.active.subst x.1 x.2.1
    shadow := if fits then f.shadow.subst x.1 x.2.1 else f.shadow
    shvalid := f.shvalid && fits
    edits := if f.edits = 255 then 255 else f.edits + 1 } }
  let s2 : State := match x.2.1 with
    | some y => (s1.raiseInc y).modEngine y fun r => { r with service := .away }
    | none => s1
  (s2.capture ⟨0x0F, none, none, none, none, none, 2, s2.fm.active.gen⟩).coreEvent

/-- The edits whose edge this is: at least 64 sc after the retirement (R422). -/
def State.applyEdits (s : State) : State :=
  let (due, wait) := s.ftt.edits.partition fun x => s.since x.2.2 64
  due.foldl State.applyEdit { s with ftt := { s.ftt with edits := wait } }

/-! ### GS banks (R418) -/

/-- Physical bank `b`; at start-up banks 0 to 63 serve and 64 and 65 are free (R418, R424). -/
def bankReset (b : Nat) : Bank := if b < 64 then ⟨0, b, true, 0, 0, none, 0⟩ else ⟨1, 0, false, 0, 0, none, 0⟩

/-- Physical bank `b`. -/
def State.bankOf (s : State) (b : Nat) : Bank := (s.ftt.banks.look? b).getD (bankReset b)
/-- Changes physical bank `b`. -/
def State.modBank (s : State) (b : Nat) (f : Bank → Bank) : State :=
  { s with ftt := { s.ftt with banks := s.ftt.banks.ins b (f (s.bankOf b)) } }

/-- Every physical bank. -/
def bankIds : List Nat := List.range 66

/-- The lowest free spare bank; one that a copy is being made into is taken. -/
def State.freeBank? (s : State) : Option Nat :=
  bankIds.find? fun b => (s.bankOf b).st == 1 && bankIds.all fun c => (s.bankOf c).copyTo != some b

/-- A bank that reports an error starts its test: the copy into a spare, or TEST_DEFERRED; a bank already under test
only counts (R418). -/
def State.testBank (s : State) (b : Nat) : State :=
  let r := s.bankOf b
  if r.st ≠ 0 ∨ r.copyTo.isSome then s
  else match s.freeBank? with
    | some x => s.modBank b fun r => { r with copyTo := some x, at' := s.now, tests := satAdd 8 r.tests 1 }
    | none => s.errlog { code := 0x81A, arg := BitVec.ofNat 64 (bankUnit b) }

/-- GS_BANK_COPY_DONE (R418): the spare serves the logical bank, and the original's March test starts. -/
def execGsBankCopyDone (bank : Fin 66) (s : State) : Host.Outcome State Fault Refusal :=
  let r := s.bankOf bank
  match r.copyTo with
  | none => .next s
  | some x => s.when (r.st == 0 && s.since r.at' 8192)
      ((s.modBank x fun y => { y with st := 0, logical := r.logical, logv := true }).modBank bank fun y =>
        { y with st := 3, logical := 0, logv := false, copyTo := none, at' := s.now })

/-- GS_BANK_TEST_DONE (R418): the original becomes a free spare, or is RETIRED and recorded. -/
def execGsBankTestDone (bank : Fin 66) (pass : Bool) (s : State) : Host.Outcome State Fault Refusal :=
  s.when ((s.bankOf bank).st == 3)
    (if pass then (s.modBank bank fun y => { y with st := 1 }).errlog
        { code := 0x816, arg := BitVec.ofNat 64 (bankUnit bank) }
     else ((s.modBank bank fun y => { y with st := 2 }).errlog
        { code := 0x817, arg := BitVec.ofNat 64 (bankUnit bank) }).addRepair ⟨2, bank, 0x1FF, 0⟩)

/-- REPAIR_COMMIT_RETRY (R428): at the first tick edge at least 1 s after an abandoned commit. -/
def execRepairCommitRetry (s : State) : Host.Outcome State Fault Refusal :=
  match s.ftt.retryAt with
  | none => .next s
  | some t => s.when (decide (t ≤ s.tcs.start))
      (({ s with ftt := { s.ftt with retryAt := none } }).nvRequest (.commit 0))

end Sys2Proof.Machine
end

