-- ==== Sys2Proof/Machine/Engines.lean ====
section
/-! DEFINITION. Engines at the slot interface: tokens that end in EMPTY or FLUSHED, preempt answers, notices, resets and
returns, completion records, restores, self-tests (R24 to R37, R179 to R186, R350 to R356, R416, R417). -/
namespace Sys2Proof.Machine

/-- Number of tasks that count when engine `e`'s started tasks are lost: self-tests do not. -/
def State.taskCount (s : State) (e : Nat) : Nat := ((s.engine e).started.filter fun x => !x.2.test).length

/-- Engine `e` runs a self-test, or one is on its way to its front slot. -/
def Engine.inTest (r : Engine) : Bool :=
  match r.front with
  | .committed t _ => t.test
  | .driven t _ => t.test
  | .running t _ => t.test
  | .empty => false

/-! ### Completion records (R179 to R184) -/

/-- Engine `e` no longer runs its front task, which has left the started set; the expected SEQ is that of the task
started next (R183). -/
def State.leaveStarted (s : State) (e : Nat) (t : Task) : State :=
  s.modEngine e fun r =>
    let l := r.started.filter fun x => x.2 != t
    { r with
      started := l, front := .empty, freeAt := s.now
      seqx := match l with | (n, _) :: _ => n | [] => r.nextSeq }

/-- The fields of a completion record (R179). -/
structure CplRec where
  sow    : Nat
  node   : Nat
  fn     : Nat
  eng    : Nat
  inc    : BitVec 8
  seq    : BitVec 16
  status : Nat
  ce     : Bool
  digest : W64
  busy   : Nat
  detail : Nat

/-- Reads a completion record. -/
def CplRec.decode (r : BitVec 256) : CplRec :=
  ⟨fld r 0 32, fld r 32 26, fld r 64 8, fld r 72 4, BitVec.ofNat 8 (fld r 76 8), BitVec.ofNat 16 (fld r 84 16),
    fld r 100 8, bit r 108, BitVec.ofNat 64 (fld r 128 64), fld r 192 32, fld r 224 16⟩

/-- The record belongs to task `t` (R182 step 4, R417). -/
def CplRec.names (c : CplRec) (t : Task) : Bool :=
  if t.test then c.sow == 0 && c.node == 0 && c.fn == 0
  else c.fn * 2 ^ 32 + c.sow == t.sow && c.node == t.node

/-- The record belongs to no started task: every started task is lost with COMPLETION_BAD, and the engine is tested; a
test's fails (R35, R182 step 4, R416). -/
def State.badRecord (s : State) (e : Nat) : State :=
  let n := s.taskCount e
  if (s.engine e).inTest then s.testFail e
  else (s.loseStarted e { code := 0x108, arg := BitVec.ofNat 64 n }).takeOut e

/-- A test's record (R416). -/
def State.testRecord (s : State) (e : Nat) (c : CplRec) : State :=
  let s1 := (s.bumpEng e (if c.status = 0 then 1 else 2) 1).bumpEng e 4 c.busy
  if c.status = 0 ∧ c.ce = false ∧ (s.engine e).service = .testing then s1.testPass e else s1.testFail e

/-- A corrected error that the engine reports (R184, R412). -/
def State.engineCe (s : State) (e : Nat) (c : CplRec) : State :=
  if c.ce then
    ((s.errlog { code := 0x815, eng := some e, arg := BitVec.ofNat 64 (engUnit e) }).modEngine e fun r => { r with
      ceCount := satAdd 8 r.ceCount 1 }).bumpEng e 13 1
  else s

/-- The status of an accepted record takes effect on its sowing (R115, R180, R182 step 5). -/
def State.statusEffect (s : State) (e : Nat) (t : Task) (c : CplRec) : State :=
  if c.status = 0 then s.retireNode t.sow t.node c.digest (some e)
  else
    let s1 := s.modSowing t.sow fun w => { w with lost := w.lost + 1 }
    if c.status ≤ 7 then
      s1.failSowing t.sow { code := 0x100 + c.status, node := some t.node, eng := some e, detail := c.detail }
    else s1.failSowing t.sow { code := 0x108, node := some t.node, eng := some e, arg := 1 }

/-- Step 5 of R182: the task has completed; the trace, the flow, the slice, the plot commands that wait, the status. A
task that a function reset has counted as lost completes nothing (R414). -/
def State.acceptRecord (s : State) (e : Nat) (t : Task) (c : CplRec) : State :=
  let w := s.sowing? t.sow
  let sent := match (s.engine e).preempt with | some p => p.driven.isSome | none => false
  let s1 := if w.isNone then s else (((s.bumpEng e (if c.status = 0 then 1 else 2) 1).bumpEng e 4 c.busy).capture
    ⟨0x05, w.map (·.fn), w.map (·.plot), some e, w.map (·.id), some t.node, c.status + 256 * b2n c.ce,
      pack [(0, 32, c.busy), (32, 16, c.seq.toNat)]⟩)
  let s2 := ((s1.leaveStarted e t).dropProducers t.sow t.node).modEngine e fun r => { r with idleFrom := some s.now }
  let s3 := match w with | some x => s2.freeFlow t.sow t.node x | none => s2
  let s4 := match t.slice with | some (p, i) => s3.freeSlice p i | none => s3
  let s5 := if sent then s4 else s4.countTask e fun x => { x with done := x.done + 1 }
  let s6 := (s5.engineCe e c).statusEffect e t c
  if c.ce ∨ c.status = 4 then s6.takeOut e else s6.settleEngine e

/-- The k oldest started tasks of engine `e` are lost with ENGINE_RESET (R35). -/
def State.loseOldest (s : State) (e k : Nat) : State :=
  let l := (s.engine e).started
  let s1 := s.modEngine e fun r => { r with started := l.drop k, seqx := r.seqx + BitVec.ofNat 16 k }
  (l.take k).foldl (fun t x => t.loseTask e x.2 { code := 0x109, arg := BitVec.ofNat 64 k }) s1

/-- Steps 4 and 5 for the record that carries the expected SEQ. -/
def State.identify (s : State) (e : Nat) (c : CplRec) : State :=
  match (s.engine e).started with
  | [] => s.badRecord e
  | (n, t) :: _ =>
    if n = c.seq ∧ c.names t = true then
      (let s1 := s.modEngine e fun r => { r with seqx := c.seq + 1 }
       if t.test then s1.testRecord e c else s1.acceptRecord e t c)
    else s.badRecord e

/-- A record of a cluster's port (R30, R35, R182 to R184). -/
def State.takeRecord (s : State) (cluster : Nat) (c : CplRec) : State :=
  let e := cluster * 16 + c.eng
  let r := s.engine e
  let k := (c.seq - r.seqx).toNat
  if (engineKind? e).isNone || !s.active e then s.errlog { code := 0x108 }
  else if c.inc ≠ r.inc then s.errlog { code := 0x802, eng := some e }
  else if k = 0 then s.identify e c
  else if 32768 ≤ k then s.errlog { code := 0x803, eng := some e, arg := c.seq.zeroExtend 64 }
  else if r.started.length < k then s.badRecord e
  else (s.loseOldest e k).identify e c

/-! ### The Completion Collector (R30, R181, R317) -/

/-- Input buffer of cluster `c` (R181). -/
def State.ccBuf (s : State) (c : Nat) : List (BitVec 256) := s.cc.bufs.look [] c

/-- esi_crdy_o of cluster `c`: its input buffer is not full (R30). -/
def State.crdy (s : State) (c : Nat) : Bool := decide ((s.ccBuf c).length < 32)

/-- A record is of the first lane: its engine is in a deterministic plot (R317). -/
def State.ccLane (s : State) (c : Nat) (r : BitVec 256) : Bool :=
  (s.plotCfg (s.plotOf (c * 16 + fld r 72 4))).det

/-- The record that the CC serves next: round-robin over the clusters from the one after the last served, the first lane
before the second (R181, R317). -/
def State.ccNext (s : State) : Option (Nat × BitVec 256) :=
  let l := (List.range 32).map fun j => (s.cc.last + 1 + j) % 32
  (l.findSome? fun c => ((s.ccBuf c).find? (s.ccLane c)).map fun r => (c, r)).or
    (l.findSome? fun c => (s.ccBuf c).head?.map fun r => (c, r))

/-- The CC serves one record, the `taken`th of its sc. -/
def State.ccServe (s : State) : State :=
  match s.ccNext with
  | none => s
  | some (c, r) => State.takeRecord { s with
      cc := ⟨s.cc.bufs.put [] c ((s.ccBuf c).erase r), c⟩
      inSc := { s.inSc with taken := s.inSc.taken + 1 } } c (CplRec.decode r)

/-- COMPLETION_RECORD (R30, R181): a record presented while the cluster's buffer is full is not taken; one that is taken is
served at once when the CC has taken fewer than 4 records in the sc, and in a later sc otherwise (log 31). -/
def execCompletionRecord (cluster : Fin 32) (record : BitVec 256) (s : State) : Host.Outcome State Fault Refusal :=
  let s1 : State := { s with cc := { s.cc with bufs := s.cc.bufs.adj [] cluster fun l => l ++ [record] } }
  s.fromPort cluster (s.when (s.crdy cluster) (if s.inSc.taken < 4 then s1.ccServe else s1))

/-- The records in cluster `c`'s buffer are checked before what raises an incarnation takes effect (R34, R182). -/
def State.checkRecords (s : State) (c : Nat) : State :=
  (s.ccBuf c).foldl (fun t r => t.takeRecord c (CplRec.decode r)) { s with cc := { s.cc with bufs := s.cc.bufs.put [] c [] } }

/-! ### Sleep entry (R56, R185) -/

/-- SLEEP_ACK (R56, R185): the incarnations of the domain's engines are raised; an acknowledgement after the request
was dropped is ignored. -/
def execSleepAck (cluster : Fin 32) (s : State) : Host.Outcome State Fault Refusal :=
  s.when (match s.domain cluster with | .sleeping _ => true | _ => false)
    ((clusterEngines cluster).foldl (fun t e => if (engineKind? e).isSome then
      (t.raiseInc e).modEngine e fun r => { r with
        service := if r.service == .retired then .retired else .away, emptyOk := false }
      else t) ((s.checkRecords cluster).setDomain cluster .asleep))

/-! ### Tokens (R26, R31, R56, R186) -/

/-- TOKEN_EMPTY (R31, R172, R186): a held node is unstarted; a flush disagrees, but for the first after a sleep request
that was dropped (R56). -/
def State.onTokenEmpty (s : State) (eng : Nat) : Host.Outcome State Fault Refusal :=
  match (s.engine eng).token with
  | none => .next s
  | some op =>
    let s1 := s.modEngine eng fun r => { r with token := none }
    s.when true
      (if op ≠ 2 then (s1.emptyBack eng (some 2)).settleEngine eng
       else if (s.engine eng).emptyOk then
         ((s1.raiseInc eng).modEngine eng fun r => { r with emptyOk := false }).driveToken eng 2
       else (s1.errlog { code := 0x804, eng := some eng }).testFail eng)
/-- TOKEN_EMPTY from the port. -/
def execTokenEmpty (eng : Fin 512) (s : State) : Host.Outcome State Fault Refusal := s.fromPort (eng / 16) (s.onTokenEmpty eng)

/-- TOKEN_FLUSHED (R185, R186, R416): the copy is raised, SEQ restarts at 0, and the targeted self-test is due. -/
def State.onTokenFlushed (s : State) (eng : Nat) : Host.Outcome State Fault Refusal :=
  s.when ((s.engine eng).token == some 2)
    (((s.checkRecords (eng / 16)).raiseInc eng).modEngine eng fun r => { r with
      token := none, flushed := true, emptyOk := false
      service := if r.service == .retired then .retired else .testing })
/-- TOKEN_FLUSHED from the port. -/
def execTokenFlushed (eng : Fin 512) (s : State) : Host.Outcome State Fault Refusal := s.fromPort (eng / 16) (s.onTokenFlushed eng)

/-- ENGINE_RETURN (R186): the engine is up, out of reset and its domain awake; one whose incarnation was raised is sent
FLUSH with the copy. -/
def execEngineReturn (eng : Fin 512) (s : State) : Host.Outcome State Fault Refusal :=
  let one : BitVec 512 := BitVec.ofNat 512 (2 ^ eng.val)
  let s1 : State := { s with pins := { s.pins with up := s.pins.up ||| one, rst := s.pins.rst &&& ~~~one } }
  s.when (engineKind? eng).isSome
    (if (s.engine eng).service == .away && s.active eng && s.domain (eng / 16) == .awake then
       (s1.modEngine eng fun r => { r with service := .returning }).driveToken eng 2
     else s1)

/-! ### Self-tests (R416, R417) -/

/-- ENGINE_SELF_TEST (R416): an engine out of service that runs nothing is flushed; one that has been is given the test
descriptor. -/
def execEngineSelfTest (eng : Fin 512) (s : State) : Host.Outcome State Fault Refusal :=
  let r := s.engine eng
  match engineKind? eng with
  | none => .next s
  | some k =>
    s.when (r.token.isNone && r.front == .empty && r.back.st == .empty && r.started.isEmpty && r.preempt.isNone
        && s.domain (eng / 16) == .awake && (r.service == .out || (r.service == .testing && r.flushed)))
      (if r.service == .out then s.driveToken eng 2
       else (s.modEngine eng fun r => { r with tests := satAdd 8 r.tests 1 }).commitFront eng ⟨0, 0, k, none, true⟩)

/-- SELF_TEST_TIMEOUT (R416): no FLUSHED within 1,024 sc, or no passing record within 4,000,000 sc. -/
def execSelfTestTimeout (eng : Fin 512) (s : State) : Host.Outcome State Fault Refusal :=
  let r := s.engine eng
  s.when ((r.token == some 2 && s.since r.tokenAt 1024)
      || (r.service == .testing && match r.testAt with | some t => s.since t 4000000 | none => false))
    (s.testFail eng)

/-! ### Resets and missing acknowledgements (R25, R32 to R37) -/

/-- A descriptor that engine `e` acknowledged in the sc of its reset counts as not accepted (R170). -/
def State.unaccept (s : State) (e : Nat) : State :=
  match (s.engine e).front with
  | .running t since =>
    if (s.engine e).ackAt = some s.now ∧ since = s.now then
      let s1 := (s.modEngine e fun r => { r with
        front := .driven t s.now, started := r.started.dropLast, nextSeq := r.nextSeq - 1 }).bumpEng e 0 (2 ^ 64 - 1)
      match t.slice with
      | some (p, i) => s1.modPlot p fun r => { r with saved := r.saved.map fun x =>
          if x.slice = i then { x with begun := false } else x }
      | none => s1
    else s
  | _ => s

/-- Engine `e` resets or goes down (R32 to R37, R170, R185): records in the CC's buffer are checked, undelivered and held
tasks are unstarted, started ones lost, the preempt request counts as answered, notices lapse, the incarnation is raised. -/
def State.engineGone (s0 : State) (e : Nat) : State :=
  let s := (s0.checkRecords (e / 16)).unaccept e
  let r := s.engine e
  let n := s.taskCount e
  let s1 := match r.preempt with
    | some p => (s.dropSlice p).modEngine e fun r => { r with preempt := none }
    | none => s
  let s2 := (s1.modEngine e fun r => { r with token := none }).dropFront e
  let s3 := (s2.modEngine e fun r => { r with back := { r.back with trigger := 7 } }).emptyBack e none
  let s4 := s3.loseStarted e { code := 0x109, arg := BitVec.ofNat 64 n }
  ((s4.raiseInc e).modEngine e fun r => { r with
    notice := none, noticeQ := [], flushed := false, emptyOk := false, testAt := none,
    service := if r.service == .retired then .retired else .away }).settleEngine e

/-- ENGINE_RESET (R32 to R36); with a fall of esi_up_i in the same sc it is one event (R37). -/
def execEngineReset (eng : Fin 512) (s : State) : Host.Outcome State Fault Refusal :=
  let s1 : State := { s with pins := { s.pins with rst := s.pins.rst ||| BitVec.ofNat 512 (2 ^ eng.val) } }
  s.when (engineKind? eng).isSome (if s.looped (eng / 16) || (s.engine eng).goneAt == some s.now then s1 else s1.engineGone eng)

/-- The domain of cluster `c` enters sleep or sleeps (R37). -/
def State.asleep (s : State) (c : Nat) : Bool :=
  match s.domain c with
  | .asleep => true
  | .sleeping _ => true
  | _ => false

/-- ENGINE_DOWN (R37): handled as a reset, unless the engine is in reset or its domain sleeps. -/
def execEngineDown (eng : Fin 512) (s : State) : Host.Outcome State Fault Refusal :=
  let s1 : State := { s with pins := { s.pins with up := s.pins.up &&& ~~~(BitVec.ofNat 512 (2 ^ eng.val)) } }
  s.when (engineKind? eng).isSome
    (if s.pins.rst.getLsbD eng || s.asleep (eng / 16) || s.looped (eng / 16) then s1
     else (s1.engineGone eng).modEngine eng fun r => { r with goneAt := some s.now })

/-- The task whose descriptor engine `e` has not acknowledged for longest. -/
def Engine.unackedTask (r : Engine) : Option Task :=
  match r.unacked, r.front with
  | some (true, _), .driven t _ => some t
  | some (false, _), _ => some r.back.task
  | _, _ => none

/-- DESCRIPTOR_ACK_TIMEOUT (R25): the task returns to its list, the engine goes to targeted self-test; a test
descriptor's test fails. -/
def execDescriptorAckTimeout (eng : Fin 512) (s : State) : Host.Outcome State Fault Refusal :=
  match (s.engine eng).unacked, (s.engine eng).unackedTask with
  | some (_, at'), some t =>
    s.when (s.since at' 1024)
      (if t.test then s.testFail eng
       else
         let w := s.sowing? t.sow
         let s1 := s.report (t.sow / 2 ^ 32)
           { code := 0x10A, plot := w.map (·.plot), sow := w.map (·.id), queue := w.map (·.queue),
             eng := some eng.val, node := some t.node, detail := 1 }
         (s1.dropFront eng).noAnswer eng 1)
  | _, _ => .next s

/-! ### Preempt answers (R29, R351, R352) -/

/-- PREEMPT_RESULT (R430). -/
def State.tracePreempt (s : State) (e res slice : Nat) : State :=
  let t := match (s.engine e).front with | .running t _ => some t | _ => none
  let w := t.bind fun t => s.sowing? t.sow
  s.capture ⟨0x08, w.map (·.fn), w.map (·.plot), some e, w.map (·.id), t.map (·.node), res, BitVec.ofNat 64 slice⟩

/-- The preempt request driven to engine `e`. -/
def State.requested? (s : State) (e : Nat) : Option Preempt :=
  (s.engine e).preempt.filter fun p => p.driven.isSome

/-- PREEMPT_IDLE (R29, R351). -/
def State.onPreemptIdle (s : State) (eng : Nat) : Host.Outcome State Fault Refusal :=
  match s.requested? eng with
  | none => .next s
  | some p => s.when true ((((s.tracePreempt eng 0 0).dropSlice p).answered eng).settleEngine eng)
/-- PREEMPT_IDLE from the port. -/
def execPreemptIdle (eng : Fin 512) (s : State) : Host.Outcome State Fault Refusal := s.fromPort (eng / 16) (s.onPreemptIdle eng)

/-- PREEMPT_AT_BOUNDARY (R351): the task completed; its record was accepted before (R29). -/
def State.onPreemptAtBoundary (s : State) (eng : Nat) : Host.Outcome State Fault Refusal :=
  match s.requested? eng with
  | none => .next s
  | some p => s.when true
      ((((((s.checkRecords (eng / 16)).tracePreempt eng 1 0).countTask eng fun c => { c with done := c.done + 1 }).dropSlice p).answered
        eng).settleEngine eng)
/-- PREEMPT_AT_BOUNDARY from the port. -/
def execPreemptAtBoundary (eng : Fin 512) (s : State) : Host.Outcome State Fault Refusal := s.fromPort (eng / 16) (s.onPreemptAtBoundary eng)

/-- The directory entry of a saved task (R356). -/
def State.dirEntry (s : State) (t : Task) (e i : Nat) : Words :=
  [pack [(0, 32, t.sow % 2 ^ 32), (32, 26, t.node)], pack [(0, 8, t.sow / 2 ^ 32), (8, 9, e), (17, 9, i), (26, 1, 1)],
    pack [(0, 48, s.tcs.tick.toNat)], 0, 0, 0, 0, 0]

/-- A save fails: the task is lost with SAVE_FAILED (R351, R355). -/
def State.saveFailed (s : State) (e : Nat) (t : Task) (i : Nat) : State :=
  (s.countPlot e fun c => { c with fail := true }).loseTask e t { code := 0x10B, arg := BitVec.ofNat 64 i }

/-- A task joins its plot's saved list and its directory entry is written (R351, R356). -/
def State.saveTask (s : State) (e : Nat) (t : Task) (p i : Nat) : State :=
  let s0 : State := match t.slice with
    | some (q, j) => s.freeSlice q j
    | none => s
  let entry := s0.dirEntry t e i
  match s0.areaXfer p (i * 64) 64 true entry (.saveDir p i) with
  | some x => ((s0.countPlot e fun c => { c with saved := c.saved + 1 }).modPlot p fun r => { r with
      saved := r.saved ++ [⟨{ t with slice := none }, e, i, entry, none, false⟩] }).issue x
  | none => s0.saveFailed e { t with slice := some (p, i) } i

/-- PREEMPT_SAVED (R351, R356): the task leaves the started set and is saved; one whose sowing fails is lost at once
(R361), one of a function in reset is abandoned (R414); the engine's semaphore wait is cancelled (R243). -/
def State.onPreemptSaved (s : State) (eng : Nat) : Host.Outcome State Fault Refusal :=
  match s.requested? eng, (s.engine eng).front with
  | some p, .running t _ =>
    let s1 := (((s.tracePreempt eng 2 ((p.slice.map (·.2)).getD 0)).bumpEng eng 11 1).cancelEngWait eng false).leaveStarted eng t
    let s2 : State := match p.slice, s1.sowing? t.sow with
      | some (q, i), some w =>
        if w.st = .active then s1.saveTask eng t q i
        else (s1.dropSlice p).loseTask eng t { code := 0x10B, arg := BitVec.ofNat 64 i }
      | some _, none => (s1.dropSlice p).loseTask eng t { code := 0x30A }
      | none, _ => s1.loseTask eng t { code := 0x10B }
    s.when true ((s2.answered eng).settleEngine eng)
  | _, _ => .next s
/-- PREEMPT_SAVED from the port. -/
def execPreemptSaved (eng : Fin 512) (s : State) : Host.Outcome State Fault Refusal := s.fromPort (eng / 16) (s.onPreemptSaved eng)

/-- PREEMPT_SAVE_FAILED (R351). -/
def State.onPreemptSaveFailed (s : State) (eng : Nat) : Host.Outcome State Fault Refusal :=
  match s.requested? eng, (s.engine eng).front with
  | some p, .running t _ =>
    s.when true
      ((((((s.tracePreempt eng 3 0).leaveStarted eng t).dropSlice p).saveFailed eng t ((p.slice.map (·.2)).getD 0)).answered
        eng).settleEngine eng)
  | some p, _ => s.when true ((((s.tracePreempt eng 3 0).dropSlice p).answered eng).settleEngine eng)
  | _, _ => .next s
/-- PREEMPT_SAVE_FAILED from the port. -/
def execPreemptSaveFailed (eng : Fin 512) (s : State) : Host.Outcome State Fault Refusal := s.fromPort (eng / 16) (s.onPreemptSaveFailed eng)

/-- Engine `e` runs a task whose loss is recorded with its sowing's failure (R115). -/
def State.lossRecorded (s : State) (e : Nat) : Bool :=
  (s.engine e).started.any fun x => !x.2.test && match s.sowing? x.2.sow with
    | some w => w.st == .active
    | none => false

/-- ENGINE_NORESP of engine `e` where no sowing's failure records it: charged to the function of its task, or in the error log
alone when it has none (R352). -/
def State.noteNoresp (s : State) (e : Nat) : State :=
  let y : Report := { code := 0x10A, eng := some e, detail := 2 }
  if s.lossRecorded e then s
  else match (s.engine e).started.find? fun x => !x.2.test with
    | some x => s.report (x.2.sow / 2 ^ 32) { y with node := some x.2.node }
    | none => s.errlog y

/-- PREEMPT_NORESP (R352): no answer within the plot's PREEMPT_LIMIT. -/
def execPreemptNoresp (eng : Fin 512) (s : State) : Host.Outcome State Fault Refusal :=
  match s.requested? eng with
  | none => .next s
  | some p =>
    s.when (match p.driven with
        | some t => s.since t ((s.plotCfg (s.plotOf eng)).preemptLimit * scPerUs)
        | none => false)
      (((s.noteNoresp eng).countPlot eng fun c => { c with noresp := true }).noAnswer eng 2)

/-! ### Notices and restores (R353, R354) -/

/-- A notice write to engine `e` is acknowledged: the request or descriptor that waits on it may go (R354). -/
def State.noticeAcked (s : State) (e : Nat) : State :=
  match (s.engine e).notice with
  | none => s
  | some n =>
    let s1 := s.modEngine e fun r => { r with notice := some { n with acked := true } }
    if n.kind = 2 then
      (match (s1.engine e).front with
       | .committed _ _ => { s1 with dcs := { s1.dcs with seqF := s1.dcs.seqF.adj [] (e / 16) fun l => l ++ [e] } }
       | _ => s1)
    else s1.settleEngine e

/-- Transfer `x` wrote the notice that is outstanding for engine `e`, not an earlier one. -/
def State.noticeOf (s : State) (e : Nat) (x : Xfer) : Bool :=
  x.purpose == .notice e && match (s.engine e).notice with
    | some n => n.nseq.toNat == fld (x.data.at 0) 8 8
    | none => false

/-- A restore is lost with SAVE_FAILED (R353, R40). -/
def State.restoreLost (s : State) (e : Nat) : State :=
  match (s.engine e).front with
  | .committed t _ => match t.slice with
    | some (_, i) => ((s.dropFront e).loseTask e t { code := 0x10B, arg := BitVec.ofNat 64 i }).settleEngine e
    | none => s
  | _ => s

/-- SAVED_TASK_RESTORE (R353, step 1): the oldest saved task of the engine's plot and kind is read back. -/
def execSavedTaskRestore (eng : Fin 512) (s : State) : Host.Outcome State Fault Refusal :=
  let p := s.plotOf eng
  match engineKind? eng with
  | none => .next s
  | some k => match s.restorable p k with
    | none => .next s
    | some x =>
      let s1 := (s.modPlot p fun r => { r with saved := r.saved.map fun y =>
        if y.slice = x.slice then { y with check := some eng.val } else y }).modEngine eng fun r => { r with
          front := .committed { x.task with slice := some (p, x.slice) } r.inc }
      s.when (s.eligible eng p k)
        (match s1.areaXfer p (x.slice * 64) 64 false [] (.saveRead p x.slice eng) with
         | some xf => s1.issue xf
         | none => s1.restoreLost eng)

/-- The directory entry has come back, or failed (R353, steps 1 and 2). -/
def State.restoreRead (s : State) (p i e : Nat) (data : Option Words) : State :=
  match (s.engine e).front, (s.plot p).saved.find? fun x => x.slice == i with
  | .committed t _, some x =>
    if t.slice = some (p, i) ∧ x.check = some e then
      (if data = some x.entry then s.sendNotice e 2 (t.sow / 2 ^ 32) 0 else s.restoreLost e)
    else s
  | .committed t _, none => if t.slice = some (p, i) then s.dropFront e else s
  | _, _ => s

/-! ### Layer digests (R189) -/

/-- LAYER_DIGEST_EVICT (R189). -/
def execLayerDigestEvict (fn : Fin 256) (id : BitVec 32) (layer : Fin 4096) (s : State) : Host.Outcome State Fault Refusal :=
  match s.sowing? (sowKey fn id) with
  | none => .next s
  | some w => s.when (w.layers.look? layer).isSome (s.evictLayer (sowKey fn id) w layer)

end Sys2Proof.Machine
end

