-- ==== Sys2Proof/Machine/Mailboxes.lean ====
section
/-! DEFINITION. The mailbox and doorbell unit (R374 to R385): doorbells, notifications, word queues, the channel lock.
The read data of a firmware-side access is shown where a host-side one's is (log 48). -/
namespace Sys2Proof.Machine

/-- Offset of a register of channel `c`'s host page (R375). -/
def mbxOffset (c r : Nat) : Nat := 0x2000000 + c * 0x1000 + r

/-- The host side of channel `c` admits the requester (R374); the firmware side is reached from machine mode only. -/
def State.mbxOk (s : State) (req : Req) (c : Nat) (firmware : Bool) : Bool :=
  firmware || (s.admitted req &&
    (req.sec || (c == 1 && req.fn.val == 0) || (decide (2 ≤ c) && req.fn.val + 2 == c)))

/-! ### Word queues (R380 to R382) -/

/-- Words of the queue in use, reserved ones included. -/
def WordQ.used (w : WordQ) : Nat := w.words.length + w.coming.flatten.length + w.part.length + w.opened.getD 0

/-- A packet is complete: it becomes visible in the next sc (R380). -/
def WordQ.complete (w : WordQ) (pkt : Words) : WordQ := { w with coming := w.coming ++ [pkt], opened := none, part := [] }

/-- The packets completed in the sc that ends become visible (R380). -/
def WordQ.show (w : WordQ) : WordQ :=
  { w with words := w.words ++ w.coming.flatten, pkts := w.pkts ++ w.coming.map (·.length), coming := [], kept := none }

/-- A word is written at `now`: the last of a packet that a flush of this sc abandoned, which survives (R382), a payload word,
one to be discarded, or a header that is accepted or refused (R380). -/
def WordQ.write (w0 : WordQ) (x : W64) (now : Nat) : WordQ :=
  let w := { w0 with kept := none }
  match w0.kept.filter (fun k => k.1 == now), w.opened with
  | some k, _ => w.complete (k.2 ++ [x])
  | none, some n =>
    if n ≤ 1 then w.complete (w.part ++ [x]) else { w with part := w.part ++ [x], opened := some (n - 1) }
  | none, none =>
    let len := fld x 0 4
    if 0 < w.discard then { w with discard := w.discard - 1 }
    else if 16 < w.used + len + 1 then { w with ovr := some now, discard := len }
    else if len = 0 then w.complete [x]
    else { w with part := [x], opened := some len }

/-- A word is read: the next visible one, or 0 with UNDER (R381). -/
def WordQ.read (w : WordQ) (now : Nat) : W64 × WordQ :=
  match w.words with
  | [] => (0, { w with und := some now })
  | x :: r =>
    let pkts := match w.pkts with
      | n :: l => if n ≤ 1 then l else (n - 1) :: l
      | [] => []
    (x, { w with words := r, pkts := pkts })

/-- TXFLUSH (R382): a packet whose last word comes in the same sc survives. -/
def WordQ.abandon (w : WordQ) (now : Nat) : WordQ :=
  { w with opened := none, part := [], discard := 0, kept := if w.opened = some 1 then some (now, w.part) else none }
/-- RXFLUSH (R382). -/
def WordQ.empty (w : WordQ) : WordQ := { w with words := [], pkts := [] }

/-- Changes the outgoing queue of a side. -/
def Channel.modTx (c : Channel) (firmware : Bool) (f : WordQ → WordQ) : Channel :=
  if firmware then { c with toHost := f c.toHost } else { c with toFw := f c.toFw }
/-- Changes the incoming queue of a side. -/
def Channel.modRx (c : Channel) (firmware : Bool) (f : WordQ → WordQ) : Channel := c.modTx (!firmware) f
/-- The outgoing queue of a side. -/
def Channel.tx (c : Channel) (firmware : Bool) : WordQ := if firmware then c.toHost else c.toFw
/-- The incoming queue of a side. -/
def Channel.rx (c : Channel) (firmware : Bool) : WordQ := c.tx (!firmware)

/-! ### Operations of a side -/

/-- Rings bits toward the other side (R377). -/
def State.ringSide (s : State) (c : Nat) (firmware : Bool) (bits : BitVec 32) : State :=
  if firmware then s.ringHost c bits else s.modChannel c fun r => { r with fwOut := r.fwOut.ring bits s.now }

/-- Clears rung bits (R17, R377, R379). -/
def State.clearRung (s : State) (c : Nat) (firmware : Bool) (bits : BitVec 32) : State :=
  if firmware then s.modChannel c fun r => { r with fwOut := r.fwOut.wipe bits s.now }
  else (s.modChannel c fun r => { r with hostOut := r.hostOut.wipe bits s.now }).notify c false

/-- The machine external interrupt of core 0: an unmasked bit of MBX_DBOUT on the firmware side of a channel (R378). -/
def State.coreInterrupt (s : State) : Bool := s.mdu.chans.any fun kv => (kv.2.fwOut.bits &&& ~~~kv.2.fwMask) ≠ 0

/-- Writes the mask: unmasking a bit that is set makes a notification due (R379). -/
def State.setMask (s : State) (c : Nat) (firmware : Bool) (mask : BitVec 32) : State :=
  if firmware then s.modChannel c fun r => { r with fwMask := mask }
  else
    let old := s.channel c
    let fresh := old.hostOut.bits &&& old.hostMask &&& ~~~mask ≠ 0
    (s.modChannel c fun r => { r with hostMask := mask, given := r.given && !decide fresh }).notify c fresh

/-- A mailbox write of a side. -/
def State.mbxWrite (s : State) (req : Req) (c r : Nat) (firmware : Bool) (f : State → State) :
    Host.Outcome State Fault Refusal := s.regWrite req (mbxOffset c r) (s.mbxOk req c firmware) f

/-- MBX_DBIN (R377, R378). -/
def execMbxDbin (req : Req) (ch : Fin 258) (firmware : Bool) (bits : BitVec 32) (s : State) :
    Host.Outcome State Fault Refusal :=
  s.mbxWrite req ch 0x00 firmware fun t => t.ringSide ch firmware bits
/-- MBX_DBOUT_CLEAR (R377). -/
def execMbxDboutClear (req : Req) (ch : Fin 258) (firmware : Bool) (bits : BitVec 32) (s : State) :
    Host.Outcome State Fault Refusal :=
  s.mbxWrite req ch 0x08 firmware fun t => t.clearRung ch firmware bits
/-- MBX_DBMASK_WRITE (R379). -/
def execMbxDbmaskWrite (req : Req) (ch : Fin 258) (firmware : Bool) (mask : BitVec 32) (s : State) :
    Host.Outcome State Fault Refusal :=
  s.mbxWrite req ch 0x10 firmware fun t => t.setMask ch firmware mask
/-- MBX_TX (R380). -/
def execMbxTx (req : Req) (ch : Fin 258) (firmware : Bool) (word : W64) (s : State) :
    Host.Outcome State Fault Refusal :=
  s.mbxWrite req ch 0x28 firmware fun t => t.modChannel ch fun c => c.modTx firmware fun w => w.write word t.now
/-- MBX_RX (R381). -/
def execMbxRx (req : Req) (ch : Fin 258) (firmware : Bool) (s : State) : Host.Outcome State Fault Refusal :=
  s.access req (mbxOffset ch 0x30) (s.mbxOk req ch firmware) false fun t =>
    (((t.channel ch).rx firmware).read t.now |>.1, t.modChannel ch fun c => c.modRx firmware fun w => (w.read t.now).2)
/-- TXFLUSH (R382). -/
def execTxflush (req : Req) (ch : Fin 258) (firmware : Bool) (s : State) : Host.Outcome State Fault Refusal :=
  s.mbxWrite req ch 0x38 firmware fun t => t.modChannel ch fun c => c.modTx firmware fun w => w.abandon t.now
/-- RXFLUSH (R382). -/
def execRxflush (req : Req) (ch : Fin 258) (firmware : Bool) (s : State) : Host.Outcome State Fault Refusal :=
  s.mbxWrite req ch 0x38 firmware fun t => t.modChannel ch fun c => c.modRx firmware WordQ.empty

/-- A notify write of channel `c` has ended (R379): one further write for a bit that rose meanwhile, with which the notification
is given. -/
def State.notified (s : State) (c : Nat) (ok : Bool) : State :=
  let s1 := if ok then s else s.errlog { code := 0x812, arg := BitVec.ofNat 64 c }
  let again := (s1.channel c).again && (s1.channel c).due
  let s2 := s1.modChannel c fun r => { r with underway := false, again := false }
  if again && bit (s2.channel c).notval 32 then (s2.modChannel c fun r => { r with given := true }).notifyWrite c
  else s2.notify c false

/-! ### The channel lock (R384, R385) -/

/-- The lock of channel `c`. -/
def State.lock (s : State) (c : Nat) : Lock := s.mdu.locks.look Lock.reset c
/-- Changes the lock of channel `c`. -/
def State.modLock (s : State) (c : Nat) (f : Lock → Lock) : State :=
  { s with mdu := { s.mdu with locks := s.mdu.locks.adj Lock.reset c f } }

/-- HELD and TAG become 0 (R385). -/
def Lock.freed (l : Lock) : Lock := { l with held := false, tag := 0 }

/-- FN and SEC of a writer (R384): the firmware side has 0 and 1. -/
def lockFn (req : Req) (firmware : Bool) : Nat := if firmware then 0 else req.fn.val
/-- SEC of a writer. -/
def lockSec (req : Req) (firmware : Bool) : Bool := firmware || req.sec

/-- A write of MBX_LOCK (R384): of the claims of one sc, those of the firmware side go first. -/
def State.writeLock (s : State) (req : Req) (c : Nat) (firmware rel : Bool) (tag : BitVec 16) : State :=
  let l := s.lock c
  if rel then
    (if l.held && l.tag == tag && l.side == firmware && l.fn == lockFn req firmware && l.sec == lockSec req firmware
     then s.modLock c Lock.freed else s)
  else if (!l.held || (firmware && !l.side && l.at' == s.now)) && tag ≠ 0 then
    s.modLock c fun l => { l with
      held := true, tag := tag, side := firmware, fn := lockFn req firmware, sec := lockSec req firmware, at' := s.now }
  else s

/-- MBX_LOCK_CLAIM (R384). -/
def execMbxLockClaim (req : Req) (ch : Fin 2) (firmware : Bool) (tag : BitVec 16) (s : State) :
    Host.Outcome State Fault Refusal :=
  s.mbxWrite req ch 0x40 firmware fun t => t.writeLock req ch firmware false tag
/-- MBX_LOCK_RELEASE (R384). -/
def execMbxLockRelease (req : Req) (ch : Fin 2) (firmware : Bool) (tag : BitVec 16) (s : State) :
    Host.Outcome State Fault Refusal :=
  s.mbxWrite req ch 0x40 firmware fun t => t.writeLock req ch firmware true tag
/-- MBX_LOCK_BROKEN (R385). -/
def execMbxLockBroken (ch : Fin 2) (s : State) : Host.Outcome State Fault Refusal :=
  let l := s.lock ch
  s.when (l.held && s.since l.at' (2 ^ 24))
    ((s.modLock ch fun l => { l.freed with broken := some s.now }).errlog { code := 0x813, arg := BitVec.ofNat 64 ch.val })

/-- Host-side locks held by function `n` are released (R385). -/
def State.releaseLocks (s : State) (n : Nat) : State :=
  [0, 1].foldl (fun t c => let l := t.lock c
    if l.held && !l.side && l.fn == n then t.modLock c Lock.freed else t) s

/-! ### Register images of a side (R375, R376) -/

/-- MBX_QSTAT of a side (R381). -/
def Channel.qstat (c : Channel) (firmware : Bool) : W64 :=
  let t := c.tx firmware
  let r := c.rx firmware
  pack [(0, 5, 16 - t.used), (5, 5, r.words.length), (10, 5, r.pkts.length), (15, 1, b2n t.opened.isSome),
    (16, 1, b2n t.ovr.isSome), (17, 1, b2n r.und.isSome)]

/-- MBX_LOCK as it reads (R384). -/
def Lock.word (l : Lock) : W64 :=
  pack [(0, 16, l.tag.toNat), (32, 1, b2n l.held), (33, 1, b2n l.side), (34, 8, l.fn), (42, 1, b2n l.sec),
    (43, 1, b2n l.broken.isSome)]

/-- A read of the registers of a side of channel `c` at `r`; MBX_RX takes a word (R375, R376, R381). -/
def State.readMbx (s : State) (c r : Nat) (firmware : Bool) : W64 × State :=
  let ch := s.channel c
  let mine := if firmware then ch.fwOut else ch.hostOut
  let other := if firmware then ch.hostOut else ch.fwOut
  match r with
  | 0x00 => (other.bits.zeroExtend 64, s)
  | 0x08 => (mine.bits.zeroExtend 64, s)
  | 0x10 => ((if firmware then ch.fwMask else ch.hostMask).zeroExtend 64, s)
  | 0x18 => (if firmware then 0 else ch.notaddr, s)
  | 0x20 => (if firmware then 0 else ch.notval.zeroExtend 64, s)
  | 0x30 => ((ch.rx firmware).read s.now |>.1, s.modChannel c fun x => x.modRx firmware fun w => (w.read s.now).2)
  | 0x38 => (ch.qstat firmware, s)
  | 0x40 => (if c < 2 then (s.lock c).word else 0, s)
  | _ => (0, s)

/-- A write of the registers of a side of channel `c` at `r` (R375, R376). -/
def State.writeMbx (s : State) (req : Req) (c r : Nat) (firmware : Bool) (v : W64) : State :=
  match r with
  | 0x00 => s.ringSide c firmware (v.truncate 32)
  | 0x08 => s.clearRung c firmware (v.truncate 32)
  | 0x10 => s.setMask c firmware (v.truncate 32)
  | 0x18 => if firmware then s else s.modChannel c fun x => { x with notaddr := v }
  | 0x20 => if firmware then s else (s.modChannel c fun x => { x with notval := v.truncate 33 }).notify c false
  | 0x28 => s.modChannel c fun x => x.modTx firmware fun w => w.write v s.now
  | 0x38 =>
    let f (w : WordQ) : WordQ := if bit v 18 then w.abandon s.now else w
    let g (w : WordQ) : WordQ := if bit v 19 then w.empty else w
    let wipe (x : Option Nat) (b : Bool) : Option Nat := if b then wiped x s.now else x
    s.modChannel c fun x =>
      (x.modTx firmware fun w => { f w with ovr := wipe w.ovr (bit v 16) }).modRx firmware fun w =>
        { g w with und := wipe w.und (bit v 17) }
  | 0x40 =>
    if c < 2 then
      (s.writeLock req c firmware (bit v 31) (v.truncate 16)).modLock c fun l =>
        { l with broken := if bit v 43 then wiped l.broken s.now else l.broken }
    else s
  | _ => s

/-- The packets completed in the sc that ends become visible in every channel (R380). -/
def State.showPackets (s : State) : State :=
  { s with mdu := { s.mdu with chans := s.mdu.chans.map fun kv =>
    (kv.1, { kv.2 with toFw := kv.2.toFw.show, toHost := kv.2.toHost.show }) } }

end Sys2Proof.Machine
end

