-- ==== Sys2Proof/Machine/GraphStore.lean ====
section
/-! DEFINITION. The Graph Store (R66 to R97): allocation, loading, states, the furrow check, zeroing. -/
namespace Sys2Proof.Machine

/-! ### Pools and quotas (R67 to R71) -/

/-- Slots of the pools. -/
def nodePool : Nat := 1048576
/-- Edge slots. -/
def edgePool : Nat := 8388608
/-- Parameter pages. -/
def pagePool : Nat := 8192

/-- Node slots, edge slots and parameter pages a graph takes (R67, R70). -/
def Graph.runs (g : Graph) : Nat × Nat × Nat :=
  if g.fallow then (g.f * 4096, g.f * 65536, 2 * g.p) else (g.n, g.e, 2 * g.p)

/-- Runs in use in each pool: (base, length), zeroing ones included (R68). -/
def State.usedRuns (s : State) (k : Nat) : List (Nat × Nat) :=
  let pick (a b c : Nat) : Nat := if k = 0 then a else if k = 1 then b else c
  (s.gs.graphs.map fun kv => (pick kv.2.nodeBase kv.2.edgeBase kv.2.pageBase,
    pick kv.2.runs.1 kv.2.runs.2.1 kv.2.runs.2.2))
  ++ s.gs.zeroing.map fun z => (pick z.nodeBase z.edgeBase z.pageBase, pick z.nodes z.edges z.pages)

/-- A run of `len` at `base` is free in a pool of `size`. -/
def runFree (used : List (Nat × Nat)) (size base len : Nat) : Bool :=
  decide (base + len ≤ size) && used.all fun u => u.2 == 0 || len == 0 || decide (u.1 + u.2 ≤ base) || decide (base + len ≤ u.1)

/-- Places where a free run may begin: the start of the pool and the ends of the runs in use. -/
def runStarts (used : List (Nat × Nat)) : List Nat := 0 :: used.map fun u => u.1 + u.2

/-- A free run of `len` exists. -/
def hasRun (used : List (Nat × Nat)) (size len : Nat) : Bool := (runStarts used).any fun b => runFree used size b len

/-- Largest free run (R71): from a start to the next run in use. -/
def largestRun (used : List (Nat × Nat)) (size : Nat) : Nat :=
  ((runStarts used).map fun b =>
    if runFree used size b 1 then ((used.filter fun u => decide (b < u.1 + u.2) && u.2 != 0).map (·.1)).foldl min size - b
    else 0).foldl max 0

/-- Free slots of a pool (R71). -/
def State.poolFree (s : State) (k size : Nat) : Nat := size - ((s.usedRuns k).map (·.2)).sum

/-- What function `n` holds: handles, node slots, edge slots, pages (R70). -/
def State.gsHeld (s : State) (n : Nat) : Nat × Nat × Nat × Nat :=
  let a := (s.gs.graphs.filter fun kv => kv.2.owner == n).map fun kv => kv.2.runs
  let b := (s.gs.zeroing.filter fun z => z.owner == n).map fun z => (z.nodes, z.edges, z.pages)
  let l := a ++ b
  (l.length, (l.map (·.1)).sum, (l.map (·.2.1)).sum, (l.map (·.2.2)).sum)

/-- An allocation of these runs stays within function `n`'s quota (R70). -/
def State.withinQuota (s : State) (n nodes edges pages : Nat) : Bool :=
  let q := s.gs.quota.look 0 n
  let h := s.gsHeld n
  decide (h.1 + 1 ≤ fld q 0 17) && decide (h.2.1 + nodes ≤ fld q 17 9 * 4096)
    && decide (h.2.2.1 + edges ≤ fld q 26 9 * 32768) && decide (h.2.2.2 + pages ≤ fld q 35 9 * 32)

/-- A handle is free for GRAPH_ALLOC (R68). -/
def State.handleFree (s : State) (h : Nat) : Bool :=
  (s.graph? h).isNone && s.gs.zeroing.all fun z => z.handle != h

/-- A graph just allocated by packet `p` of queue `q` (R67, R72, R93, R117). -/
def newGraph (q : Nat) (p : BitVec 512) (nodeBase edgeBase pageBase : Nat) : Graph where
  owner := fnOfQueue q
  st := .opened
  fallow := pf p 2 27 1 == 1
  n := pf p 2 0 27
  e := pf p 3 0 24
  p := pf p 2 28 13
  l := pf p 2 41 13
  f := pf p 3 24 9
  image := pw p 4
  wksp := pw p 5
  nodeOff := 0
  dir := []
  nodeBase := nodeBase
  edgeBase := edgeBase
  pageBase := pageBase
  nodes := []
  edges := []
  bankA := []
  bankB := []
  curB := false
  torn := none
  writer := none
  swap := none
  turn := []
  warm := []
  lastLaunch := 0
  eccBlock := false
  frames := []
  pages := []
  nroots := 0

/-- GRAPH_ALLOC (R67): the quota first, then the space; the HGS picks the handle and the runs, which are the operands
here, among those that are free. -/
def execGraphAlloc (q : Fin 16384) (handle : BitVec 16) (nodeBase edgeBase pageBase : Nat) (s : State) :
    Host.Outcome State Fault Refusal :=
  s.command q (fun p => opcode p == 0x08) fun p t =>
    let g := newGraph q p nodeBase edgeBase pageBase
    let (n, e, k) := g.runs
    let un := t.usedRuns 0
    let ue := t.usedRuns 1
    let uk := t.usedRuns 2
    if !t.withinQuota (fnOfQueue q) n e k then t.retire q stQuota 0
    else if !hasRun un nodePool n || !hasRun ue edgePool e || !hasRun uk pagePool k
        || decide (65536 ≤ t.gs.graphs.length + t.gs.zeroing.length) then t.retire q stNoSpace 0
    else if t.handleFree handle.toNat && runFree un nodePool nodeBase n && runFree ue edgePool edgeBase e
        && runFree uk pagePool pageBase k then
      (t.setGraph handle.toNat g).retire q 0 (handle.zeroExtend 64)
    else t

/-! ### Handles and states (R66, R72, R73) -/

/-- The graph that a command of queue `q` names, when its function owns it (R66). -/
def State.owned? (s : State) (q h : Nat) : Option Graph := (s.graph? h).filter fun g => g.owner == fnOfQueue q

/-- Sowings of graph `h` that are live (R104). -/
def State.liveOf (s : State) (h : Nat) : List Sowing :=
  (s.sow.live.map (·.2)).filter fun w => w.graph == h && w.st != .retired

/-- Queues whose GRAPH_UNSEAL or GRAPH_FREE of graph `h` waits (R73). -/
def State.drainers (s : State) (h : Nat) : List Nat :=
  (s.hcf.queues.filter fun kv => kv.2.head == .drain &&
    (match kv.2.win.head? with | some c => handleOf c.pkt == h | none => false)).map (·.1)

/-- A launch of the graph waits (R106). -/
def Head.waitsLaunch : Head → Bool
  | .launch _ => true
  | _ => false

/-- The graph that the launch command `p` launches: LAUNCH_GRAPH's handle, or the graph of STU_STEP's model. -/
def State.launchGraph? (s : State) (p : BitVec 512) : Option Nat :=
  if opcode p = 0x10 then some (handleOf p)
  else if opcode p = 0x33 then (s.stu.models.look? (pf p 0 32 10)).map (·.handle)
  else none

/-- Queues whose launch of graph `h` is WAITING (R104). -/
def State.launchers (s : State) (h : Nat) : List Nat :=
  (s.hcf.queues.filter fun kv => kv.2.head.waitsLaunch &&
    (match kv.2.win.head? with | some c => s.launchGraph? c.pkt == some h | none => false)).map (·.1)

/-- Bytes of a graph's storage that zeroing covers (R68). -/
def Zeroing.bytes (z : Zeroing) : Nat := z.nodes * 64 + z.edges * 4 + z.pages * 4096

/-- A freed graph takes its place in the order of zeroing: graphs freed in one sc in ascending handle order (R68). -/
def queueZeroing (z : Zeroing) : List Zeroing → List Zeroing
  | [] => [z]
  | y :: r => if y.freed < z.freed ∨ y.handle < z.handle then y :: queueZeroing z r else z :: y :: r

/-- The graph of handle `h` is freed and its storage queued for zeroing (R68). -/
def State.freeGraph (s : State) (h : Nat) : State :=
  match s.graph? h with
  | none => s
  | some g =>
    let (n, e, k) := g.runs
    let z : Zeroing := ⟨h, s.now, g.owner, n, e, k, g.nodeBase, g.edgeBase, g.pageBase, s.now⟩
    { s with gs := { s.gs with graphs := s.gs.graphs.del h, zeroing := queueZeroing z s.gs.zeroing } }

/-- The graph's order of R121 without queue `q`. -/
def Graph.leave (g : Graph) (q : Nat) : Graph := { g with turn := g.turn.filter fun x => x.1 != q }

/-- Queue `q` leaves the order of graph `h` (R121). -/
def State.leaveTurn (s : State) (q h : Nat) : State := s.modGraph h fun g => g.leave q

/-- The requesters of the transfers that `f` marks are gone: those not yet issued never are (R41, R414). -/
def State.abandon (s : State) (f : Purpose → Bool) : State :=
  { s with mesh := { out := s.mesh.out.map fun x => if f x.purpose then { x with purpose := .abandoned } else x
                     waiting := s.mesh.waiting.filter fun x => !f x.purpose } }

/-- Commands other than a drain that wait or are under way on graph `h`. -/
def State.graphUsers (s : State) (h : Nat) : List Nat :=
  (s.hcf.queues.filter fun kv => match kv.2.win.head?, kv.2.head with
    | some c, .launch _ => s.launchGraph? c.pkt == some h
    | some c, .load | some c, .patchWait _ | some c, .patch .. | some c, .swap => handleOf c.pkt == h
    | _, _ => false).map (·.1)

/-- The graph of handle `h` is freed by GRAPH_FREE: a command of another queue that waits or is under way on it ends with
BAD_HANDLE, and what it was still to write is not written. DESIGN CHOICE (log 112): the spec is silent. -/
def State.freeNow (s : State) (h : Nat) : State :=
  (s.graphUsers h).foldl (fun t l =>
    (t.abandon fun u => u == .loadSrc l || u == .patchSrc l).retire l stBadHandle 0) (s.freeGraph h)

/-- The WAITING launches of graph `h` fail with `status`. -/
def State.failLaunches (s : State) (h status : Nat) : State :=
  (s.launchers h).foldl (fun t l => (t.leaveTurn l h).retire l status 0) s

/-- GRAPH_UNSEAL's or GRAPH_FREE's effect on a graph without live sowings (R72, R91, R111). A launch that waits for such a
graph fails the check of R105 that no longer holds, in that sc. DESIGN CHOICE (log 112). -/
def State.drainNow (s : State) (q h : Nat) (free : Bool) : State :=
  match s.owned? q h with
  | none => s.retire q stBadHandle 0
  | some g =>
    if g.st = .sealing then s.retire q stGraphBusy 0
    else if free then (s.freeNow h).retire q 0 0
    else ((s.setGraph h { g with st := .opened, warm := [] }).failLaunches h stGraphUnsealed).retire q 0 0

/-- GRAPH_UNSEAL and GRAPH_FREE (R72, R73, R107). -/
def State.drainCommand (s : State) (q : Nat) (p : BitVec 512) (free : Bool) : State :=
  let h := handleOf p
  match s.owned? q h with
  | none => s.retire q stBadHandle 0
  | some g =>
    if g.st = .sealed ∧ (s.liveOf h).isEmpty = false then
      (if nowait p then s.retire q stGraphBusy 0
       else (s.stall q 4 .drain).failLaunches h stGraphBusy)
    else s.drainNow q h free

/-- A graph that an uncorrectable error struck becomes OPEN once no sowing of it is live (R411). -/
def State.openDamaged (s : State) (h : Nat) : State :=
  match s.graph? h with
  | none => s
  | some g =>
    if g.eccBlock then (s.setGraph h { g with st := .opened, warm := [], eccBlock := false }).failLaunches h stGraphUnsealed
    else s

/-- The last sowing of graph `h` has retired: the commands that waited for it go on (R73). -/
def State.drained (s : State) (h : Nat) : State :=
  if (s.liveOf h).isEmpty then
    ((s.drainers h).foldl (fun t q =>
      match t.headPacket? q with
      | some p => t.drainNow q h (opcode p == 0x0C)
      | none => t) s).openDamaged h
  else s

/-- GRAPH_UNSEAL. -/
def execGraphUnseal (q : Fin 16384) (s : State) : Host.Outcome State Fault Refusal :=
  s.command q (fun p => opcode p == 0x0B) fun p t => t.drainCommand q p false
/-- GRAPH_FREE. -/
def execGraphFree (q : Fin 16384) (s : State) : Host.Outcome State Fault Refusal :=
  s.command q (fun p => opcode p == 0x0C) fun p t => t.drainCommand q p true

/-- ZEROING_END (R68): 256 B per sc; the next freed graph is zeroed. -/
def execZeroingEnd (s : State) : Host.Outcome State Fault Refusal :=
  match s.gs.zeroing with
  | [] => .next s
  | z :: r => s.when (s.since z.start (cdiv z.bytes 256))
      { s with gs := { s.gs with zeroing := match r with
        | [] => []
        | y :: t => { y with start := s.now } :: t } }

/-! ### GRAPH_LOAD (R74) -/

/-- Records in a target's run. -/
def Graph.runLen (g : Graph) (target : Nat) : Nat :=
  if target = 0 then g.n else if target = 1 then g.e else g.p * 128

/-- Writes record `i` of a target from the data's record `k`. -/
def Graph.loadRecord (g : Graph) (target i k : Nat) (ws : Words) : Graph :=
  match target with
  | 0 => { g with nodes := g.nodes.put 0 i (BitVec.ofNat 512 (record 8 ws k)) }
  | 1 => { g with edges := g.edges.put 0 i (BitVec.ofNat 32 (fld (ws.at (k / 2)) (32 * (k % 2)) 32)) }
  | 2 => { g with bankA := g.bankA.put 0 i (BitVec.ofNat 256 (record 4 ws k)) }
  | _ => { g with bankB := g.bankB.put 0 i (BitVec.ofNat 256 (record 4 ws k)) }

/-- Writes `n` records of a target from `first` on. -/
def Graph.loadRange (g : Graph) (target first n : Nat) (ws : Words) : Graph :=
  (List.range n).foldl (fun a k => a.loadRecord target (first + k) k ws) g

/-- Draws `n` free words. -/
def State.drawWords (s : State) : Nat → Words × State
  | 0 => ([], s)
  | n + 1 =>
    let (w, s1) := s.drawWord
    let (ws, s2) := s1.drawWords n
    (w :: ws, s2)

/-- A range whose source read failed: each record keeps its old contents or holds others, as free bits and words say
(R74, R123). -/
def State.mixRange (s : State) (h target first n : Nat) : State :=
  (List.range n).foldl (fun t k =>
    let (b, t1) := t.drawBit
    if b then t1
    else
      let (ws, t2) := t1.drawWords 8
      t2.modGraph h fun g => g.loadRecord target (first + k) 0 ws) s

/-- GRAPH_LOAD: the handle, the state, the range, then the source read (R74). -/
def execGraphLoad (q : Fin 16384) (s : State) : Host.Outcome State Fault Refusal :=
  s.command q (fun p => opcode p == 0x09) fun p t =>
    let target := pf p 0 32 2
    let n := pf p 3 32 24
    match t.owned? q (handleOf p) with
    | none => t.retire q stBadHandle 0
    | some g =>
      if g.st = .sealing then t.retire q stGraphBusy 0
      else if g.st = .sealed then t.retire q stGraphSealed 0
      else if g.runLen target < pf p 3 0 23 + n then t.retire q 0x10 0
      else
        let bytes := n * recordBytes target
        match t.translate (fnOfQueue q) (pw p 2) bytes .read (some (t.queue q).plot) false with
        | .fault => t.retire q stSegFault 0
        | .stale => t.retire q stSegStale 0
        | .ok a => (t.modQueue q fun r => { r with head := .load }).issue
            (Xfer.make (.loadSrc q) (fnOfQueue q) 2 false a bytes []
              (some ⟨pw p 2, .read, some (t.queue q).plot, false⟩) none)

/-- The source read of GRAPH_LOAD has ended with its data, or failed finally with a status (R74). A graph that another
queue has sealed meanwhile is not written (R92): the load ends with the status that its state gives (R72), whatever the
read gave. DESIGN CHOICE (log 112): the spec says nothing of a load in flight at a seal. -/
def State.loadEnded (s : State) (q : Nat) (data : Option Words) (status : Nat) : State :=
  match s.headPacket? q with
  | none => s
  | some p =>
    if (s.queue q).head ≠ .load then s
    else
      let h := handleOf p
      let target := pf p 0 32 2
      match s.owned? q h, data with
      | none, _ => s.retire q stBadHandle 0
      | some g, some ws => match g.st with
        | .sealing => s.retire q stGraphBusy 0
        | .sealed => s.retire q stGraphSealed 0
        | .opened => (s.setGraph h (g.loadRange target (pf p 3 0 23) (pf p 3 32 24) ws)).retire q 0 0
      | some g, none => match g.st with
        | .sealing => s.retire q stGraphBusy 0
        | .sealed => s.retire q stGraphSealed 0
        | .opened => (s.mixRange h target (pf p 3 0 23) (pf p 3 32 24)).retire q status 0

/-! ### The furrow check (R76 to R90, R94 to R97) -/

/-- NODE_RESERVED of a node record (R76, R77, R79). -/
def nodeReserved (n : BitVec 512) : Bool :=
  bit n 111 || fld n 180 12 != 0 || fld n 221 3 != 0 || fld n 252 4 != 0 || fld n 256 256 != 0
    || (decide (3 ≤ nKind n) && decide (nKind n ≤ 14)) || decide (5 ≤ nTgw n) || nMxc n == 3
    || (!nFlowv n && nFlow n != 0) || (!nAffv n && nAffEng n != 0) || (!nPslotv n && nPslot n != 0)
    || (!nDlyv n && nDelay n != 0)

/-- KIND_MISMATCH (R78, R79). -/
def kindMismatch (n : BitVec 512) : Bool :=
  (nKind n == 15 && (nPslotv n || nAffv n || nFlowv n)) || (nKind n != 0 && (nTgw n != 0 || nMxc n != 0))

/-- LAYER of a node against the graph's L (R86). -/
def layerBad (l : Nat) (n : BitVec 512) : Bool := if l = 0 then nLayer n != 0 else decide (l ≤ nLayer n)

/-- Counts and failures of pass 1 as it runs: failures, in-edge counts, the bound of the next run. -/
structure Pass where
  flaws : List Flaw
  count : Tab Nat
  next  : Nat

/-- One edge of node `i` at offset `o`, the last of its run when `last` (R86, R95). -/
def Pass.edge (a : Pass) (g : Graph) (i o : Nat) (x : BitVec 32) (last : Bool) : Pass :=
  let y := eTarget x
  let bad (st : Nat) (c : Bool) : List Flaw := if c then [⟨i, st, some o⟩] else []
  let f := bad 6 (fld x 28 4 != 0) ++ bad 4 (bit x 26 != last)
  if (g.fallow = false ∧ fld x 20 6 ≠ 0) ∨ g.n ≤ y then { a with flaws := a.flaws ++ f ++ bad 5 true }
  else
    { a with
      flaws := a.flaws ++ f ++ bad 9 (decide (nLayer (g.nodes.look 0 y) < nLayer (g.nodes.look 0 i)))
        ++ bad 0x0A (g.fallow && decide (pageOf y < pageOf i))
      count := a.count.adj 0 y (· + 1) }

/-- Edges in node `i`'s run limit: E, or its page's ECNT (R86, R94). -/
def Graph.edgeLimit (g : Graph) (i : Nat) : Nat :=
  if g.fallow then ((g.dir.look? (pageOf i)).getD (0, 0)).2 else g.e

/-- One node of pass 1 (R86, R87). -/
def Pass.node (a0 : Pass) (g : Graph) (i : Nat) : Pass :=
  let n := g.nodes.look 0 i
  let a := if g.fallow ∧ i % 4096 = 0 then { a0 with next := 0 } else a0
  let bad (st : Nat) (c : Bool) : List Flaw := if c then [⟨i, st, none⟩] else []
  let f := bad 6 (nodeReserved n) ++ bad 7 (kindMismatch n) ++ bad 8 (nPslotv n && decide (g.p * 128 ≤ nPslot n))
    ++ bad 9 (layerBad g.l n)
  let a1 := { a with flaws := a.flaws ++ f }
  let k := nFanout n
  let o := nEdgeOff n
  if k = 0 then { a1 with flaws := a1.flaws ++ bad 4 (o != 0) }
  else if o < a1.next ∨ g.edgeLimit i < o + k then { a1 with flaws := a1.flaws ++ bad 4 true }
  else (List.range k).foldl (fun b j => b.edge g i (o + j) (g.edges.look 0 (g.edgeKey i + j)) (j + 1 == k))
    { a1 with next := o + k }

/-- Pass 1: records, runs and counts (R86). -/
def Graph.pass1 (g : Graph) : Pass :=
  let a := (List.range g.n).foldl (fun b i => b.node g i) ⟨[], [], 0⟩
  (List.range g.n).foldl (fun b i =>
    let c := b.count.look 0 i
    { b with flaws := b.flaws ++ (if 65535 < c then [⟨i, 2, none⟩] else [])
      ++ (if c ≠ nFanin (g.nodes.look 0 i) then [⟨i, 3, none⟩] else []) }) a

/-- Pass 2 (R86): peels from the work list; answers the nodes peeled. -/
def Graph.peel (g : Graph) : Nat → List Nat → Tab Nat → List Nat → List Nat
  | 0, _, _, done => done
  | _ + 1, [], _, done => done
  | fuel + 1, i :: work, count, done =>
    let r := (List.range (nFanout (g.nodes.look 0 i))).foldl (fun (acc : List Nat × Tab Nat) j =>
      let y := eTarget (g.edges.look 0 (g.edgeKey i + j))
      let c := acc.2.look 0 y - 1
      (if c = 0 then acc.1 ++ [y] else acc.1, acc.2.put 0 y c)) (work, count)
    g.peel fuel r.1 r.2 (i :: done)

/-- Nodes with FANIN 0, in index order. -/
def Graph.rootList (g : Graph) : List Nat := (List.range g.n).filter fun i => nFanin (g.nodes.look 0 i) == 0

/-- The failure reported: the lowest node, and its lowest status (R87). Of several with both, the one pass 1 finds first is
reported with its EDGE; a failure of a run or of a node has no edge and EDGEV 0. DESIGN CHOICE (log 113): R87 and R90 name
no edge among several. -/
def worst (l : List Flaw) : Option Flaw :=
  l.foldl (fun acc x => match acc with
    | none => some x
    | some y => if x.node < y.node ∨ (x.node = y.node ∧ x.status < y.status) then some x else some y) none

/-- The outcome of the check: status 0 SEALED (R86, R87). -/
def Graph.furrow (g : Graph) : Flaw :=
  let a := g.pass1
  match worst a.flaws with
  | some x => x
  | none =>
    let done := g.peel g.n g.rootList a.count []
    match (List.range g.n).find? fun i => !done.contains i with
    | some i => ⟨i, 1, none⟩
    | none => ⟨0, 0, none⟩

/-- 32-bit unit `i` of some words. -/
def unit32 (ws : Words) (i : Nat) : Nat := fld (ws.at (i / 2)) (32 * (i % 2)) 32

/-- 16-bit unit `i` of some words. -/
def unit16 (ws : Words) (i : Nat) : Nat := fld (ws.at (i / 4)) (16 * (i % 4)) 16

/-- Words that hold 16-bit units. -/
def words16 : List Nat → Words
  | a :: b :: c :: d :: r => pack [(0, 16, a), (16, 16, b), (32, 16, c), (48, 16, d)] :: words16 r
  | [a, b, c] => [pack [(0, 16, a), (16, 16, b), (32, 16, c)]]
  | [a, b] => [pack [(0, 16, a), (16, 16, b)]]
  | [a] => [pack [(0, 16, a)]]
  | [] => []

/-- Words that hold 32-bit units. -/
def words32 : List Nat → Words
  | a :: b :: r => pack [(0, 32, a), (32, 32, b)] :: words32 r
  | [a] => [pack [(0, 32, a)]]
  | [] => []

/-- Pages of a graph (R94). -/
def Graph.pageCount (g : Graph) : Nat := cdiv g.n 4096

/-- The header of a fallow image is valid (R94). -/
def imageHeaderOk (g : Graph) (ws : Words) : Bool :=
  unit32 ws 0 == 0x46475348 && unit16 ws 2 == 1 && unit16 ws 3 == 0
    && unit32 ws 2 == g.n && unit16 ws 6 == g.pageCount && unit16 ws 7 == 0
    && (ws.at 2).toNat % 4096 == 0 && (ws.at 3).toNat % 64 == 0
    && ([4, 5, 6, 7].all fun i => ws.at i == 0)

/-- The page directory of a fallow image is valid (R94). -/
def imageDirOk (g : Graph) (ws : Words) : Bool :=
  (List.range g.pageCount).all fun p =>
    (ws.at (2 * p)).toNat % 4 == 0 && decide (unit32 ws (4 * p + 2) ≤ 65536) && unit32 ws (4 * p + 3) == 0

/-- EBLK and ECNT per page, from the words of a page directory. -/
def imageDir (g : Graph) (ws : Words) : Tab (Nat × Nat) :=
  (List.range g.pageCount).map fun p => (p, ((ws.at (2 * p)).toNat, unit32 ws (4 * p + 2)))

/-- Nodes on page `p`. -/
def Graph.pageNodes (g : Graph) (p : Nat) : Nat := min 4096 (g.n - 4096 * p)

/-- Edges of page `p`. -/
def Graph.pageEdges (g : Graph) (p : Nat) : Nat := ((g.dir.look? p).getD (0, 0)).2

/-- Bytes of page `p`'s nodes, and of its edge block (R94). -/
def Graph.nodeBytes (g : Graph) (p : Nat) : Nat := 64 * g.pageNodes p
/-- Bytes of page `p`'s edge block. -/
def Graph.blockBytes (g : Graph) (p : Nat) : Nat := 4 * g.pageEdges p

/-- Address of page `p`'s nodes in the image (R94). -/
def Graph.nodeAddr (g : Graph) (p : Nat) : W64 := g.image + BitVec.ofNat 64 (g.nodeOff + 64 * 4096 * p)
/-- Address of page `p`'s edge block. -/
def Graph.blockAddr (g : Graph) (p : Nat) : W64 := g.image + BitVec.ofNat 64 ((g.dir.look? p).getD (0, 0)).1

/-- Brings the contents of page `p`, its nodes and then its edge block, into the graph's records. -/
def Graph.fillPage (g : Graph) (p : Nat) (ws : Words) : Graph :=
  let k := g.pageNodes p
  let eds : Words := ws.drop (8 * k)
  let nodes := (List.range k).foldl (fun t i => t.put 0 (4096 * p + i) (BitVec.ofNat 512 (record 8 ws i))) g.nodes
  let edges := (List.range (g.pageEdges p)).foldl (fun t j => t.put 0 (65536 * p + j) (BitVec.ofNat 32 (unit32 eds j))) g.edges
  { g with nodes := nodes, edges := edges }

/-- Drops the records of page `p`. -/
def Graph.dropPage (g : Graph) (p : Nat) : Graph :=
  { g with nodes := g.nodes.filter fun kv => kv.1 / 4096 != p, edges := g.edges.filter fun kv => kv.1 / 65536 != p }

/-! ### The workspace of a fallow graph (R96)

R96 lists what the workspace holds and gives no layout. The model puts the fan-in array first, then the root list, then
8 bytes per page with the page's CRC-32 in the low half, then the two counter areas. DESIGN CHOICE (log 114). -/

/-- Address of the fan-in array: 2 bytes per node. -/
def Graph.faninAddr (g : Graph) : W64 := g.wksp
/-- Address of the root list: 4 bytes per root. -/
def Graph.rootAddr (g : Graph) : W64 := g.wksp + BitVec.ofNat 64 (2 * g.n)
/-- Address of page `p`'s CRC. -/
def Graph.crcAddr (g : Graph) (p : Nat) : W64 := g.wksp + BitVec.ofNat 64 (6 * g.n + 8 * p)
/-- Address of node `i`'s counter in counter area `a`. -/
def Graph.ctrAddr (g : Graph) (a i : Nat) : W64 := g.wksp + BitVec.ofNat 64 (6 * g.n + 8 * g.pageCount + 2 * g.n * a + 2 * i)

/-! ### The check of a fallow image (R97) -/

/-- The graph with the records that a fallow check has read. -/
def Check.graph (c : Check) (g : Graph) : Graph :=
  { g with nodeOff := c.nodeOff, dir := c.dir, nodes := c.nodes, edges := c.edges }

/-- The read of part `k` of the image: address and bytes; none past the last part, and for the edge block of a page without
edges. -/
def Check.read (c : Check) (g : Graph) (k : Nat) : Option (W64 × Nat) :=
  let f := c.graph g
  let p := (k - 2) / 2
  if k = 0 then some (g.image, 64)
  else if k = 1 then some (g.image + BitVec.ofNat 64 c.pdirOff, 16 * g.pageCount)
  else if g.pageCount ≤ p then none
  else if k % 2 = 0 then some (f.nodeAddr p, f.nodeBytes p)
  else if f.pageEdges p = 0 then none
  else some (f.blockAddr p, f.blockBytes p)

/-- What part `k` of the workspace is written with, and where: the counts of pass 1, the fan-in array, the root list and the
page CRCs of pass 2 (R97). The counts lie in the first counter area, and their one write stands for the additions of pass 1.
DESIGN CHOICE (log 114). -/
def Check.write (c : Check) (g : Graph) (k : Nat) : Option (W64 × Nat × Words) :=
  let f := c.graph g
  let fanins := (List.range g.n).map fun i => nFanin (c.nodes.look 0 i)
  if k = 0 then
    let count := f.pass1.count
    some (g.ctrAddr 0 0, 2 * g.n, words16 ((List.range g.n).map fun i => min 65535 (count.look 0 i)))
  else if k = 1 then some (g.faninAddr, 2 * g.n, words16 fanins)
  else if k = 2 then some (g.rootAddr, 4 * f.rootList.length, words32 f.rootList)
  else if k = 3 then some (g.crcAddr 0, 8 * g.pageCount, c.crcs.map fun x => BitVec.ofNat 64 x)
  else none

/-- Writes the fallow check under way. -/
def State.setCheck (s : State) (c : Check) : State := { s with gs := { s.gs with runFal := some c } }

/-- The check's outcome is settled: FURROW_CHECK_END may follow. -/
def State.checkOver (s : State) (c : Check) (x : Flaw) : State := s.setCheck { c with phase := .over x }

/-- A transfer of the fallow check, on behalf of the graph's function; one whose address does not translate settles the
check with FALLOW_FAULT. -/
def State.checkXfer (s : State) (c : Check) (w : Bool) (a : W64) (bytes : Nat) (data : Words) : State :=
  let need : Need := if w then .write else .read
  let plot := some (s.queue c.q).plot
  match s.translate c.fn a bytes need plot false with
  | .ok p => (s.setCheck c).issue (Xfer.make (.check c.handle) c.fn 2 w p bytes data (some ⟨a, need, plot, false⟩) none)
  | _ => s.checkOver c ⟨0, 0x0C, none⟩

/-- The check writes part `k` of the workspace, or is over when nothing is left to write: after the counts when a flaw was
found, after the CRCs when the image is good (R97). -/
def State.checkWrite (s : State) (c : Check) (g : Graph) (k : Nat) : State :=
  let x := (c.graph g).furrow
  if k ≠ 0 ∧ x.status ≠ 0 then s.checkOver c x
  else match c.write g k with
    | none => s.checkOver c x
    | some (a, bytes, data) => s.checkXfer { c with phase := .writes k } true a bytes data

/-- The check reads part `k` of the image; a page without edges has no edge block to read, and after the last page the
workspace is written. -/
def State.checkRead (s : State) (c : Check) (g : Graph) (k : Nat) : State :=
  match c.read g k with
  | some (a, bytes) => s.checkXfer { c with phase := .reads k } false a bytes []
  | none =>
    if k % 2 = 1 ∧ (k - 2) / 2 < g.pageCount then
      let c1 := { c with crcs := c.crcs ++ [crc32 c.block], block := [] }
      (match c1.read g (k + 1) with
       | some (a, bytes) => s.checkXfer { c1 with phase := .reads (k + 1) } false a bytes []
       | none => s.checkWrite c1 g 0)
    else s.checkWrite c g 0

/-- Part `k` of the image has arrived (R94, R97). IMAGE_HEADER names no node: NODE is 0 with it, as with SEALED, FALLOW_FAULT
and ECC_FAIL. DESIGN CHOICE (log 113). -/
def State.checkArrived (s : State) (c : Check) (g : Graph) (k : Nat) (ws : Words) : State :=
  let p := (k - 2) / 2
  if k = 0 then
    (if imageHeaderOk g ws then s.checkRead { c with nodeOff := (ws.at 2).toNat, pdirOff := (ws.at 3).toNat } g 1
     else s.checkOver c ⟨0, 0x0B, none⟩)
  else if k = 1 then
    (if imageDirOk g ws then s.checkRead { c with dir := imageDir g ws } g 2 else s.checkOver c ⟨0, 0x0B, none⟩)
  else if k % 2 = 0 then
    let nodes := (List.range (g.pageNodes p)).foldl
      (fun t i => t.put 0 (4096 * p + i) (BitVec.ofNat 512 (record 8 ws i))) c.nodes
    s.checkRead { c with nodes := nodes, block := ws } g (k + 1)
  else
    let edges := (List.range ((c.graph g).pageEdges p)).foldl
      (fun t j => t.put 0 (65536 * p + j) (BitVec.ofNat 32 (unit32 ws j))) c.edges
    s.checkRead { c with edges := edges, block := [], crcs := c.crcs ++ [crc32 (c.block ++ ws)] } g (k + 1)

/-- The mesh has answered the fallow check of graph `h`: with data for a read, none for a write; `ok` false when it failed
finally (R86: FALLOW_FAULT). -/
def State.checkAnswered (s : State) (h : Nat) (ws : Words) (ok : Bool) : State :=
  match s.gs.runFal, s.graph? h with
  | some c, some g =>
    if c.handle ≠ h then s
    else match c.phase, ok with
      | .over _, _ => s
      | _, false => s.checkOver c ⟨0, 0x0C, none⟩
      | .reads k, true => s.checkArrived c g k ws
      | .writes k, true => s.checkWrite c g (k + 1)
  | _, _ => s

/-- A check not begun. -/
def Check.make (q h fn : Nat) : Check where
  q := q
  handle := h
  fn := fn
  start := 0
  ecc := false
  phase := .reads 0
  nodeOff := 0
  pdirOff := 0
  dir := []
  nodes := []
  edges := []
  block := []
  crcs := []

/-- GRAPH_SEAL (R72, R89). -/
def execGraphSeal (q : Fin 16384) (s : State) : Host.Outcome State Fault Refusal :=
  s.command q (fun p => opcode p == 0x0A) fun p t =>
    let h := handleOf p
    match t.owned? q h with
    | none => t.retire q stBadHandle 0
    | some g => match g.st with
      | .sealing => t.retire q stGraphBusy 0
      | .sealed => t.retire q 0 0
      | .opened =>
        let c := Check.make q h (fnOfQueue q)
        let t1 := (t.setGraph h { g with st := .sealing }).stall q 5 .seal
        if g.fallow then { t1 with gs := { t1.gs with waitFal := t1.gs.waitFal ++ [c] } }
        else { t1 with gs := { t1.gs with waitRes := t1.gs.waitRes ++ [c] } }

/-- The next check to take up: round-robin across functions after `last`, oldest first within one (R89). R89 does not say with
which function the round begins after reset: it is function 0, as `last` is 255 then. DESIGN CHOICE (log 113). -/
def nextCheck (l : List Check) (last : Nat) : Option Check :=
  match ((List.range 256).map fun j => (last + 1 + j) % 256).find? fun n => l.any fun c => c.fn == n with
  | some n => l.find? fun c => c.fn == n
  | none => none

/-- FURROW_CHECK_START of the resident or the fallow engine (R89, R97): the fallow engine begins to read the image. -/
def execFurrowCheckStart (fallow : Bool) (s : State) : Host.Outcome State Fault Refusal :=
  if fallow then
    match nextCheck s.gs.waitFal s.gs.lastFal with
    | none => .next s
    | some c =>
      let s1 : State := { s with gs := { s.gs with waitFal := s.gs.waitFal.erase c, lastFal := c.fn } }
      s.when s.gs.runFal.isNone (match s.graph? c.handle with
        | none => s1
        | some g => s1.checkRead { c with start := s.now } g 0)
  else
    match nextCheck s.gs.waitRes s.gs.lastRes with
    | none => .next s
    | some c => s.when s.gs.runRes.isNone { s with gs := { s.gs with
        waitRes := s.gs.waitRes.erase c, runRes := some { c with start := s.now }, lastRes := c.fn } }

/-- The check of graph `g` ends with flaw `x` (R88, R90): the state, the report registers, the command. -/
def State.sealEnded (s : State) (c : Check) (g : Graph) (x : Flaw) : State :=
  let s1 := s.setGraph c.handle { g with st := if x.status = 0 then .sealed else .opened }
  let s2 : State := { s1 with gs := { s1.gs with
    sealres := s1.gs.sealres.put 0 c.fn (pack [(0, 16, c.handle), (16, 8, x.status), (24, 1, 1)])
    sealloc := s1.gs.sealloc.put 0 c.fn
      (pack [(0, 26, x.node), (26, 23, x.edge.getD 0), (49, 1, b2n x.edge.isSome)]) } }
  if (s2.queue c.q).head = .seal then
    s2.retire c.q (if x.status = 0 then 0 else stSealFail) (pack [(0, 8, x.status), (8, 26, x.node)])
  else s2

/-- Time of a resident check (R89). -/
def Graph.checkTime (g : Graph) : Nat := 256 + 2 * cdiv g.n 4 + 2 * cdiv g.e 16

/-- FURROW_CHECK_END (R86 to R90, R97) of a graph's check: a resident check takes its time; a fallow one is over when its last transfer has
been answered. A graph that an uncorrectable error struck meanwhile fails with ECC_FAIL. -/
def execFurrowCheckEnd (fallow : Bool) (graph : BitVec 16) (s : State) : Host.Outcome State Fault Refusal :=
  match (if fallow then s.gs.runFal else s.gs.runRes).filter fun c => c.handle == graph.toNat with
  | none => .next s
  | some c =>
    let s1 : State := if fallow then { s with gs := { s.gs with runFal := none } } else { s with gs := { s.gs with runRes := none } }
    let s2 := s1.abandon fun u => u == .check c.handle
    match s.graph? c.handle with
    | none => s.when true s2
    | some g => match fallow, c.phase with
      | true, .over x =>
        let f := c.graph g
        s.when true (if c.ecc then s2.sealEnded c g ⟨0, 0x0D, none⟩
          else s2.sealEnded c { g with nodeOff := c.nodeOff, dir := c.dir, nroots := f.rootList.length } x)
      | true, _ => s.when c.ecc (s2.sealEnded c g ⟨0, 0x0D, none⟩)
      | false, _ => s.when (s.since c.start g.checkTime)
        (if c.ecc then s1.sealEnded c g ⟨0, 0x0D, none⟩ else s1.sealEnded c g g.furrow)

end Sys2Proof.Machine
end

