-- ==== Sys2Proof/Machine/Launch.lean ====
section
/-! DEFINITION. Launches (R104 to R112, R143), and the order of a graph's patches, swaps and captures (R118 to R124). -/
namespace Sys2Proof.Machine

/-! ### Counter shadows (R110, R111) -/

/-- Blocks a shadow of graph `g` takes. -/
def Graph.blocks (g : Graph) : Nat := if g.fallow then g.f else cdiv g.n 4096

/-- Counters of a shadow, S of R109. -/
def Graph.shadowSize (g : Graph) : Nat := if g.fallow then g.f * 4096 else g.n

/-- Blocks of warm shadows of function `n`'s graphs; of every function for none. -/
def State.warmBlocks (s : State) (n : Option Nat) : Nat :=
  ((s.gs.graphs.filter fun kv => match n with | some f => kv.2.owner == f | none => true).map fun kv =>
    (kv.2.warm.map (·.blocks)).sum).sum

/-- Blocks of live shadows of function `n`; of every function for none. -/
def State.liveBlocks (s : State) (n : Option Nat) : Nat :=
  ((s.sow.live.filter fun kv => kv.2.st != .retired &&
    (match n with | some f => kv.2.fn == f | none => true)).map fun kv => kv.2.blocks).sum

/-- USED of DE_SHQUOTA (R110). -/
def State.shadowUsed (s : State) (n : Nat) : Nat := s.warmBlocks (some n) + s.liveBlocks (some n)
/-- FREE of DE_SHFREE (R110). -/
def State.shadowFree (s : State) : Nat := 512 - (s.warmBlocks none + s.liveBlocks none)
/-- BLOCKS of DE_SHQUOTA. -/
def State.shadowQuota (s : State) (n : Nat) : Nat := s.sow.quota.look 0 n

/-- The least recently launched graph with a warm shadow, among those of function `n`, or of any function (R111). -/
def State.oldestWarm (s : State) (n : Option Nat) : Option Nat :=
  ((s.gs.graphs.filter fun kv => !kv.2.warm.isEmpty &&
      (match n with | some f => kv.2.owner == f | none => true)).foldl (fun acc kv => match acc with
    | none => some (kv.1, kv.2.lastLaunch)
    | some y => if kv.2.lastLaunch < y.2 then some (kv.1, kv.2.lastLaunch) else some y) none).map (·.1)

/-- Releases warm shadows until `b` blocks fit function `n`'s quota and the pool (R111). -/
def State.releaseWarm (s : State) (n b : Nat) : Nat → State
  | 0 => s
  | fuel + 1 =>
    let short := if s.shadowQuota n < s.shadowUsed n + b then s.oldestWarm (some n)
      else if s.shadowFree < b then s.oldestWarm none else none
    match short with
    | none => s
    | some h => (s.modGraph h fun g => { g with warm := g.warm.tail }).releaseWarm n b fuel

/-- A shadow for a launch of graph `g` by function `n`: a warm one, a fresh one, or none now (R106, R111). -/
inductive ShadowAns where
  | warm | fresh | none
  deriving DecidableEq, Repr

/-- What the launch can be given (R111). -/
def State.shadowFor (s : State) (n : Nat) (g : Graph) : ShadowAns :=
  if g.warm.any fun w => !w.refilling then .warm
  else if !g.warm.isEmpty then .none
  else if s.liveBlocks (some n) + g.blocks ≤ s.shadowQuota n ∧ s.liveBlocks none + g.blocks ≤ 512 then .fresh
  else .none

/-! ### Launches -/

/-- Limit of live sowings of a graph (R93, R106). -/
def Graph.limit (g : Graph) : Nat := if g.fallow then 2 else 8

/-- ID `a` is later than `b` (R10). -/
def idLater (a b : BitVec 32) : Bool := decide (1 ≤ (a - b).toNat) && decide ((a - b).toNat ≤ 2 ^ 31 - 1)

/-- Next sowing ID of function `n` (log 6 for the first). -/
def State.nextSowId (s : State) (n : Nat) : BitVec 32 := s.sow.nextId.look 0 n

/-- R11 holds the next launch of function `n` back. -/
def State.idHeld (s : State) (n : Nat) : Bool :=
  s.sow.live.any fun kv => kv.2.fn == n && kv.2.st != .retired && decide (2 ^ 31 ≤ (s.nextSowId n - kv.2.id).toNat)

/-- Why a launch that passed its checks cannot proceed now: the live limit, the shadow, R11, the graph's order. -/
inductive Hold where
  | limit | shadow | ids | order | none
  deriving DecidableEq, Repr

/-- The graph's order of R121 is free for the command of queue `q`: no patch writes, no swap holds it, no earlier command
waits. -/
def Graph.turnFree (g : Graph) (q : Nat) : Bool :=
  g.writer.isNone && g.swap.isNone && (match g.turn with | [] => true | x :: _ => x.1 == q)

/-- The graph's order is free for a cyclic entry's launch, which has no place in it and arrives ahead of every queue command of
the sc (R312). -/
def Graph.fireFree (g : Graph) (now : Nat) : Bool :=
  g.writer.isNone && g.swap.isNone && g.turn.all fun x => x.2 == now

/-- A command of queue `q` takes its place in the order, behind those that arrived earlier, and in one sc behind those of
lower queues (R121). -/
def takeTurn (q now : Nat) : List (Nat × Nat) → List (Nat × Nat)
  | [] => [(q, now)]
  | x :: r => if x.2 < now ∨ x.1 < q then x :: takeTurn q now r else (q, now) :: x :: r

/-- Queue `q` waits for its turn in the order of graph `h`; a place it has it keeps. -/
def State.awaitTurn (s : State) (q h : Nat) : State :=
  s.modGraph h fun g => if g.turn.any fun x => x.1 == q then g else { g with turn := takeTurn q s.now g.turn }

/-- What holds a launch of graph `g` (handle `h`) by queue `q` (R106, R121): by its command, or by a cyclic entry. -/
def State.launchHold (s : State) (q h : Nat) (g : Graph) (cmd : Bool) : Hold :=
  let n := fnOfQueue q
  if g.limit ≤ (s.liveOf h).length then .limit
  else if s.shadowFor n g = .none then .shadow
  else if s.idHeld n then .ids
  else if !(if cmd then g.turnFree q else g.fireFree s.now) then .order
  else .none

/-- The checks of R105 on graph `h`, in order: 0 or the status of the first that fails. -/
def State.launchCheck (s : State) (q h : Nat) : Nat :=
  match s.owned? q h with
  | none => stBadHandle
  | some g =>
    if g.st ≠ .sealed then stGraphUnsealed
    else if !(s.drainers h).isEmpty || g.eccBlock then stGraphBusy
    else if s.shadowQuota (fnOfQueue q) < g.blocks then 0x0B
    else 0

/-- The checks of R105 that a WAITING launch must still meet when it goes on: handle, state, no drain that waits. A quota
lowered meanwhile lets it wait (R110). DESIGN CHOICE (log 112). -/
def State.launchRecheck (s : State) (q h : Nat) : Nat :=
  match s.owned? q h with
  | none => stBadHandle
  | some g =>
    if g.st ≠ .sealed then stGraphUnsealed
    else if !(s.drainers h).isEmpty || g.eccBlock then stGraphBusy
    else 0

/-- No end action. -/
def EndAct.nil : EndAct where
  erv := false
  eraddr := 0
  ldv := false
  ldaddr := 0
  sigv := false
  sig4 := false
  sigaddr := 0
  sigval := 0
  semv := false
  sem := 0
  semop := 0
  semval := 0

/-- What a launch brings besides the graph: end action, cyclic entry, step, plot, whether a command waits for roots. -/
structure LaunchArgs where
  act     : EndAct
  cyc     : Option CycInfo
  step    : Option StepInfo
  command : Bool

/-- A counter area of the workspace that no live sowing of graph `h` has (R93, R96). -/
def State.freeArea (s : State) (h : Nat) : Nat := if (s.liveOf h).any fun w => w.area == 0 then 1 else 0

/-- A launch of graph `h` by queue `q` proceeds (R108, R109, R111). Answers the sowing's key. A cyclic entry's launch leaves
the queue's own command its place in the graph's order (R312). -/
def State.proceed (s : State) (q h : Nat) (g : Graph) (a : LaunchArgs) : Nat × State :=
  let n := fnOfQueue q
  let id := s.nextSowId n
  let k := sowKey n id
  let p := (s.queue q).plot
  let warm := s.shadowFor n g = .warm
  let s0 := if warm then s else s.releaseWarm n g.blocks 512
  let fill := if warm then 0 else cdiv g.shadowSize 64
  let w : Sowing :=
    { fn := n, id := id, graph := h, bankB := g.curB, plot := p, queue := q, st := .active, ordinal := s.sow.ordinal,
      ctr := [], blocks := g.blocks, startAt := s.now, rootsFrom := s.now + 8 + fill,
      rootsAt := if a.step.isSome then none else some (s.now + 8 + fill), area := s.freeArea h,
      fanin := if g.fallow then .due else .done, roots := [],
      nextRoot := 0, firstRoot := none, rootsDone := false, launching := a.command, code := 0, done := 0, lost := 0,
      retired := 0, endedAt := 0, retOrd := 0, never := 0, digest := 0, layers := [], layerWait := [], act := a.act, phase := .waiting,
      kindAbsent := false, cyc := a.cyc, step := a.step }
  let s1 := s0.modGraph h fun r => { r with
    lastLaunch := s.sow.ordinal
    turn := if a.command then (r.leave q).turn else r.turn
    warm := if warm then r.warm.eraseP fun x => !x.refilling else r.warm }
  let s2 : State := { s1 with sow := { s1.sow with
    live := s1.sow.live.ins k w
    nextId := s1.sow.nextId.put 0 n (id + 1)
    lastId := s1.sow.lastId.put none n (some id)
    ordinal := s1.sow.ordinal + 1 } }
  let s3 := (s2.modQueue q fun r => { r with last := some id }).bumpPlot p 0 1
  (k, s3.capture ⟨0x0A, some n, some p, none, some id, none, b2n g.curB, pack [(0, 16, h), (16, 14, q)]⟩)

/-- The end action a LAUNCH_GRAPH packet asks for (R200). -/
def endActOf (p : BitVec 512) : EndAct where
  erv := pf p 0 35 1 == 1
  eraddr := pw p 2
  ldv := pf p 0 36 1 == 1
  ldaddr := pw p 3
  sigv := pf p 0 33 1 == 1
  sig4 := pf p 0 34 1 == 1
  sigaddr := pw p 4
  sigval := pw p 5
  semv := pf p 0 32 1 == 1
  sem := pf p 6 0 18
  semop := pf p 6 18 4
  semval := BitVec.ofNat 32 (pf p 6 32 32)

/-- A LAUNCH_GRAPH that passed its checks proceeds, or waits with WAIT LAUNCH; a launch held by the graph's order alone
takes its place in it (R106, R121). With the no-wait bit the live limit and the shadow fail it, whenever they stop it. -/
def State.tryLaunch (s : State) (q : Nat) (p : BitVec 512) (g : Graph) : State :=
  let h := handleOf p
  match s.launchHold q h g true, nowait p with
  | .none, _ =>
    let (k, t) := s.proceed q h g ⟨endActOf p, none, none, true⟩
    t.modQueue q fun r => { r with st := .running, wait := 0, head := .rooting k }
  | .limit, true => (s.leaveTurn q h).retire q 0x0C 0
  | .shadow, true => (s.leaveTurn q h).retire q 0x0D 0
  | .order, _ => (s.awaitTurn q h).stall q 2 (.launch false)
  | _, _ => (s.leaveTurn q h).stall q 2 (.launch false)

/-- LAUNCH_GRAPH (R105, R106, R212). -/
def execLaunchGraph (q : Fin 16384) (s : State) : Host.Outcome State Fault Refusal :=
  s.command q (fun p => opcode p == 0x10) fun p t =>
    if (endActOf p).semv && !t.declared q (endActOf p).sem then t.retire q stSemUndeclared 0
    else
      let c := t.launchCheck q (handleOf p)
      if c ≠ 0 then t.retire q c 0
      else match t.graph? (handleOf p) with
        | none => t
        | some g => t.tryLaunch q p g

/-- The oldest warm shadow that refills is full (R111). -/
def refillFirst : List Warm → List Warm
  | [] => []
  | w :: r => if w.refilling then { w with refilling := false } :: r else w :: refillFirst r

/-- SHADOW_REFILL_DONE of graph `handle` (R111): at 64 counters per sc from the retirement at the earliest
(log 109). -/
def execShadowRefillDone (handle : BitVec 16) (s : State) : Host.Outcome State Fault Refusal :=
  match s.graph? handle.toNat with
  | none => .next s
  | some g => s.when (match g.warm.find? (·.refilling) with
      | some w => s.since w.since (cdiv g.shadowSize 64)
      | none => false)
    (s.modGraph handle.toNat fun g => { g with warm := refillFirst g.warm })

/-! ### Root insertion (R109, R143) -/

/-- The next root of sowing `w` at or after index `nextRoot`. -/
def Sowing.nextRoot? (w : Sowing) (g : Graph) : Option Nat :=
  if g.fallow then w.roots.find? fun i => decide (w.nextRoot ≤ i)
  else ((List.range (g.n - w.nextRoot)).map (· + w.nextRoot)).find? fun i => nFanin (g.nodes.look 0 i) == 0

/-- Root `i` of sowing `w` can enter now (R98, R143). -/
def State.rootFits (s : State) (w : Sowing) (g : Graph) (i : Nat) : Bool :=
  let n := g.nodes.look 0 i
  g.resident i && !g.inTransfer i &&
    (if nDlyv n then s.mayDelay w.plot else nKind n == 15 || s.mayReady w.plot)

/-- The roots of sowing `k` may be inserted: its time has come, its counters are filled and some are left (R98, R109). -/
def State.rooting (s : State) (w : Sowing) : Bool :=
  !w.rootsDone && w.fanin == .done && (match w.rootsAt with | some t => decide (t ≤ s.now) | none => false)

/-- A sowing in root insertion ends it: its launch command retires, with the count of records for a step (R109, R294). -/
def State.rootsEnd (s : State) (k : Nat) (w : Sowing) : State :=
  let s1 := s.setSowing k { w with rootsDone := true, launching := false }
  let count := match w.step with | some x => x.recs.length | none => 0
  if (s1.queue w.queue).head = .rooting k then s1.retire w.queue 0 (pack [(0, 32, w.id.toNat), (32, 17, count)]) else s1

/-- The sowings whose roots are inserted, in the order of R143. -/
def State.rootOrder (s : State) : List (Nat × Sowing) :=
  let l := s.sow.live.filter fun kv => kv.2.st == .active && s.rooting kv.2
  let key (kv : Nat × Sowing) : Nat := match kv.2.firstRoot with | some o => o | none => s.sow.roots + kv.2.ordinal
  l.mergeSort fun a b => decide (key a ≤ key b)

/-- The first sowing of the order that can add its next root, with that root. -/
def State.nextInsertion (s : State) : Option (Nat × Sowing × Nat) :=
  s.rootOrder.findSome? fun kv => match s.graph? kv.2.graph with
    | none => none
    | some g => match kv.2.nextRoot? g with
      | none => none
      | some i => if s.rootFits kv.2 g i then some (kv.1, kv.2, i) else none

/-- Root `i` of sowing `k` enters (R78, R139, R143). -/
def State.insertRoot (s : State) (k : Nat) (w : Sowing) (i : Nat) : State :=
  let w1 := { w with
    nextRoot := i + 1
    firstRoot := match w.firstRoot with | some o => some o | none => some s.sow.roots }
  let s1 : State := { s with sow := { s.sow with
    live := s.sow.live.ins k w1
    roots := if w.firstRoot.isSome then s.sow.roots else s.sow.roots + 1 } }
  let s2 := (s1.touch w.graph (pageOf i)).setCtrState k i .passed
  let n := s2.node w i
  let s3 := if nDlyv n then s2.pushDelay k i w
    else if nKind n = 15 then s2.retireNode k i 0 none
    else s2.pushReady k i .root
  match s3.sowing? k, s3.graph? w.graph with
  | some x, some g => if (x.nextRoot? g).isNone then s3.rootsEnd k x else s3
  | _, _ => s3

/-- Up to `n` insertions. -/
def State.insertRoots (s : State) : Nat → State
  | 0 => s
  | n + 1 => match s.nextInsertion with
    | none => s
    | some (k, w, i) => (s.insertRoot k w i).insertRoots n

/-- The launches whose next root cannot enter stall their queues with WAIT LAUNCH; the others run (R143, R195). -/
def State.markRoots (s : State) : State :=
  s.sow.live.foldl (fun t kv =>
    if (t.queue kv.2.queue).head = .rooting kv.1 then
      let stuck := t.rooting kv.2 && (match t.graph? kv.2.graph with
        | some g => (match kv.2.nextRoot? g with | some i => !t.rootFits kv.2 g i | none => false)
        | none => false)
      t.modQueue kv.2.queue fun r => { r with st := if stuck then .stalled else .running, wait := if stuck then 2 else 0 }
    else t) s

/-- ROOT_INSERTION (R109, R143): up to 16 roots; the roots of a sowing that no longer dispatches are abandoned (R115). -/
def execRootInsertion (s : State) : Host.Outcome State Fault Refusal :=
  let t := (s.sow.live.filter fun kv => !kv.2.rootsDone && kv.2.st == .failing).foldl
    (fun t kv => match t.sowing? kv.1 with | some w => t.rootsEnd kv.1 w | none => t) s
  s.when true (t.insertRoots 16).markRoots

/-! ### Patches and swaps (R118 to R124) -/

/-- The bank a patch writes: B for true (R118). -/
def Graph.target (g : Graph) (sel : Nat) : Bool := if sel = 0 then !g.curB else sel == 2

/-- A live sowing captures bank `b` of graph `h` (R120). -/
def State.captured (s : State) (h : Nat) (b : Bool) : Bool := (s.liveOf h).any fun w => w.bankB == b

/-- A patch whose bank is free begins its write (R121, R122). -/
def State.beginPatch (s : State) (q h : Nat) (p : BitVec 512) (b : Bool) : State :=
  let s1 := s.modGraph h fun g => { g.leave q with writer := some q }
  let run (d : Option Words) (t : State) : State :=
    t.modQueue q fun r => { r with st := .running, wait := 0, head := .patch b t.now d }
  if pf p 0 34 1 = 0 then run (some [pw p 4, pw p 5, pw p 6, pw p 7]) s1
  else
    let bytes := pf p 2 20 20 * 32
    match s1.translate (fnOfQueue q) (pw p 3) bytes .read (some (s1.queue q).plot) false with
    | .ok a => (run none s1).issue (Xfer.make (.patchSrc q) (fnOfQueue q) 2 false a bytes []
        (some ⟨pw p 3, .read, some (s1.queue q).plot, false⟩) none)
    | .fault => (s.leaveTurn q h).retire q stSegFault 0
    | .stale => (s.leaveTurn q h).retire q stSegStale 0

/-- A SWAP_BANK whose turn has come holds the graph's order, or fails with BANK_TORN (R121, R123, R124). -/
def State.beginSwap (s : State) (q h : Nat) (g : Graph) : State :=
  if !g.turnFree q then (s.awaitTurn q h).stall q 3 (.patchWait none)
  else if g.torn.isSome then (s.leaveTurn q h).retire q 0x11 0
  else
    (s.modGraph h fun r => { r.leave q with swap := some (q, s.now) }).modQueue q fun r =>
      { r with st := .running, wait := 0, head := .swap }

/-- The order of graph `h` is free: a SWAP_BANK at its front begins, as it never waits for anything else (R121). -/
def State.nextTurn (s : State) (h : Nat) : State :=
  match s.graph? h with
  | none => s
  | some g => match g.turn with
    | [] => s
    | (q, _) :: _ => match s.headPacket? q with
      | some p => if opcode p = 0x13 then s.beginSwap q h g else s
      | none => s

/-- A patch of graph `g` resolves its bank and goes on, waits or fails (R118 to R121). -/
def State.resolvePatch (s : State) (q h : Nat) (g : Graph) (p : BitVec 512) : State :=
  let sel := pf p 0 32 2
  let b := g.target sel
  if !g.turnFree q then (s.awaitTurn q h).stall q 3 (.patchWait none)
  else if sel ≠ 0 ∧ b = g.curB then ((s.leaveTurn q h).retire q 0x0F 0).nextTurn h
  else if s.captured h b then
    (if nowait p then ((s.leaveTurn q h).retire q 0x0E 0).nextTurn h
     else ((s.leaveTurn q h).stall q 3 (.patchWait (some b))).nextTurn h)
  else s.beginPatch q h p b

/-- PATCH_PARAM, when it executes and when a wait of it ends: handle, state, range, then the bank (R66, R118 to R120). That a
waiting patch meets the state's row of R119 again is a DESIGN CHOICE (log 112). -/
def State.patchCommand (s : State) (q : Nat) (p : BitVec 512) : State :=
  let h := handleOf p
  match s.owned? q h with
  | none => s.retire q stBadHandle 0
  | some g =>
    if g.st = .sealing then (s.leaveTurn q h).retire q stGraphBusy 0
    else if g.p * 128 < pf p 2 0 19 + pf p 2 20 20 then s.retire q 0x10 0
    else s.resolvePatch q h g p

/-- PATCH_PARAM_INLINE. -/
def execPatchParamInline (q : Fin 16384) (s : State) : Host.Outcome State Fault Refusal :=
  s.command q (fun p => opcode p == 0x11 && pf p 0 34 1 == 0) fun p t => t.patchCommand q p
/-- PATCH_PARAM_POINTER. -/
def execPatchParamPointer (q : Fin 16384) (s : State) : Host.Outcome State Fault Refusal :=
  s.command q (fun p => opcode p == 0x11 && pf p 0 34 1 == 1) fun p t => t.patchCommand q p

/-- SWAP_BANK, when it executes and when its turn may have come: handle, state, then its turn (R66, R119, R121). -/
def State.swapCommand (s : State) (q : Nat) (p : BitVec 512) : State :=
  let h := handleOf p
  match s.owned? q h with
  | none => s.retire q stBadHandle 0
  | some g => if g.st = .sealing then (s.leaveTurn q h).retire q stGraphBusy 0 else s.beginSwap q h g

/-- SWAP_BANK (R119, R124). -/
def execSwapBank (q : Fin 16384) (s : State) : Host.Outcome State Fault Refusal :=
  s.command q (fun p => opcode p == 0x13) fun p t => t.swapCommand q p

/-- The graph that queue `q`'s head packet names. -/
def State.headGraph? (s : State) (q : Nat) : Option (BitVec 512 × Nat × Graph) :=
  match s.headPacket? q with
  | none => none
  | some p => (s.graph? (handleOf p)).map fun g => (p, handleOf p, g)

/-- SWAP_BANK_EFFECT (R124): 4 sc after it executes, the current bank changes. -/
def execSwapBankEffect (q : Fin 16384) (s : State) : Host.Outcome State Fault Refusal :=
  match s.headGraph? q with
  | none => .next s
  | some (_, h, g) => match g.swap with
    | none => .next s
    | some (q', t) =>
      s.when (q' == q.val && (s.queue q).head == .swap && s.since t 4)
        (((s.setGraph h { g with swap := none, curB := !g.curB }).retire q 0
          (BitVec.ofNat 64 (b2n (!g.curB)))).nextTurn h)

/-- What the wait of queue `q`'s patch or swap waits for has come: its turn, or the bank that it found captured is free
(R120, R121). -/
def State.patchDue (s : State) (q h : Nat) (g : Graph) (bank : Option Bool) : Bool :=
  match bank with
  | none => g.turnFree q
  | some b => !s.captured h b

/-- PATCH_RESUME (R120, R121): a waiting patch whose bank or turn is free resolves its bank again. -/
def execPatchResume (q : Fin 16384) (s : State) : Host.Outcome State Fault Refusal :=
  match s.headGraph? q, (s.queue q).head with
  | some (p, h, g), .patchWait b =>
    s.when (!(s.queue q).held && s.patchDue q h g b)
      (if opcode p = 0x13 then s.swapCommand q p else s.patchCommand q p)
  | _, _ => .next s

/-- A patch's source has been read, or failed finally (R122, R123): a failed read marks the bank torn over the smallest
range that covers every failed one. -/
def State.patchRead (s : State) (q : Nat) (data : Option Words) (status : Nat) : State :=
  match s.headGraph? q, (s.queue q).head with
  | some (p, h, _), .patch b t _ => match data with
    | some ws => s.modQueue q fun r => { r with head := .patch b t (some ws) }
    | none =>
      let a := pf p 2 0 19
      let n := pf p 2 20 20
      let s1 := s.mixRange h (if b then 3 else 2) a n
      ((s1.modGraph h fun r => { r with
        writer := none
        torn := match r.torn with
          | none => some (a, n)
          | some (a0, n0) => some (min a a0, max (a + n) (a0 + n0) - min a a0) }).retire q status 0).nextTurn h
  | _, _ => s

/-- PATCH_COMPLETE (R122, R123): the slots are written, and a torn mark that they cover is cleared. -/
def execPatchComplete (q : Fin 16384) (s : State) : Host.Outcome State Fault Refusal :=
  match s.headGraph? q, (s.queue q).head with
  | some (p, h, g), .patch b t (some ws) =>
    let a := pf p 2 0 19
    let n := pf p 2 20 20
    let g1 := g.loadRange (if b then 3 else 2) a n ws
    let covers := match g.torn with | some (a0, n0) => decide (a ≤ a0) && decide (a0 + n0 ≤ a + n) | none => false
    s.when (pf p 0 34 1 == 1 || s.since t 8)
      (((s.setGraph h { g1 with writer := none, torn := if covers then none else g.torn }).retire q 0
        (BitVec.ofNat 64 (b2n b))).nextTurn h)
  | none, .patch _ _ (some _) => s.when true (s.retire q stBadHandle 0)
  | _, _ => .next s

end Sys2Proof.Machine
end

