-- ==== Sys2Proof/Machine/Fallow.lean ====
section
/-! DEFINITION. The fallow tier at run time (R98 to R103): the fan-in copy, page fetches and spills, counters in the
workspace. -/
namespace Sys2Proof.Machine

/-- Every live sowing of graph `h` fails with `code` (R103). -/
def State.failGraph (s : State) (h code arg detail : Nat) : State :=
  (s.sow.live.filter fun kv => kv.2.graph == h && kv.2.st == .active).foldl
    (fun t kv => t.failSowing kv.1 { code := code, arg := BitVec.ofNat 64 arg, detail := detail }) s

/-- A transfer of a graph's image or workspace, on behalf of function `fn` at QoS 2 (R40), charged to `plot` (R343); an address
that no longer translates fails as `lost` says, with the code of its status. -/
def State.fallowXfer (s : State) (fn : Nat) (plot : Option Nat) (u : Purpose) (w : Bool) (a : W64) (bytes : Nat) (data : Words)
    (lost : Nat → State) : State :=
  let need : Need := if w then .write else .read
  match s.translate fn a bytes need plot false with
  | .ok p => s.issue (Xfer.make u fn 2 w p bytes data (some ⟨a, need, plot, false⟩) plot)
  | .fault => lost 0x202
  | .stale => lost 0x203

/-! ### The fan-in copy (R98) -/

/-- A transfer of sowing `k`'s fan-in copy; failing, it fails the sowing (R40). -/
def State.faninXfer (s : State) (k : Nat) (w : Sowing) (ph : FaninPhase) (wr : Bool) (a : W64) (bytes : Nat) (data : Words) :
    State :=
  (s.setSowing k { w with fanin := ph }).fallowXfer w.fn (some w.plot) (.fanin k) wr a bytes data
    fun code => s.failSowing k { code := code, detail := 6 }

/-- FALLOW_FANIN_COPY (R98): the fan-in array is copied into a new sowing's counter area, under its plot's regulator. -/
def execFallowFaninCopy (fn : Fin 256) (id : BitVec 32) (s : State) : Host.Outcome State Fault Refusal :=
  let k := sowKey fn id
  match s.sowing? k with
  | none => .next s
  | some w => match s.graph? w.graph with
    | none => .next s
    | some g => s.when (w.st == .active && w.fanin == .due)
        (s.faninXfer k w .reading false g.faninAddr (2 * g.n) [])

/-- A transfer of sowing `k`'s fan-in copy has ended: the array has been read, the counter area written, or the root list
read, after which the pages that hold roots are wanted (R98). -/
def State.faninArrived (s : State) (k : Nat) (ws : Words) : State :=
  match s.sowing? k with
  | none => s
  | some w => match s.graph? w.graph with
    | none => s
    | some g => match w.fanin with
      | .reading => s.faninXfer k w .writing true (g.ctrAddr w.area 0) (2 * g.n) ws
      | .writing => s.faninXfer k w .roots false g.rootAddr (4 * g.nroots) []
      | .roots => s.setSowing k { w with fanin := .done, roots := (List.range g.nroots).map (unit32 ws) }
      | .due | .done => s

/-! ### Pages (R99, R100, R102) -/

/-- The page of sowing `w` that is fetched next for its roots: roots' pages are fetched in page order (R98). -/
def Sowing.rootPage? (w : Sowing) (g : Graph) : Option Nat :=
  if w.fanin == .done && !w.rootsDone then
    ((w.roots.filter fun i => decide (w.nextRoot ≤ i)).map pageOf).find? fun p => !g.resident (4096 * p) && !g.inTransfer (4096 * p)
  else none

/-- Page `p` of graph `g` holds a root that sowing `w` waits for, or a node whose counter has reached 0 in the workspace
(R99). -/
def Sowing.wantsPage (w : Sowing) (g : Graph) (p : Nat) : Bool :=
  w.rootPage? g == some p || w.ctr.any fun c => pageOf c.1 == p && c.2 == ⟨0, .counting⟩

/-- The earliest live sowing of graph `h` that wants page `p`. -/
def State.pageWanted (s : State) (h : Nat) (g : Graph) (p : Nat) : Option Sowing :=
  ((s.sow.live.map (·.2)).filter fun w => w.graph == h && w.st == .active && w.wantsPage g p).head?

/-- Page `p` of graph `h` is pinned: a node of it is listed, delayed, pending, held, running or retiring (R100, R102). -/
def State.pinned (s : State) (h p : Nat) : Bool :=
  let mine (k i : Nat) : Bool := pageOf i == p && (match s.sowing? k with | some w => w.graph == h | none => false)
  (s.rla.lists.any fun kv => kv.2.any fun e => mine e.sow e.node)
    || (s.rla.flows.any fun kv => kv.2.chain.any fun c => mine c.sow c.node)
    || (s.rla.delays.any fun kv => kv.2.any fun e => mine e.sow e.node)
    || (s.rla.pend.any fun e => mine e.sow e.node)
    || (s.de.jobs.any fun j => mine j.sow j.node)
    || (s.de.looks.any fun j => mine j.1 j.2.1)
    || (s.pru.plots.any fun kv => kv.2.saved.any fun x => mine x.task.sow x.task.node)
    || s.eng.any fun kv =>
        (kv.2.back.st != .empty && mine kv.2.back.task.sow kv.2.back.task.node)
          || (kv.2.started.any fun x => mine x.2.sow x.2.node)
          || (match kv.2.front with
              | .committed t _ => mine t.sow t.node
              | .driven t _ => mine t.sow t.node
              | .running t _ => mine t.sow t.node
              | .empty => false)

/-- The least recently used frame of graph `h` whose page is not pinned (R100). -/
def State.victimPage (s : State) (h : Nat) (g : Graph) : Option Frame :=
  (g.frames.filter fun f => !s.pinned h f.page && !g.inTransfer (4096 * f.page)).foldl
    (fun (acc : Option Frame) f => match acc with
      | none => some f
      | some y => if f.lastUse < y.lastUse then some f else some y) none

/-- The lowest frame that holds no page and is to receive none. R129 takes a counter's bank from its frame's number, and the
spec does not say which free frame a page takes. DESIGN CHOICE (log 115). -/
def Graph.freeSlot? (g : Graph) : Option Nat :=
  (List.range g.f).find? fun i => (g.frames.all fun f => f.slot != i) && g.pages.all fun x => x.spill || x.slot != i

/-- The live sowings of graph `h` whose counter areas hold the graph's counters (R96, R99). -/
def State.counted (s : State) (h : Nat) : List Nat :=
  (s.sow.live.filter fun kv => kv.2.graph == h && kv.2.st != .retired && kv.2.st != .ending
    && (kv.2.fanin == .done || kv.2.fanin == .roots)).map (·.1)

/-- The first of the live sowings of graph `h`, in the order in which they proceeded. -/
def State.firstLive (s : State) (h : Nat) : Option Sowing :=
  (s.liveOf h).foldl (fun (acc : Option Sowing) w => match acc with
    | none => some w
    | some y => if w.ordinal < y.ordinal then some w else some y) none

/-- The counters of page `x.page` in sowing `w` as they are written to the workspace. -/
def Sowing.pageCounters (w : Sowing) (g : Graph) (p : Nat) : Words :=
  words16 ((List.range (g.pageNodes p)).map fun i => (w.counter g (4096 * p + i)).cnt)

/-- A page transfer is given up: the page is neither fetched nor spilled. -/
def State.dropTransfer (s : State) (h p : Nat) : State :=
  s.modGraph h fun g => { g with pages := g.pages.filter fun x => x.page != p }

/-- A page transfer failed: it is given up and the graph's sowings fail (R40, R103). -/
def State.pageFailed (s : State) (h p code : Nat) : State := (s.dropTransfer h p).failGraph h code 0 6

/-- The next part of page transfer `x` of graph `h` goes on the mesh (R99, R100), charged to `plot`; the counters of a sowing
that is over need none. -/
def State.pageNext (s : State) (h : Nat) (g : Graph) (x : PageXfer) (plot : Option Nat) : State :=
  let p := x.page
  let u : Purpose := if x.spill then .spill h p else .page h p
  let go (w : Bool) (a : W64) (bytes : Nat) (data : Words) : State :=
    s.fallowXfer g.owner plot u w a bytes data fun code => s.pageFailed h p code
  match x.todo with
  | [] => s
  | .nodes :: _ => go false (g.nodeAddr p) (g.nodeBytes p) []
  | .edges :: _ => go false (g.blockAddr p) (g.blockBytes p) []
  | .crc :: _ => go false (g.crcAddr p) 8 []
  | .counters k :: _ => match s.sowing? k with
    | none => s
    | some w => go x.spill (g.ctrAddr w.area (4096 * p)) (2 * g.pageNodes p) (if x.spill then w.pageCounters g p else [])

/-- The plot whose bucket a page transfer draws from: that of the sowing that wants the page, or of the first live sowing
for a page fetched ahead or spilled (R343; log 115). -/
def State.pagePlot (s : State) (h : Nat) (g : Graph) (p : Nat) : Option Nat :=
  match s.pageWanted h g p with
  | some w => some w.plot
  | none => (s.firstLive h).map (·.plot)

/-- FALLOW_PAGE_FETCH of a wanted page, or of the next page in index order while a frame stays free (R99, R100): it is
fetched into a free frame, or the least recently used unpinned page is spilled first; with every frame pinned it waits, and
so it does while a counter of the page is at work in the workspace (R101). -/
def execFallowPageFetch (handle : BitVec 16) (page : Nat) (s : State) : Host.Outcome State Fault Refusal :=
  let h := handle.toNat
  match s.graph? h with
  | none => .next s
  | some g =>
    let wanted := s.pageWanted h g page
    let plot := s.pagePlot h g page
    let ahead := decide (page < g.pageCount) && !(s.liveOf h).isEmpty && g.frames.any fun f => f.page + 1 == page
    let busy := match s.de.work with
      | some (d, _) => pageOf d.node == page && (match s.sowing? d.sow with | some w => w.graph == h | none => false)
      | none => false
    let areas : List PagePart := (s.counted h).map .counters
    s.when (g.fallow && g.st == .sealed && !g.resident (page * 4096) && !g.inTransfer (page * 4096) && !busy
        && (wanted.isSome || (ahead && g.freeSlot?.isSome)))
      (match g.freeSlot? with
       | some i =>
         let x : PageXfer := ⟨page, i, false, .nodes :: (if g.pageEdges page = 0 then [] else [.edges]) ++ .crc :: areas, [], 0, []⟩
         let g1 := { g with pages := g.pages ++ [x] }
         ((s.setGraph h g1).bumpChip 6 1).pageNext h g1 x plot
       | none => match s.victimPage h g with
         | none => s
         | some v =>
           let x : PageXfer := ⟨v.page, v.slot, true, areas, [], 0, []⟩
           let g1 := { g with pages := g.pages ++ [x] }
           ((s.setGraph h g1).bumpChip 7 1).pageNext h g1 x plot)

/-- The mesh has answered the part of page `p` of graph `h` that was under way: the next part follows. -/
def State.pageArrived (s : State) (h p : Nat) (ws : Words) : State :=
  match s.graph? h with
  | none => s
  | some g => match g.pages.find? fun x => x.page == p with
    | none => s
    | some x =>
      let y := match x.todo with
        | .nodes :: r | .edges :: r => { x with todo := r, data := x.data ++ ws }
        | .crc :: r => { x with todo := r, crc := unit32 ws 0 }
        | .counters k :: r => { x with todo := r, ctrs := if x.spill then x.ctrs else x.ctrs.ins k ws }
        | [] => x
      let z := { y with todo := y.todo.dropWhile fun u => match u with
        | .counters k => (s.sowing? k).isNone
        | _ => false }
      let g1 := { g with pages := g.pages.map fun q => if q.page = p then z else q }
      (s.setGraph h g1).pageNext h g1 z (s.pagePlot h g p)

/-- Sowing `w` with the counters of page `p` that a fetch brought in; a node that has left the DE stays PASSED. -/
def Sowing.takeCounters (w : Sowing) (g : Graph) (p : Nat) (ws : Words) : Sowing :=
  (List.range (g.pageNodes p)).foldl (fun v i =>
    let n := 4096 * p + i
    v.setCounter n ⟨unit16 ws i, match w.ctr.look? n with | some c => c.st | none => .counting⟩) w

/-- Sowing `w` without the counters of page `p`, which are in the workspace; that a node has left the DE is kept. -/
def Sowing.leaveCounters (w : Sowing) (p : Nat) : Sowing :=
  { w with ctr := w.ctr.filter fun c => pageOf c.1 != p || c.2.st != .counting }

/-- Changes the live sowings of graph `h`. -/
def State.modLive (s : State) (h : Nat) (f : Nat → Sowing → Sowing) : State :=
  { s with sow := { s.sow with live := s.sow.live.map fun kv => (kv.1, if kv.2.graph = h then f kv.1 kv.2 else kv.2) } }

/-- The nodes of page `p` whose counters reached 0 while it was away are routed (R99, R139); roots enter by ROOT_INSERTION. -/
def State.routePage (s : State) (h p : Nat) (g : Graph) : State :=
  s.sow.live.foldl (fun t kv =>
    if kv.2.graph = h ∧ kv.2.st = .active then
      (kv.2.ctr.filter fun c => pageOf c.1 == p && c.2 == ⟨0, .counting⟩ && nFanin (g.nodes.look 0 c.1) != 0).foldl
        (fun u c => u.route kv.1 c.1 (ctrBank (Graph.ctrIndex g c.1))) t
    else t) s

/-- The decrements that waited for the transfer of page `p` of graph `h` apply at its new location (R101). -/
def State.applyWaiting (s : State) (h p : Nat) : State :=
  let mine (d : Dec) : Bool := pageOf d.node == p && (match s.sowing? d.sow with | some w => w.graph == h | none => false)
  (s.de.fallow.filter mine).foldl State.applyDec { s with de := { s.de with fallow := s.de.fallow.filter fun d => !mine d } }

/-- FALLOW_PAGE_FETCH_DONE (R99, R103): the CRC recorded at seal is compared; the page and its counters are resident, the
decrements that waited apply, and ready nodes enter their lists. -/
def execFallowPageFetchDone (handle : BitVec 16) (page : Nat) (s : State) : Host.Outcome State Fault Refusal :=
  let h := handle.toNat
  match s.graph? h with
  | none => .next s
  | some g => match g.pages.find? fun x => x.page == page && !x.spill && x.todo.isEmpty with
    | none => .next s
    | some x =>
      let g1 := { g with pages := g.pages.filter fun y => y.page != page }
      let g2 := { g1.fillPage page x.data with frames := g1.frames ++ [⟨page, x.slot, s.now⟩] }
      let s1 := (s.setGraph h g2).modLive h fun k w => match x.ctrs.look? k with
        | some ws => w.takeCounters g page ws
        | none => w
      s.when true
        (if crc32 x.data = x.crc then (s1.routePage h page g2).applyWaiting h page
         else (s.setGraph h g1).failGraph h 0x10E page 0)

/-- FALLOW_PAGE_SPILL_DONE (R100): the frame is free; the counters are in the workspace. A page that has been pinned
meanwhile stays. -/
def execFallowPageSpillDone (handle : BitVec 16) (page : Nat) (s : State) : Host.Outcome State Fault Refusal :=
  let h := handle.toNat
  match s.graph? h with
  | none => .next s
  | some g =>
    let g1 := { g with pages := g.pages.filter fun y => y.page != page }
    s.when (g.pages.any fun x => x.page == page && x.spill && x.todo.isEmpty)
      (if s.pinned h page then (s.setGraph h g1).applyWaiting h page
       else (s.setGraph h ({ g1 with frames := g1.frames.filter fun f => f.page != page }.dropPage page)).modLive h
         fun _ w => w.leaveCounters page)

/-! ### Counters in the workspace (R101) -/

/-- A transfer of the decrement `d` at work in the workspace; `v` the value it writes. Failing, it fails the sowing. -/
def State.workXfer (s : State) (d : Dec) (w : Sowing) (g : Graph) (v : Option Nat) : State :=
  let s1 : State := { s with de := { s.de with work := some (d, v) } }
  let data : Words := match v with | some n => words16 [n] | none => []
  s1.fallowXfer w.fn (some w.plot) (.counter d.sow d.node) v.isSome (g.ctrAddr w.area d.node) 2 data
    fun code => State.failSowing { s with de := { s.de with work := none } } d.sow { code := code, detail := 6 }

/-- FALLOW_DECREMENT (R101): the oldest decrement whose page is in no transfer goes to its counter in the workspace, one at a
time, or applies at the page's location when the page has become resident. -/
def execFallowDecrement (s : State) : Host.Outcome State Fault Refusal :=
  match s.de.fallow.find? s.decFree with
  | none => .next s
  | some d =>
    let s1 : State := { s with de := { s.de with fallow := s.de.fallow.erase d } }
    match s.decHome d with
    | some (w, g) =>
      s.when s.de.work.isNone (if (w.ctr.look? d.node).any fun c => c.st != .counting then s1.applyDec d else s1.workXfer d w g none)
    | none => s.when true (s1.applyDec d)

/-- The workspace has answered the decrement at work: its counter has been read, and is written one lower; or it has been
written, and a counter that is now 0 has its page fetched (R99, R101, R133). -/
def State.workAnswered (s : State) (ws : Words) : State :=
  match s.de.work with
  | none => s
  | some (d, v) =>
    let s1 : State := { s with de := { s.de with work := none } }
    match s.sowing? d.sow, s.decHome d with
    | some w, some (_, g) => match v with
      | none =>
        if unit16 ws 0 = 0 then s1.failSowing d.sow { code := 0x10D, node := some d.node }
        else s1.workXfer d w g (some (unit16 ws 0 - 1))
      | some n =>
        let s2 := s1.bumpChip 0 1
        if n = 0 then s2.setSowing d.sow (w.setCounter d.node ⟨0, .counting⟩) else s2
    | _, _ => s1

/-- The transfer of the decrement at work failed finally (R40). -/
def State.workFailed (s : State) (k code : Nat) : State :=
  State.failSowing { s with de := { s.de with work := none } } k { code := code, detail := 6 }

end Sys2Proof.Machine
end

