-- ==== Sys2Proof/Machine/Stu.lean ====
section
/-! DEFINITION. The Sequence Table Unit (R281 to R304): models, sequences, composing and committing steps; and
LAUNCH_PROCEED, which launches and steps share. -/
namespace Sys2Proof.Machine

/-! ### Models and entries (R282 to R288) -/

/-- The model of number `m` that function `n` owns (R283). -/
def State.model? (s : State) (n m : Nat) : Option Model := (s.stu.models.look? m).filter fun x => x.fn == n
/-- The entry of number `i` that function `n` owns (R288). -/
def State.seq? (s : State) (n i : Nat) : Option Seq' := (s.stu.seqs.look? i).filter fun x => x.fn == n

/-- Writes sequence entry `i`. -/
def State.setSeq (s : State) (i : Nat) (x : Seq') : State :=
  { s with stu := { s.stu with seqs := s.stu.seqs.ins i x } }

/-- The list of model `m` at level `l`. -/
def State.seqList (s : State) (m l : Nat) : List Nat := s.stu.lists.look [] (m * 4 + l)

/-- The entry after `i` in a list, cyclically. -/
def after (l : List Nat) (i : Nat) : Option Nat :=
  match l.dropWhile (· != i) with
  | _ :: y :: _ => some y
  | _ => l.head?

/-- Sequence `i` leaves its level's list; a rotation point on it moves to the next entry (R292). -/
def State.unlist (s : State) (m l i : Nat) : State :=
  let key := m * 4 + l
  let old := s.seqList m l
  let new := old.filter (· != i)
  let r := if s.stu.rot.look none key = some i then (if new.isEmpty then none else after old i) else s.stu.rot.look none key
  { s with stu := { s.stu with lists := s.stu.lists.put [] key new, rot := s.stu.rot.put none key r } }

/-- Sequence `i` joins the tail of its level's list (R287, R288). -/
def State.enlist (s : State) (m l i : Nat) : State :=
  { s with stu := { s.stu with lists := s.stu.lists.adj [] (m * 4 + l) fun x => x ++ [i] } }

/-- Entry `i` becomes FREE. -/
def State.freeSeq (s : State) (i : Nat) : State :=
  match s.stu.seqs.look? i with
  | none => s
  | some x =>
    let s1 := s.unlist x.model x.level i
    { s1 with stu := { s1.stu with seqs := s1.stu.seqs.del i } }

/-- Entries of function `n`; models of function `n`. -/
def State.stuHeld (s : State) (n : Nat) : Nat × Nat :=
  ((s.stu.seqs.filter fun kv => kv.2.fn == n).length, (s.stu.models.filter fun kv => kv.2.fn == n).length)

/-- The model record of a packet (R281). -/
def modelOf (q : Nat) (p : BitVec 512) : Model where
  fn := fnOfQueue q
  handle := handleOf p
  wlbase := pw p 2
  maxseq := pf p 3 0 17
  nbuf := pf p 3 17 4
  chunk := pf p 3 21 13
  steptok := pf p 3 34 24
  stepq := pf p 4 0 6
  det := pf p 4 6 1 == 1
  semv := pf p 4 7 1 == 1
  sem := pf p 4 8 18
  detoff := pf p 4 32 16
  semval := BitVec.ofNat 32 (pf p 5 0 32)

/-- STU_MODEL (R282): the STU picks a free record, which is the operand. -/
def execStuModel (q : Fin 16384) (model : Fin 1024) (s : State) : Host.Outcome State Fault Refusal :=
  s.command q (fun p => opcode p == 0x30) fun p t =>
    let n := fnOfQueue q
    if (t.owned? q (handleOf p)).isNone then t.retire q stBadHandle 0
    else if 1024 ≤ t.stu.models.length ∨ fld (t.stu.quota.look 0 n) 17 11 ≤ (t.stuHeld n).2 then t.retire q 0x30 0
    else if (t.stu.models.look? model).isSome then t
    else (({ t with stu := { t.stu with models := t.stu.models.ins model (modelOf q p) } }).retire q 0
      (BitVec.ofNat 64 model))

/-- Live steps of model `m` (R104). -/
def State.liveSteps (s : State) (m : Nat) : List Sowing :=
  (s.sow.live.map (·.2)).filter fun w => w.st != .retired && (match w.step with | some x => x.model == m | none => false)

/-- STU_MODEL_FREE (R283). -/
def execStuModelFree (q : Fin 16384) (s : State) : Host.Outcome State Fault Refusal :=
  s.command q (fun p => opcode p == 0x31) fun p t =>
    let m := pf p 0 32 10
    if (t.model? (fnOfQueue q) m).isNone then t.retire q 0x32 0
    else if (t.stu.seqs.any fun kv => kv.2.model == m) || !(t.liveSteps m).isEmpty then t.retire q 0x33 0
    else ({ t with stu := { t.stu with
      models := t.stu.models.del m
      rot := t.stu.rot.filter fun kv => kv.1 / 4 != m } }).retire q 0 0

/-- STU_ADMIT (R287): the STU picks a free entry, which is the operand. -/
def execStuAdmit (q : Fin 16384) (seq : Fin 65536) (s : State) : Host.Outcome State Fault Refusal :=
  s.command q (fun p => opcode p == 0x32) fun p t =>
    let n := fnOfQueue q
    let m := pf p 0 32 10
    let lvl := pf p 0 42 2
    let len := pf p 2 0 23
    let prompt := pf p 2 23 23
    let maxlen := pf p 3 0 23
    if (t.model? n m).isNone then t.retire q 0x32 0
    else if maxlen < 1 ∨ 4194304 < maxlen ∨ maxlen ≤ len ∨ maxlen < len + prompt then t.retire q 0x34 0
    else if 65536 ≤ t.stu.seqs.length ∨ fld (t.stu.quota.look 0 n) 0 17 ≤ (t.stuHeld n).1 then t.retire q 0x30 0
    else if (t.stu.seqs.look? seq).isSome then t
    else
      let x : Seq' := ⟨if pf p 0 44 1 = 1 then .suspended else .active, n, m, lvl, len, prompt, maxlen, false, false, false,
        0, pw p 4, pw p 5, t.now⟩
      ((t.setSeq seq x).enlist m lvl seq).retire q 0 (BitVec.ofNat 64 seq)

/-- Encoding of a sequence state (R285). -/
def SeqState.code : SeqState → Nat
  | .active => 1
  | .instep => 2
  | .suspended => 3
  | .done => 4
  | .faulted => 5

/-- STU_EVICT (R288). -/
def execStuEvict (q : Fin 16384) (s : State) : Host.Outcome State Fault Refusal :=
  s.command q (fun p => opcode p == 0x34) fun p t =>
    let i := pf p 0 32 16
    match t.seq? (fnOfQueue q) i with
    | none => t.retire q 0x31 0
    | some x =>
      let later := x.st == .instep
      (if later then t.setSeq i { x with evictp := true } else t.freeSeq i).retire q 0
        (pack [(0, 23, x.len), (23, 3, x.st.code), (26, 1, b2n later)])

/-- STU_PARK suspend (R288). -/
def execStuParkSuspend (q : Fin 16384) (s : State) : Host.Outcome State Fault Refusal :=
  s.command q (fun p => opcode p == 0x35 && pf p 0 48 1 == 0) fun p t =>
    let i := pf p 0 32 16
    match t.seq? (fnOfQueue q) i with
    | none => t.retire q 0x31 0
    | some x => match x.st with
      | .active => (t.setSeq i { x with st := .suspended }).retire q 0 0
      | .instep => (t.setSeq i { x with suspp := true }).retire q 0 0
      | .suspended => t.retire q 0 0
      | .done => t.retire q 0x33 0
      | .faulted => t.retire q 0x33 0

/-- STU_PARK resume (R288). -/
def execStuParkResume (q : Fin 16384) (s : State) : Host.Outcome State Fault Refusal :=
  s.command q (fun p => opcode p == 0x35 && pf p 0 48 1 == 1) fun p t =>
    let i := pf p 0 32 16
    match t.seq? (fnOfQueue q) i with
    | none => t.retire q 0x31 0
    | some x => match x.st with
      | .active => t.retire q 0 0
      | .instep => (t.setSeq i { x with suspp := false }).retire q 0 0
      | .suspended =>
        (((t.unlist x.model x.level i).setSeq i { x with st := .active }).enlist x.model x.level i).retire q 0 0
      | .done => t.retire q 0x33 0
      | .faulted => t.retire q 0x33 0

/-- STU_MOVE (R288). -/
def execStuMove (q : Fin 16384) (s : State) : Host.Outcome State Fault Refusal :=
  s.command q (fun p => opcode p == 0x36) fun p t =>
    let i := pf p 0 32 16
    match t.seq? (fnOfQueue q) i with
    | none => t.retire q 0x31 0
    | some x => if x.st = .suspended then (t.setSeq i { x with addr := pw p 2 }).retire q 0 0 else t.retire q 0x33 0

/-! ### Beginning a step (R290) -/

/-- The model has an ACTIVE sequence. -/
def State.hasActive (s : State) (m : Nat) : Bool := s.stu.seqs.any fun kv => kv.2.model == m && kv.2.st == .active

/-- Buffer of the step that function `n` would launch now (R290). -/
def State.stepBuf (s : State) (n : Nat) (x : Model) : Nat := (s.nextSowId n).toNat % x.nbuf

/-- That buffer holds no live step of the model (R290). -/
def State.bufFree (s : State) (n m : Nat) (x : Model) : Bool :=
  (s.liveSteps m).all fun w => match w.step with | some y => y.buf != s.stepBuf n x | none => true

/-- Address of a model's buffer (R291). -/
def Model.bufAddr (x : Model) (b : Nat) : W64 := x.wlbase + BitVec.ofNat 64 (b * (64 + x.maxseq * 32))

/-- What a step's launch brings (R290). -/
def State.stepArgs (s : State) (n m : Nat) (x : Model) (cyc : Option CycInfo) (command : Bool) : LaunchArgs :=
  let b := s.stepBuf n x
  { act := { EndAct.nil with erv := true, eraddr := x.bufAddr b + 32, semv := x.semv, sem := x.sem, semop := 2, semval := x.semval }
    cyc := cyc
    step := some ⟨m, b, [], .composing, false⟩
    command := command }

/-- A step proceeds, and takes its place before the composer (R290, R293). -/
def State.proceedStep (s : State) (q m : Nat) (x : Model) (g : Graph) (cyc : Option CycInfo) (command : Bool) :
    Nat × State :=
  let (k, t) := s.proceed q x.handle g (s.stepArgs (fnOfQueue q) m x cyc command)
  (k, { t with stu := { t.stu with queue := t.stu.queue ++ [k] } })

/-- A STU_STEP that passed its checks proceeds or waits (R106, R195, R290); with the no-wait bit the live limit, the shadow and
the buffer fail it, whenever they stop it. -/
def State.tryStep (s : State) (q m : Nat) (x : Model) (g : Graph) (noWait : Bool) : State :=
  let h := x.handle
  match s.launchHold q h g true, noWait, s.bufFree (fnOfQueue q) m x with
  | .none, _, true =>
    let (k, t) := s.proceedStep q m x g none true
    t.modQueue q fun r => { r with st := .running, wait := 0, head := .rooting k }
  | .none, true, false => (s.leaveTurn q h).retire q 0x36 0
  | .none, false, false => (s.leaveTurn q h).stall q 15 (.launch true)
  | .limit, true, _ => (s.leaveTurn q h).retire q 0x0C 0
  | .shadow, true, _ => (s.leaveTurn q h).retire q 0x0D 0
  | .order, _, _ => (s.awaitTurn q h).stall q 2 (.launch true)
  | _, _, _ => (s.leaveTurn q h).stall q 2 (.launch true)

/-- STU_STEP (R290). -/
def execStuStep (q : Fin 16384) (s : State) : Host.Outcome State Fault Refusal :=
  s.command q (fun p => opcode p == 0x33) fun p t =>
    let m := pf p 0 32 10
    match t.model? (fnOfQueue q) m with
    | none => t.retire q 0x32 0
    | some x =>
      if !t.hasActive m then t.retire q 0x35 0
      else if x.semv && !t.declared q x.sem then t.retire q stSemUndeclared 0
      else
        let c := t.launchCheck q x.handle
        if c ≠ 0 then t.retire q c 0
        else match t.graph? x.handle with
          | none => t
          | some g => t.tryStep q m x g (nowait p)

/-- A WAITING launch of queue `q` goes on: handle, state and drains are checked again (State.launchRecheck). -/
def State.resumeLaunch (s : State) (q : Nat) (p : BitVec 512) : State :=
  let h := handleOf p
  let c := s.launchRecheck q h
  if c ≠ 0 then (s.leaveTurn q h).retire q c 0
  else match s.graph? h with
    | none => s
    | some g => s.tryLaunch q p g

/-- A WAITING step of queue `q` goes on: the model, its ACTIVE sequences and its template are checked again. That they are is a
DESIGN CHOICE (log 112). -/
def State.resumeStep (s : State) (q : Nat) (p : BitVec 512) : State :=
  let m := pf p 0 32 10
  match s.model? (fnOfQueue q) m with
  | none => (s.dropWaits q).retire q 0x32 0
  | some x =>
    let c := s.launchRecheck q x.handle
    if !s.hasActive m then (s.leaveTurn q x.handle).retire q 0x35 0
    else if c ≠ 0 then (s.leaveTurn q x.handle).retire q c 0
    else match s.graph? x.handle with
      | none => s
      | some g => s.tryStep q m x g (nowait p)

/-- LAUNCH_PROCEED (R106, R108): a WAITING launch or step of queue `q` proceeds when nothing holds it any more. -/
def execLaunchProceed (q : Fin 16384) (s : State) : Host.Outcome State Fault Refusal :=
  match s.headPacket? q, (s.queue q).head with
  | some p, .launch false => s.when (!(s.queue q).held) (s.resumeLaunch q p)
  | some p, .launch true => s.when (!(s.queue q).held) (s.resumeStep q p)
  | _, _ => .next s

/-! ### Composing (R291 to R293, R302) -/

/-- The walk so far: records, tokens, entries as changed, whether composition has stopped. -/
structure Walk where
  recs : List StepRec
  toks : Nat
  seqs : Tab Seq'
  rot  : Tab (Option Nat)
  stop : Bool

/-- One lap of a list from its rotation point (R292). -/
def lap (l : List Nat) (r : Option Nat) : List Nat :=
  match r with
  | none => l
  | some i => if l.contains i then l.dropWhile (· != i) ++ l.takeWhile (· != i) else l

/-- One visit of the walk (R292): `k` is the sowing, which proceeded at `t`. -/
def Walk.visit (a : Walk) (x : Model) (key : Nat) (l : List Nat) (id t i : Nat) : Walk :=
  if a.stop then a
  else match a.seqs.look? i with
    | none => a
    | some e =>
      if e.st ≠ .active ∨ t ≤ e.at' then a
      else
        let n := min (if 0 < e.prompt then min e.prompt x.chunk else 1) (e.maxlen - e.len)
        if a.recs.length = x.maxseq ∨ x.steptok < a.toks + n then
          { a with rot := a.rot.put none key (some i), stop := true }
        else
          { a with
            recs := a.recs ++ [⟨i, n, decide (0 < e.prompt)⟩]
            toks := a.toks + n
            seqs := a.seqs.ins i { e with st := .instep, stepsow := id }
            rot := a.rot.put none key (after l i) }

/-- compose(m) of R292. -/
def State.walk (s : State) (m : Nat) (x : Model) (id t : Nat) : Walk :=
  [3, 2, 1, 0].foldl (fun a lvl =>
    let l := s.seqList m lvl
    let key := m * 4 + lvl
    (lap l (a.rot.look none key)).foldl (fun b i => b.visit x key l id t i) a) ⟨[], 0, s.stu.seqs, s.stu.rot, false⟩

/-- A work-list record (R291). -/
def StepRec.encode (r : StepRec) (e : Seq') : Words :=
  [pack [(0, 16, r.seq), (16, 23, e.len), (39, 13, r.ntok), (52, 1, b2n r.prefill)], e.addr, e.user, 0]

/-- A write to or read of a step's buffer, under the function's segments at QoS 3 (R293), drawn from the plot's task
bucket (R343); or the status of an address that no longer translates. -/
def State.bufXfer (s : State) (w : Sowing) (u : Purpose) (wr : Bool) (a : W64) (bytes : Nat) (data : Words) :
    Option Nat × State :=
  match s.translate w.fn a bytes (if wr then .write else .read) (some w.plot) true with
  | .ok p => (none, s.issue (Xfer.make u w.fn 3 wr p bytes data
      (some ⟨a, if wr then .write else .read, some w.plot, true⟩) (some w.plot)))
  | .fault => (some stSegFault, s)
  | .stale => (some stSegStale, s)

/-- A work-list write failed: the sowing enters FAILING, no root is inserted, the command retires with the status
(R293). -/
def State.listFailed (s : State) (k status : Nat) : State :=
  match s.sowing? k with
  | none => s
  | some w =>
    let s1 := (s.setSowing k { w with rootsDone := true, launching := false }).failSowing k { code := 0x200 + status }
    if (s1.queue w.queue).head = .rooting k then s1.retire w.queue status 0 else s1

/-- STU_COMPOSE (R292, R293): the oldest step's walk, 8 sc after it proceeded, and the writes of its work list. A walk that finds
no ACTIVE sequence any more writes a header with COUNT 0 alone. DESIGN CHOICE (log 121). -/
def execStuCompose (s : State) : Host.Outcome State Fault Refusal :=
  match s.stu.queue with
  | [] => .next s
  | k :: r =>
    let s1 : State := { s with stu := { s.stu with queue := r } }
    match s.sowing? k with
    | none => s.when true s1
    | some w => match w.step with
      | none => s.when true s1
      | some x => match s.stu.models.look? x.model with
        | none => s.when true s1
        | some m =>
          s.when (s.since w.startAt 8 || w.st != .active)
            (if w.st ≠ .active then s1
             else
               let a := s.walk x.model m w.id.toNat w.startAt
               let s2 : State := { s1 with stu := { s1.stu with seqs := a.seqs, rot := a.rot } }
               let n := a.recs.length
               let y : StepInfo := { x with recs := a.recs, phase := .writing (if n = 0 then 1 else 2) }
               let s3 := (s2.setSowing k { w with step := some y }).bumpChip 5 n
               let base := m.bufAddr x.buf
               let recs := a.recs.flatMap fun e => match s.stu.seqs.look? e.seq with | some v => e.encode v | none => []
               let head := [pack [(0, 32, w.id.toNat), (32, 17, n)], pack [(0, 32, a.toks), (32, 10, x.model)], 0, 0]
               match (if n = 0 then (none, s3) else s3.bufXfer w (.workList k) true (base + 64) (32 * n) recs) with
               | (some st, t) => t.listFailed k st
               | (none, t) => match t.bufXfer w (.workList k) true base 32 head with
                 | (some st, u) => u.listFailed k st
                 | (none, u) => u)

/-- The roots of step `k` may be inserted from now on (R293, R302); those of a fallow template wait for their counters too
(State.rooting). -/
def State.openRoots (s : State) (k : Nat) (w : Sowing) : State := s.setSowing k { w with rootsAt := some s.now }

/-- One write of a work list has been acknowledged (R293, R302). -/
def State.listAcked (s : State) (k : Nat) : State :=
  match s.sowing? k with
  | none => s
  | some w => match w.step with
    | none => s
    | some x => match x.phase with
      | .writing (n + 1) =>
        if n ≠ 0 then s.setSowing k { w with step := some { x with phase := .writing n } }
        else
          let w1 := { w with step := some { x with phase := .running } }
          let s1 := s.setSowing k w1
          (match s.stu.models.look? x.model with
           | none => s1
           | some m =>
             if !m.det then s1.openRoots k w1
             else if x.late then
               ((s1.openRoots k w1).report w.fn
                 { code := 0x304, plot := some w.plot, sow := some w.id, queue := some w.queue,
                   arg := pack [(0, 10, x.model), (32, 32, s.now - (w.startAt + m.detoff))] })
             else s1)
      | _ => s

/-- STEP_DET_ROOTS (R302): at DETOFF the roots begin, or composition is late and they begin when it ends. -/
def execStepDetRoots (fn : Fin 256) (id : BitVec 32) (s : State) : Host.Outcome State Fault Refusal :=
  let k := sowKey fn id
  match s.sowing? k with
  | none => .next s
  | some w => match w.step with
    | none => .next s
    | some x => match s.stu.models.look? x.model with
      | none => .next s
      | some m =>
        s.when (m.det && w.st == .active && w.rootsAt.isNone && s.since w.startAt m.detoff)
          (if x.phase = .running then s.openRoots k w
           else s.setSowing k { w with step := some { x with late := true } })

/-! ### Committing (R295 to R299) -/

/-- An entry after its step's commit: `res` is its RESULT, none when it does not advance (R289, R295, R296). -/
def Seq'.commit (e : Seq') (r : StepRec) (res : Option Nat) : Option Seq' :=
  let e0 := { e with st := .active, stepsow := 0 }
  let adv := { e0 with len := e.len + r.ntok, prompt := if r.prefill then e.prompt - r.ntok else e.prompt }
  let e1 := match res with
    | none => e0
    | some 0 => e0
    | some 1 => if adv.len = adv.maxlen then { adv with st := .done, reason := true } else adv
    | some 2 => { adv with st := .done, reason := false }
    | some _ => { e0 with st := .faulted }
  if e.evictp then none
  else if e.suspp && e1.st == .active then some { e1 with st := .suspended, suspp := false }
  else some { e1 with suspp := false }

/-- The entry is of the step of sowing `w`, which STEPSOW names: no entry that was freed and admitted anew since (R286,
R289). -/
def Seq'.inStep (e : Seq') (w : Sowing) : Bool := e.fn == w.fn && e.stepsow == w.id.toNat

/-- Applies a commit to the entries of the step of sowing `w`; `f` gives each record's RESULT (R289, R296). An entry that an
error has made FAULTED stays so and takes its marks (R300). -/
def State.applyCommit (s : State) (w : Sowing) (x : StepInfo) (f : Nat → Option Nat) : State :=
  (x.recs.zipIdx).foldl (fun t ri =>
    match (t.stu.seqs.look? ri.1.seq).filter fun e => e.inStep w with
    | none => t
    | some e =>
      if e.st = .instep then
        (match e.commit ri.1 (f ri.2) with
         | none => t.freeSeq ri.1.seq
         | some e' => t.setSeq ri.1.seq e')
      else if e.st = .faulted then
        (if e.evictp then t.freeSeq ri.1.seq else t.setSeq ri.1.seq { e with suspp := false, stepsow := 0 })
      else t) s

/-- What a commit of record `r` in sowing `w` would leave of its entry without any advance, beside what the commit with RESULT
`res` leaves: none when the entry is freed either way. -/
def State.undoEntry (s : State) (w : Sowing) (r : StepRec) (res : Option Nat) : Option (Nat × Seq' × Seq') :=
  match (s.stu.seqs.look? r.seq).filter fun e => e.inStep w && e.st == .instep with
  | none => none
  | some e => match e.commit r none, e.commit r res with
    | some a, some b => some (r.seq, a, b)
    | _, _ => none

/-- The results of a commit are taken back: an entry that nothing has changed since stands as if it had not advanced (R298).
DESIGN CHOICE for an entry that has changed (log 120). -/
def State.undoCommit (s : State) (l : List (Nat × Seq' × Seq')) : State :=
  l.foldl (fun t x => if t.stu.seqs.look? x.1 = some x.2.2 then t.setSeq x.1 x.2.1 else t) s

/-- RESULT of record `i` in what was read back (R291). -/
def resultOf (ws : Words) (i : Nat) : Nat := fld (ws.at (4 * i + 3)) 0 8

/-- ADVANCED, DONE and FAULTED of a commit (R291, R296). -/
def State.commitCounts (s : State) (x : StepInfo) (ws : Words) : W64 :=
  let l := x.recs.zipIdx
  let adv := (l.filter fun ri => resultOf ws ri.2 == 1 || resultOf ws ri.2 == 2).length
  let done := (l.filter fun ri => resultOf ws ri.2 == 2 || (resultOf ws ri.2 == 1 &&
    (match s.stu.seqs.look? ri.1.seq with | some e => e.len + ri.1.ntok == e.maxlen | none => false))).length
  let bad := (l.filter fun ri => decide (3 ≤ resultOf ws ri.2)).length
  pack [(0, 17, adv), (17, 17, done), (34, 17, bad)]

/-- The commit of a step is over. -/
def State.commitDone (s : State) (k : Nat) : State :=
  s.modSowing k fun w => { w with step := w.step.map fun x => { x with phase := .done } }

/-- A read-back or header write failed: STEP_COMMIT, no entry advances (R298). -/
def State.commitFailed (s : State) (k : Nat) : State :=
  match s.sowing? k with
  | none => s
  | some w => match w.step with
    | none => s
    | some x =>
      let s1 := match x.phase with
        | .committing l => s.undoCommit l
        | _ => s.applyCommit w x fun _ => none
      (s1.commitDone k).report w.fn
        { code := 0x305, plot := some w.plot, sow := some w.id, queue := some w.queue, arg := BitVec.ofNat 64 x.model }

/-- The records have been read back (R296). -/
def State.commitRead (s : State) (k : Nat) (ws : Words) : State :=
  s.modSowing k fun w => { w with step := w.step.map fun x => { x with phase := .reading (some ws) } }

/-- The header write has been acknowledged (R296). -/
def State.commitAcked (s : State) (k : Nat) : State :=
  match (s.sowing? k).bind fun w => w.step with
  | some x => (match x.phase with
    | .committing _ => s.commitDone k
    | _ => s)
  | none => s

/-- The results and marks of step `k` take effect, then its counts are written (R296); `f` gives each record's RESULT. -/
def State.commitStep (s : State) (k : Nat) (w : Sowing) (x : StepInfo) (m : Model) (counts : W64) (f : Nat → Option Nat) :
    State :=
  let undo := x.recs.zipIdx.filterMap fun ri => s.undoEntry w ri.1 (f ri.2)
  let s1 := (s.applyCommit w x f).setSowing k { w with step := some { x with phase := .committing undo } }
  match s1.bufXfer w (.commitWrite k) true (m.bufAddr x.buf + 16) 8 [counts] with
  | (none, t) => t
  | (some _, t) => t.commitFailed k

/-- The commit of a FAILING step: nothing is read, no entry advances, the counts are 0 (R296). -/
def State.commitNothing (s : State) (k : Nat) (w : Sowing) (x : StepInfo) (m : Model) : State :=
  s.commitStep k w x m 0 fun _ => none

/-- STEP_COMMIT (R296): the read-back of an ENDING step, then its results and counts; a FAILING one reads nothing. A step whose
list has no record has nothing to read (log 121). -/
def execStepCommit (fn : Fin 256) (id : BitVec 32) (s : State) : Host.Outcome State Fault Refusal :=
  let k := sowKey fn id
  match s.sowing? k with
  | none => .next s
  | some w => match w.step with
    | none => .next s
    | some x => match s.stu.models.look? x.model with
      | none => s.when (w.st == .ending) ((s.applyCommit w x fun _ => none).commitDone k)
      | some m => match x.phase with
        | .reading (some ws) => s.when (w.st == .ending)
            (s.commitStep k w x m (s.commitCounts x ws) fun i => some (resultOf ws i))
        | .running =>
          s.when (w.st == .ending)
            (if w.code ≠ 0 then s.commitNothing k w x m
             else if x.recs = [] then s.setSowing k { w with step := some { x with phase := .reading (some []) } }
             else match s.bufXfer w (.commitRead k) false (m.bufAddr x.buf + 64) (32 * x.recs.length) [] with
               | (none, t) => t.setSowing k { w with step := some { x with phase := .reading none } }
               | (some _, t) => t.commitFailed k)
        | .composing => s.when (w.st == .ending) (s.commitNothing k w x m)
        | .writing _ => s.when (w.st == .ending) (s.commitNothing k w x m)
        | _ => .next s

end Sys2Proof.Machine
end

