-- ==== Sys2Proof/Machine/Yoke.lean ====
section
/-! DEFINITION. The yoke (R320 to R334): sideband frames, joining and calibration, TICK and STATUS, roles, barriers,
mirrored pairs. -/
namespace Sys2Proof.Machine

/-! ### Frames (01_boundary.md, R322) -/

/-- Link port `p`. -/
def State.port (s : State) (p : Nat) : Port := s.link.ports.look Port.reset p
/-- Changes link port `p`. -/
def State.modPort (s : State) (p : Nat) (f : Port → Port) : State :=
  { s with link := { s.link with ports := s.link.ports.adj Port.reset p f } }
/-- A partner has arrived on port `p` and has not departed (R53). -/
def State.hasPartner (s : State) (p : Nat) : Bool := (s.port p).partner.isSome

/-- Drives a frame on port `p`; a link that is down takes none, nor does any before the alignment (R23). -/
def State.sendFrame (s : State) (p : Nat) (ws : Words) : State :=
  if s.su.alignDone && s.pins.lsUp.getLsbD p then { s with pins := { s.pins with linkOut := s.pins.linkOut.ins p ws } } else s

/-- A frame that comes in on port `p`: one in flight on a port whose ls_up_i has fallen is lost (R52). -/
def State.frameIn (s : State) (p : Nat) (c : Bool) (t : State) : Host.Outcome State Fault Refusal :=
  s.when (s.pins.lsUp.getLsbD p && c) t

/-- A YOKE frame of subtype `sub`: flit 0, then the later flits in the order of R322, each a word. -/
def State.yokeFrame (s : State) (sub : Nat) (ws : List Nat) : Words :=
  pack [(0, 8, 2), (8, 8, sub), (16, 8, s.fm.active.chip.chip), (24, 16, s.fm.active.chip.field)]
    :: ws.map (BitVec.ofNat 64)

/-- The current sc as a timestamp (R322). -/
def State.stamp (s : State) : Stamp := ⟨s.tcs.tick, s.now - s.tcs.start⟩

/-- sc of an unadjusted tick of the active map (R306). -/
def State.period (s : State) : Nat := 20 * s.fm.active.chip.tickPeriod

/-! ### Roles and places in the tree (R323, R327, R333) -/

/-- The chip is joined; one that calibrates again stays so (R323, R326). -/
def Yoke.joined (y : Yoke) : Bool :=
  match y.phase with
  | .joined => true
  | .none => false
  | _ => y.recal

/-- The chip is the acting master of its field. -/
def State.isMaster (s : State) : Bool := s.yoke.role == 2

/-- The chip is the master of the higher FIELD of a mirrored pair: it joins the root through MIRROR_PORT (R333). -/
def State.secondMaster (s : State) : Bool :=
  let c := s.fm.active.chip
  s.isMaster && c.mirrorV && decide (c.mirrorField < c.field)

/-- Port `p` leads to the mirror field. -/
def State.mirrorKid (s : State) (p : Nat) : Bool := s.fm.active.chip.mirrorV && p == s.fm.active.chip.mirrorPort

/-- The port through which the chip joins, its partner present (R320, R327, R333); the standby whose link to the master is down
stays in the master's tree through a chip that sees the master. -/
def State.joinPort? (s : State) : Option Nat :=
  let c := s.fm.active.chip
  if s.secondMaster then (if s.hasPartner c.mirrorPort then some c.mirrorPort else none)
  else match s.yoke.role with
    | 1 => if s.hasPartner c.parent then some c.parent else if s.hasPartner c.sparent then some c.sparent else none
    | 3 =>
      if c.role = 2 then (if s.hasPartner s.yoke.port then some s.yoke.port else none)
      else if s.hasPartner c.parent then some c.parent else s.yoke.via.filter s.hasPartner
    | _ => none

/-- Joined chips that the acting master counts: itself and what its ports last reported (R337). -/
def State.joinedSum (s : State) : Nat :=
  1 + ((s.yoke.kids.filter fun kv => !s.mirrorKid kv.1).map (·.2)).sum

/-- The acting master's COUNT follows its ports' reports. -/
def State.recount (s : State) : State :=
  if s.isMaster && s.yoke.joined then { s with yoke := { s.yoke with count := min 256 s.joinedSum } } else s

/-- Sends a frame to every port from which a JOIN was accepted, the mirror's only when `mirror` (R323, R333). -/
def State.sendKids (s : State) (mirror : Bool) (ws : Words) : State :=
  (s.yoke.kids.filter fun kv => mirror || !s.mirrorKid kv.1).foldl (fun t kv => t.sendFrame kv.1 ws) s

/-- Hops to the acting master of the chip's own field, as the partner on port `p` implies: HELLO names its role (R53,
R333). DEDUCED. -/
def State.hopsVia (s : State) (p : Nat) : Nat :=
  if s.secondMaster then 0
  else match (s.port p).partner with
    | some h => if h.role = 2 then 1 else 2
    | none => 2

/-! ### Joining (R321, R323) -/

/-- Sixteen exchanges have been asked for, and 512 sc after the last not all are answered: the join starts over. R323 gives a
chip no other way to join within 3 ticks of its parent's own join. DESIGN CHOICE (log 122). -/
def Yoke.unanswered (y : Yoke) (now : Nat) : Bool :=
  match y.phase with
  | .joining 16 t => decide (y.exch.length < 16) && decide (t + 512 ≤ now)
  | _ => false

/-- The chip may begin to join (R323, R327, R333): it is not joined; or the standby's link to the master is down; or the second
master is not joined to the root. -/
def State.mayJoin (s : State) : Bool :=
  s.yoke.unanswered s.now ||
  (if s.secondMaster then s.yoke.phase == .joined && s.yoke.parentTick.isNone
   else s.yoke.phase == .none || (s.yoke.phase == .joined && s.yoke.role == 3 && !s.hasPartner s.yoke.port))

/-- The partner on port `p` names another field than the one the chip would join there (R321). -/
def State.otherField (s : State) (p : Nat) : Bool :=
  let c := s.fm.active.chip
  match (s.port p).partner with
  | some h => h.field.toNat != (if s.secondMaster then c.mirrorField else c.field)
  | none => false

/-- YOKE_JOIN_START (R321, R323, step 1): a partner of another field is not joined, which is logged. A joined chip that only
calibrates again sends no JOIN (R326). -/
def execYokeJoinStart (s : State) : Host.Outcome State Fault Refusal :=
  match s.joinPort? with
  | none => .next s
  | some p =>
    let c := s.fm.active.chip
    let second := s.secondMaster
    let hops := s.hopsVia p
    let stays := s.yoke.joined && !second
    let s1 : State := { s with yoke := { s.yoke with
      phase := .joining 0 s.now, recal := second || stays, port := p, exch := [], hops := hops, parentTick := none, delay := 0 } }
    s.when s.mayJoin
      (if s.otherField p then s.errlog { code := 0x80E, arg := BitVec.ofNat 64 p }
       else if stays && s.yoke.phase != .joined then s1
       else s1.sendFrame p (s.yokeFrame 1 [s.yoke.role, c.chips, c.tickPeriod, c.headland, c.cycleTicks, hops]))

/-- The configuration of a JOIN equals the chip's own (R321); the mirror's master has the mirror's FIELD (R333). -/
def State.joinAgrees (s : State) (p : Nat) (f : JoinFrame) : Bool :=
  let c := s.fm.active.chip
  (f.field.toNat == c.field || (s.mirrorKid p && f.field.toNat == c.mirrorField))
    && f.chips == c.chips && f.tickPeriod == c.tickPeriod && f.headland == c.headland && f.cycleTicks == c.cycleTicks

/-- CAL_REQ_SEND (R323, step 2): one of 16, 512 sc apart. -/
def execCalReqSend (s : State) : Host.Outcome State Fault Refusal :=
  match s.yoke.phase with
  | .joining n t =>
    s.when (decide (n < 16) && (n == 0 || s.since t 512))
      (State.sendFrame { s with yoke := { s.yoke with phase := .joining (n + 1) s.now } } s.yoke.port
        (s.yokeFrame 2 [s.stamp.tick.toNat, s.stamp.phase]))
  | _ => .next s

/-- CAL_REQ (R322, R323): a port whose JOIN was accepted is answered. -/
def execCalReq (port : Fin 96) (t0 : Stamp) (s : State) : Host.Outcome State Fault Refusal :=
  let m := s.stamp
  s.frameIn port (s.yoke.joined && (s.yoke.kids.look? port).isSome)
    (s.sendFrame port (s.yokeFrame 3 [t0.tick.toNat, t0.phase, m.tick.toNat, m.phase, m.tick.toNat, m.phase]))

/-! ### Calibration (R324) -/

/-- sc from stamp `a` to stamp `b` of one chip, over whole ticks of `p` sc. -/
def elapsed (p : Nat) (a b : Stamp) : Int := (b.tick - a.tick).toNat * p + b.phase - a.phase

/-- Brings twice a phase difference into one tick: -p to p (log 41). DEDUCED. -/
def wrapTwice (p : Nat) (x : Int) : Int := (x + p) % (2 * p) - p

/-- One exchange (R324): round trip, and twice the offset, differences of phases taken within one tick. -/
def exchangeOf (p : Nat) (t0 t1 t2 t3 : Stamp) : Exchange :=
  let a := elapsed p t0 t3
  let b := elapsed p t1 t2
  ⟨a - b, wrapTwice p (2 * t1.phase + b - 2 * t0.phase - a)⟩

/-- The exchange that calibration uses: the smallest round trip, the earliest of equals (R324). -/
def bestExchange : List Exchange → Exchange
  | [] => ⟨0, 0⟩
  | [x] => x
  | x :: r => let y := bestExchange r
              if x.rtt ≤ y.rtt then x else y

/-- θ of an exchange: halves toward 0 (R324). -/
def Exchange.theta (x : Exchange) : Int := x.twice.tdiv 2

/-- Number that the child's current tick has by the parent's count: the parent's tick whose start lies nearest to it
(R323, step 3; log 41). DEDUCED. -/
def parentCount (p : Nat) (x : Exchange) (t2 t3 : Stamp) : BitVec 48 :=
  let ahead : Int := 2 * t2.phase + x.rtt - 2 * t3.phase
  BitVec.ofInt 48 (t2.tick.toNat + (ahead + p) / (2 * p))

/-- CAL_RSP (R324): the exchange is recorded; with the sixteenth, calibration is done. -/
def execCalRsp (port : Fin 96) (t0 t1 t2 : Stamp) (s : State) : Host.Outcome State Fault Refusal :=
  match s.yoke.phase with
  | .joining n _ =>
    let x := exchangeOf s.period t0 t1 t2 s.stamp
    let l := s.yoke.exch ++ [x]
    let best := bestExchange l
    let y1 : Yoke := { s.yoke with exch := l, parentTick := some (parentCount s.period x t2 s.stamp) }
    let y2 : Yoke := { y1 with
      phase := .ready, theta := BitVec.ofInt 9 (max (-255) (min 255 best.theta)), delay := best.rtt.tdiv 2 }
    s.frameIn port (port.val == s.yoke.port && decide (s.yoke.exch.length < n))
      { s with yoke := if l.length = 16 then y2 else y1 }
  | _ => .next s

/-- Row 4 of a headland's start (R308, R323, R324): a calibrated chip adjusts the tick it is in. -/
def State.takeAdjustment (s : State) : State :=
  if s.yoke.phase = .ready then
    let th := (bestExchange s.yoke.exch).theta
    State.bumpChip { s with tcs := { s.tcs with
      len := (s.tcs.len - th).toNat
      theta := some th
      renum := s.yoke.parentTick.map (· + 1) } } 8 1
  else s

/-- The yoke at a tick edge (R323, R327): joins take effect, the master joins, what the tick heard is counted. A member
hears no report of the field's joined count: its COUNT is free (log 42). -/
def State.yokeEdge (s : State) : State :=
  let y := s.yoke
  let phase := if y.phase = .ready ∧ s.tcs.theta.isSome = true then JoinPhase.joined
    else if y.role = 2 ∧ y.phase = .none then .joined else y.phase
  let y1 : Yoke := { y with
    phase := phase
    recal := y.recal && phase != .joined
    parentTick := y.parentTick.map (· + 1)
    missed := if y.kidSeen then 0 else y.missed + 1
    seen := false
    kidSeen := false
    via := if y.kidSeen then y.via else none }
  let s1 : State := { s with yoke := y1 }
  if s1.isMaster then s1.recount
  else if y1.joined then
    let (w, s2) := s1.drawWord
    { s2 with yoke := { s2.yoke with count := w.toNat % 257 } }
  else s1

/-- What the yoke sends at a tick edge: the master TICK (R308, row 7), every other joined chip STATUS (R323), a member also to its
standby, which hears by it that the master is seen (R327; log 123). -/
def State.yokeSends (s : State) (seen : Bool) : State :=
  let s1 := if s.isMaster && s.yoke.joined then s.sendKids true (s.yokeFrame 4 [s.tcs.tick.toNat, s.now - s.tcs.start]) else s
  if s.yoke.joined && (!s.isMaster || s.secondMaster) && !(s.isMaster && s.yoke.parentTick.isNone) then
    let ws := s.yokeFrame 5 [s.joinedSum, b2n seen, s.yoke.hops]
    let sp := s.fm.active.chip.sparent
    let s2 := s1.sendFrame s.yoke.port ws
    if s.yoke.role == 1 && sp != s.yoke.port && s.hasPartner sp then s2.sendFrame sp ws else s2
  else s1

/-- TICK (R326): checked, and forwarded to the ports that joined here. -/
def execTick (port : Fin 96) (number : BitVec 48) (sendPhase : Nat) (s : State) : Host.Outcome State Fault Refusal :=
  let p := s.period
  let early : Int := (sendPhase + s.yoke.delay - s.stamp.phase + p / 2) % p - p / 2
  let s1 : State := { s with yoke := { s.yoke with seen := true } }
  let s2 : State :=
    if s.yoke.phase ≠ .joined then s1
    else if 2 < early then
      State.errlog { s1 with yoke := { s1.yoke with phase := .joining 0 s.now, recal := true, exch := [] } }
        { code := 0x810, arg := BitVec.ofInt 64 early }
    else if early < 0 then s1.bumpChip 9 1 else s1
  s.frameIn port (s.yoke.joined && port.val == s.yoke.port)
    (if s.isMaster then s2 else s2.sendKids true (s.yokeFrame 4 [number.toNat, s.stamp.phase]))

/-! ### Barriers (R328 to R330) -/

/-- The queues whose head command waits on barrier (f, b), with what each waits for. -/
def State.barrierQueues (s : State) (f b : Nat) : List Nat :=
  (s.hcf.queues.filter fun kv => match kv.2.head, kv.2.win.head? with
    | .yoke _, some c => fnOfQueue kv.1 == f && pf c.pkt 0 32 4 == b
    | .yokeNext, some c => fnOfQueue kv.1 == f && pf c.pkt 0 32 4 == b
    | _, _ => false).map (·.1)

/-- The barriers that have arrivals or waiting commands here. -/
def State.barriers (s : State) : List (Nat × Nat) :=
  let a := s.yoke.arrivals.map fun x => (x.fn, x.barrier)
  let c := s.hcf.queues.filterMap fun kv => match kv.2.head, kv.2.win.head? with
    | .yoke none, some d => some (fnOfQueue kv.1, pf d.pkt 0 32 4)
    | _, _ => none
  (a ++ c).dedup

/-- sc `off` of tick `t` has passed (R329, R331). -/
def State.tickPassed (s : State) (t : BitVec 48) (off : Nat) : Bool :=
  let d := (t - s.tcs.tick).toNat
  if d = 0 then decide (s.tcs.start + off < s.now) else decide (2 ^ 47 ≤ d)

/-- sc `off` of tick `t` has come. -/
def State.tickReached (s : State) (t : BitVec 48) (off : Nat) : Bool :=
  let d := (t - s.tcs.tick).toNat
  if d = 0 then decide (s.tcs.start + off ≤ s.now) else decide (2 ^ 47 ≤ d)

/-- The arrivals of barrier (f, b) are forgotten. -/
def State.dropArrivals (s : State) (f b : Nat) : State :=
  { s with yoke := { s.yoke with arrivals := s.yoke.arrivals.filter fun x => !(x.fn == f && x.barrier == b) } }

/-- An arrival from `port` (96: the chip itself) is noted; any chip but the acting master passes its subtree's arrivals up
(R329). -/
def State.noteArrival (s : State) (port f b chips n off : Nat) : State :=
  let keep := s.yoke.arrivals.filter fun x => !(x.fn == f && x.barrier == b && x.port == port)
  let s1 : State := { s with yoke := { s.yoke with arrivals := keep ++ [⟨port, f, b, chips, n, off⟩] } }
  let total := ((s1.yoke.arrivals.filter fun x => x.fn == f && x.barrier == b).map (·.arrivals)).sum
  if s.isMaster then s1 else s1.sendFrame s.yoke.port (s.yokeFrame 6 [f, b, chips, total])

/-- A command that waited for the end of an abandoned round arrives for the next (R329). -/
def State.arriveNext (s : State) (f b q : Nat) : State :=
  match (s.queue q).head, s.headPacket? q with
  | .yokeNext, some p =>
    (s.modQueue q fun r => { r with head := .yoke none }).noteArrival 96 f b (pf p 0 36 9) 1 (pf p 2 0 28)
  | _, _ => s

/-- A RELEASE takes effect on the chip's own commands: an abort code ends them, a release tick sets their time, or ends
them as late (R329, R330). A command that came after an abandoned one arrives now. -/
def State.released (s : State) (f b : Nat) (t : BitVec 48) (off abort : Nat) : State :=
  let s1 := (s.barrierQueues f b).foldl (fun u q => match (u.queue q).head with
    | .yoke none =>
      if abort ≠ 0 then u.retire q abort 0
      else if u.tickPassed t off then u.retire q 0x56 0
      else u.modQueue q fun r => { r with head := .yoke (some (t, off)) }
    | _ => u) (s.dropArrivals f b)
  (s1.barrierQueues f b).foldl (fun u q => u.arriveNext f b q) s1

/-- The acting master releases or aborts barrier (f, b) (R329, R330). -/
def State.releaseAll (s : State) (f b : Nat) (t : BitVec 48) (off abort : Nat) : State :=
  (s.sendKids false (s.yokeFrame 7 [f, b, t.toNat, off, abort])).released f b t off abort

/-- The acting master aborts every pending barrier that `p` picks (R330). -/
def State.abortBarriers (s : State) (p : Nat × Nat → Bool) (code : Nat) : State :=
  if s.isMaster && s.yoke.joined then (s.barriers.filter p).foldl (fun t x => t.releaseAll x.1 x.2 0 0 code) s else s

/-- An arrival from `port` (96: the chip itself) joins those of its barrier: the acting master releases when all have
come, or aborts on a different CHIPS, or when a subtree takes an arrival back (R330; log 50); any other chip passes its
subtree's arrivals up (R329). -/
def State.arriveAt (s : State) (port f b chips n off : Nat) : State :=
  let old := s.yoke.arrivals.filter fun x => x.fn == f && x.barrier == b
  let s1 := s.noteArrival port f b chips n off
  let mine := s1.yoke.arrivals.filter fun x => x.fn == f && x.barrier == b
  let total := (mine.map (·.arrivals)).sum
  if s.isMaster then
    if old.any fun x => x.chips != chips then s1.releaseAll f b 0 0 0x51
    else if old.any fun x => x.port == port && n < x.arrivals then s1.releaseAll f b 0 0 0x52
    else if chips ≤ total then
      s1.releaseAll f b (s.tcs.tick + 2) ((mine.map (·.reloff)).foldl max 0) 0
    else s1
  else s1

/-- The arrival of an abandoned command of barrier (f, b) stands: its round is not over (R329). -/
def State.abandonedRound (s : State) (f b : Nat) : Bool :=
  s.yoke.arrivals.any fun x => x.port == 96 && x.fn == f && x.barrier == b

/-- YOKE_BARRIER (R328, R329). An arrival for which no command waits any more is an abandoned one's; the RELEASE of its round
concerns no later command. -/
def execYokeBarrier (q : Fin 16384) (s : State) : Host.Outcome State Fault Refusal :=
  s.command q (fun p => opcode p == 0x50) fun p t =>
    let f := fnOfQueue q
    let b := pf p 0 32 4
    let chips := pf p 0 36 9
    let off := pf p 2 0 28
    let none' := t.fm.active.chip.role = 0
    if none' ∧ chips ≠ 1 then t.retire q 0x50 0
    else if ¬ none' ∧ t.yoke.joined = false then t.retire q 0x50 0
    else if ¬ none' ∧ chips ≠ t.yoke.count then t.retire q 0x51 0
    else if !(t.barrierQueues f b).isEmpty then t.retire q 0x54 0
    else if none' then t.stall q 12 (.yoke (some (t.tcs.tick + 1, off)))
    else if t.abandonedRound f b then t.stall q 12 .yokeNext
    else (t.stall q 12 (.yoke none)).arriveAt 96 f b chips 1 off

/-- Function `f` is in reset on a chip of the field: the acting master aborts its barriers; any other chip tells it by an
ARRIVE with no arrival. No frame of R322 is named for it: DESIGN CHOICE (log 50). -/
def State.barrierReset (s : State) (f : Nat) : State :=
  if s.isMaster then s.abortBarriers (fun x => x.1 == f) 0x52
  else if s.yoke.joined then s.sendFrame s.yoke.port (s.yokeFrame 6 [f, 0, 0, 0])
  else s

/-- ARRIVE (R329); one with no arrival tells of a function reset (R330; log 50). -/
def execArrive (port : Fin 96) (fn : Fin 256) (barrier : BitVec 4) (chips arrivals : Nat) (s : State) :
    Host.Outcome State Fault Refusal :=
  s.frameIn port (s.yoke.joined && (s.yoke.kids.look? port).isSome && !s.mirrorKid port)
    (if arrivals = 0 then s.barrierReset fn else s.arriveAt port fn barrier.toNat chips arrivals 0)

/-- RELEASE (R329, R330). -/
def execRelease (port : Fin 96) (fn : Fin 256) (barrier : BitVec 4) (relTick : BitVec 48) (reloff : Nat) (abort : BitVec 8)
    (s : State) : Host.Outcome State Fault Refusal :=
  s.frameIn port (s.yoke.joined && !s.isMaster && port.val == s.yoke.port)
    ((s.sendKids false (s.yokeFrame 7 [fn, barrier.toNat, relTick.toNat, reloff, abort.toNat])).released fn
      barrier.toNat relTick reloff abort.toNat)

/-- Function `n`'s barriers end with its function reset, whether or not this chip has arrived (R330, R414): its arrivals here are
forgotten, and the acting master aborts them everywhere. The queues are already halted. -/
def State.leaveBarriers (s : State) (n : Nat) : State :=
  let s1 := s.barrierReset n
  { s1 with yoke := { s1.yoke with arrivals := s1.yoke.arrivals.filter fun x => !(x.port == 96 && x.fn == n) } }

/-- BARRIER_RETIRE (R329). -/
def execBarrierRetire (q : Fin 16384) (s : State) : Host.Outcome State Fault Refusal :=
  match (s.queue q).head with
  | .yoke (some (t, off)) => s.when (s.tickReached t off) (s.retire q 0 0)
  | _ => .next s

/-! ### STATUS, departures and promotion (R323, R327) -/

/-- STATUS (R323, R327): the port's report; a subtree that shrinks has lost a chip, and aborts what is pending (R330). The standby
also hears from a chip that has not joined through it whether the master is seen (log 123). -/
def execStatus (port : Fin 96) (joined : Nat) (masterSeen : Bool) (_hops : Nat) (s : State) :
    Host.Outcome State Fault Refusal :=
  match s.yoke.kids.look? port with
  | none => s.frameIn port (s.yoke.role == 3 && masterSeen) { s with yoke := { s.yoke with kidSeen := true, via := some port.val } }
  | some old =>
    let s1 : State := State.recount { s with yoke := { s.yoke with
      kids := s.yoke.kids.ins port joined, kidSeen := s.yoke.kidSeen || masterSeen
      via := if masterSeen then some port.val else s.yoke.via } }
    s.frameIn port true (if joined < old ∧ s.mirrorKid port = false then s1.abortBarriers (fun _ => true) 0x52 else s1)

/-- JOIN (R321, R323): accepted, or refused with YOKE_CONFIG or YOKE_DEPTH, and then the port is no child's any more; a chip that
joins anew had left the yoke, which aborts what is pending (R330). -/
def execJoin (port : Fin 96) (frame : JoinFrame) (s : State) : Host.Outcome State Fault Refusal :=
  let hops := if s.mirrorKid port then 0 else max frame.hops (s.yoke.hops + 1)
  let left := match s.yoke.kids.look? port with | some n => decide (0 < n) && !s.mirrorKid port | none => false
  let u := if left then s.abortBarriers (fun _ => true) 0x52 else s
  let out : State := State.recount { u with yoke := { u.yoke with kids := u.yoke.kids.del port } }
  s.frameIn port s.yoke.joined
    (if !s.joinAgrees port frame then out.errlog { code := 0x80E, arg := BitVec.ofNat 64 port }
     else if 2 < hops then out.errlog { code := 0x80F, arg := BitVec.ofNat 64 hops }
     else (State.recount { u with yoke := { u.yoke with kids := u.yoke.kids.ins port 0 } }))

/-- What a partner's departure from `p` does to the yoke (R327, R330, R333). -/
def State.yokeDeparts (s : State) (p : Nat) : State :=
  let lost := (s.yoke.kids.look? p).isSome && !s.mirrorKid p
  let s1 : State := State.recount { s with yoke := { s.yoke with kids := s.yoke.kids.del p } }
  let s2 := if lost then s1.abortBarriers (fun _ => true) 0x52 else s1
  if s2.yoke.phase = .none ∨ p ≠ s2.yoke.port then s2
  else if s2.secondMaster then
    { s2 with yoke := { s2.yoke with phase := .joined, recal := false, parentTick := none, exch := [] } }
  else if s2.isMaster ∨ (s2.yoke.role = 3 ∧ s2.fm.active.chip.role = 3 ∧ s2.yoke.joined = true) then s2
  else { s2 with yoke := { s2.yoke with phase := .none, recal := false, parentTick := none, exch := [], arrivals := [] } }

/-- A master that finds another acting master of its field has returned: it acts as standby (R327). -/
def State.masterReturns (s : State) (p : Nat) (h : HelloFrame) : State :=
  let c := s.fm.active.chip
  if s.isMaster && !s.yoke.promoted && h.role == 2 && h.field.toNat == c.field then
    State.errlog { s with yoke := { Yoke.reset with role := 3, port := p } } { code := 0x811, detail := 3 }
  else s

/-- YOKE_PROMOTE (R327, R330): the standby is the acting master from now on. -/
def execYokePromote (s : State) : Host.Outcome State Fault Refusal :=
  let c := s.fm.active.chip
  let s1 : State := { s with yoke := { s.yoke with
    role := 2, promoted := true, phase := .joined, recal := false, hops := 0, port := 0, parentTick := none } }
  s.when (s.yoke.role == 3 && c.role == 3 && !s.hasPartner c.parent && decide (2 ≤ s.yoke.missed))
    (((s1.recount).errlog { code := 0x811, detail := 2 }).abortBarriers (fun _ => true) 0x53)

/-! ### Mirrored pairs (R333, R334) -/

/-- Function of a cyclic entry of the active map. -/
def State.entryFn (s : State) (i : Nat) : Nat := cyFn (s.fm.active.cyc.getD i 0)
/-- Plot of a cyclic entry of the active map. -/
def State.entryPlot (s : State) (i : Nat) : Nat := cyPlot (s.fm.active.cyc.getD i 0)

/-- MIRROR_MISSING (R334): `why` as R399 numbers it. -/
def State.mirrorMissing (s : State) (x : Compare) (why : Nat) : State :=
  s.report x.fn { code := 0x309, plot := some x.plot, index := x.entry, detail := why }

/-- The twin's result meets the chip's own (R334). -/
def State.compare (s : State) (a b : Compare) : State :=
  if a.status = 0 ∧ b.status = 0 ∧ a.digest = b.digest then s.bumpChip 10 1
  else s.reportPair a.fn
    { code := 0x308, plot := some a.plot, index := a.entry, detail := a.status.toNat, arg := a.digest }
    { code := 0x308, plot := some a.plot, index := a.entry + 4096, detail := b.status.toNat, arg := b.digest }

/-- Two results have one key: entry and firing tick. -/
def Compare.meets (a b : Compare) : Bool := a.entry == b.entry && a.tick == b.tick

/-- The chip's own result is sent and held, or meets a twin's frame that came first; a full table loses its oldest entry
(R334). -/
def State.holdResult (s : State) (x : Compare) : State :=
  if !s.fm.active.chip.mirrorV then s
  else
    let s1 := s.sendFrame s.fm.active.chip.mirrorPort
      (s.yokeFrame 8 [x.entry, x.tick.toNat, x.status.toNat, x.digest.toNat])
    match s1.tcs.twins.find? x.meets with
    | some b => State.compare { s1 with tcs := { s1.tcs with twins := s1.tcs.twins.erase b } } x b
    | none =>
      match s1.tcs.mine with
      | old :: r =>
        if s1.tcs.mine.length < 256 then { s1 with tcs := { s1.tcs with mine := s1.tcs.mine ++ [x] } }
        else State.mirrorMissing { s1 with tcs := { s1.tcs with mine := r ++ [x] } } old 3
      | [] => { s1 with tcs := { s1.tcs with mine := [x] } }

/-- DIGEST (R334). -/
def execDigest (entry : Fin 4096) (firing : BitVec 48) (endStatus : BitVec 16) (value : W64) (s : State) :
    Host.Outcome State Fault Refusal :=
  let b : Compare := ⟨entry, firing, endStatus, value, s.entryFn entry, s.entryPlot entry, s.now⟩
  s.when (s.fm.active.chip.mirrorV && s.pins.lsUp.getLsbD s.fm.active.chip.mirrorPort)
    (match s.tcs.mine.find? b.meets with
     | some a => State.compare { s with tcs := { s.tcs with mine := s.tcs.mine.erase a } } a b
     | none => { s with tcs := { s.tcs with twins := s.tcs.twins ++ [b] } })

/-- MIRROR_MISSING (R334): no twin frame, or no local entry, within 2 ticks. -/
def execMirrorMissing (s : State) : Host.Outcome State Fault Refusal :=
  let old (x : Compare) : Bool := s.since x.at' (2 * s.period)
  match s.tcs.mine.find? old, s.tcs.twins.find? old with
  | some x, _ => s.when true (State.mirrorMissing { s with tcs := { s.tcs with mine := s.tcs.mine.erase x } } x 1)
  | none, some x => s.when true (State.mirrorMissing { s with tcs := { s.tcs with twins := s.tcs.twins.erase x } } x 2)
  | none, none => .next s

/-! ### Start-up steps that the field decides (R445 to R447) -/

/-- Every port that the active map names for the yoke has a partner (R445, step 6). SPARENT is unused for STANDBY, PARENT
for a master but the second of a mirrored pair, which uses MIRROR_PORT (R320). -/
def State.discovered (s : State) : Bool :=
  let c := s.fm.active.chip
  let ports := (if c.role = 1 ∨ c.role = 3 then [c.parent] else [])
    ++ (if c.role = 1 ∨ c.role = 2 then [c.sparent] else []) ++ (if c.mirrorV then [c.mirrorPort] else [])
  ports.all s.hasPartner

/-- Steps 6 and 7 pass as soon as they may, at once with ROLE NONE (R445). -/
def State.suAdvance (s : State) : State :=
  let none' := s.fm.active.chip.role == 0
  let s1 := if s.su.step = 6 ∧ (none' || s.discovered) = true then s.suPass 6 else s
  if s1.su.step = 7 ∧ (none' || s1.yoke.phase == .joined) = true then s1.suPass 7 else s1

/-- Step 5 at a tick edge: the map that start-up had pending is in force, or the SWAP failed (R395, R454). -/
def State.suSwapped (s : State) : State :=
  if s.su.step = 5 ∧ s.su.released = false then
    if s.fm.err = 0 then (s.suPass 5).suAdvance
    else s.suStop 0x0A (s.fm.err.toNat + s.fm.erridx.toNat * 32)
  else s

end Sys2Proof.Machine
end

