-- ==== Sys2Proof/Machine/Sowings.lean ====
section
/-! DEFINITION. The end of a sowing (R104, R113 to R116, R213 to R218): ENDING, RETIRED, the end action, fences that
watch it, signal writes. -/
namespace Sys2Proof.Machine

/-! ### ENDING and RETIRED (R104, R113, R114) -/

/-- Engine `e` has a descriptor or a task of sowing `k`. -/
def State.engineHas (s : State) (e k : Nat) : Bool :=
  let r := s.engine e
  let front := match r.front with
    | .empty => false
    | .committed t _ => t.sow == k && !t.test
    | .driven t _ => t.sow == k && !t.test
    | .running t _ => t.sow == k && !t.test
  front || (r.back.st != .empty && r.back.task.sow == k) || r.started.any fun x => x.2.sow == k && !x.2.test

/-- Nothing of sowing `k` runs, is held, in flight or saved (R113). -/
def State.idleSowing (s : State) (k : Nat) : Bool :=
  engineIds.all (fun e => !s.engineHas e k)
    && s.pru.plots.all fun kv => kv.2.saved.all fun x => x.task.sow != k || x.begun

/-- Every node of sowing `w` has retired, or has been abandoned (R113, R115). -/
def State.nodesOver (s : State) (w : Sowing) : Bool :=
  match w.st with
  | .active => (match s.graph? w.graph with | some g => decide (g.n ≤ w.retired) | none => true)
  | .failing => w.rootsDone
  | _ => false

/-- SOWING_ENDING (R104, R113): the sowing is ENDING; a step leaves the composer's queue. -/
def execSowingEnding (fn : Fin 256) (id : BitVec 32) (s : State) : Host.Outcome State Fault Refusal :=
  let k := sowKey fn id
  match s.sowing? k with
  | none => .next s
  | some w =>
    let s1 := s.setSowing k { w with st := .ending, endedAt := s.now }
    s.when (s.nodesOver w && s.idleSowing k)
      { s1 with stu := { s1.stu with queue := s1.stu.queue.filter (· != k) } }

/-- The commit of a step is over; any other sowing has none (R104). -/
def Sowing.committed (w : Sowing) : Bool :=
  match w.step with
  | some x => x.phase == .done
  | none => true

/-- DIGEST as the end record and a twin's frame carry it: 0 unless the status is OK (R116, R217). -/
def Sowing.endDigest (w : Sowing) : W64 := if w.code = 0 then w.digest else 0

/-- SOWING_RETIRE (R104, R111, R114): the bank capture goes, the shadow becomes warm, whatever waited goes on; a result
to be compared is sent and held (R334). -/
def execSowingRetire (fn : Fin 256) (id : BitVec 32) (s : State) : Host.Outcome State Fault Refusal :=
  let k := sowKey fn id
  match s.sowing? k with
  | none => .next s
  | some w =>
    let n := match s.graph? w.graph with | some g => g.n | none => 0
    let w1 : Sowing := { w with st := .retired, retOrd := s.sow.ordinal, never := n - w.done - w.lost, ctr := [] }
    let s1 := s.setSowing k w1
    let s2 : State := { s1 with sow := { s1.sow with ordinal := s1.sow.ordinal + 1 } }
    let s3 := s2.modGraph w.graph fun g => { g with warm := g.warm ++ [⟨w.blocks, true, s.now⟩] }
    let s4 := if w.code = 0 then s3.bumpPlot w.plot 1 1 else s3
    let s5 := s4.capture ⟨0x0B, some w.fn, some w.plot, none, some w.id, none, w.code.toNat, w1.endDigest⟩
    let s6 := match w.cyc with
      | some c => if c.cmp then s5.holdResult ⟨c.entry, c.tick, w.code, w1.endDigest, w.fn, w.plot, s.now⟩ else s5
      | none => s5
    s.when (w.st == .ending && s.since w.endedAt 1 && w.committed) (s6.drained w.graph)

/-! ### The end action (R213 to R218) -/

/-- The sowings that a FENCE PRIOR of queue `q` waits for (R213). -/
def State.fencedPrior (s : State) (q : Nat) : Bool := s.sow.live.any fun kv => kv.2.queue == q && kv.2.cyc.isNone

/-- FENCE PRIOR of queue `q` retires: VALUE names the earliest failed sowing since the last (R213). -/
def State.fencePrior (s : State) (q : Nat) : State :=
  let v : W64 := match (s.queue q).failed with | some (_, c) => c.zeroExtend 64 | none => 0
  (s.modQueue q fun r => { r with failed := none }).retire q 0 v

/-- The end action of sowing `k` is complete: the HGS keeps nothing of it, and the FENCEs that waited go on (R104, R213). -/
def State.endComplete (s : State) (k : Nat) : State :=
  match s.sowing? k with
  | none => s
  | some w =>
    let s1 : State := { s with sow := { s.sow with live := s.sow.live.del k } }
    let s2 := if w.code = 0 ∨ w.cyc.isSome = true then s1
      else s1.modQueue w.queue fun r => { r with failed := match r.failed with
        | some (o, c) => if o < w.ordinal then some (o, c) else some (w.ordinal, w.code)
        | none => some (w.ordinal, w.code) }
    s2.hcf.queues.foldl (fun t kv => match (t.queue kv.1).head with
      | .fence (some j) => if j = k then t.retire kv.1 0 (w.code.zeroExtend 64) else t
      | .fence none => if kv.1 = w.queue ∧ t.fencedPrior kv.1 = false then t.fencePrior kv.1 else t
      | _ => t) s2

/-- A transfer of step 1 of the end action of sowing `k` is not settled, or waits for an earlier one (R189). -/
def State.endWriting (s : State) (k : Nat) : Bool :=
  ((s.mesh.out ++ s.mesh.waiting).any fun x => match x.purpose with
    | .endWrite j => j == k
    | .layerRead j _ _ => j == k
    | .layerWrite j _ => j == k
    | _ => false)
  || (match s.sowing? k with | some w => !w.layerWait.isEmpty | none => false)

/-- The semaphore signal of an end action (R228, R232, R238): any status but OK goes to the fault queue. -/
def State.endSemaphore (s : State) (w : Sowing) : State :=
  let fail (t : State) (c : Nat) : State :=
    t.report w.fn { code := 0x200 + c, plot := some w.plot, sow := some w.id, queue := some w.queue }
  if !w.act.semv then s
  else
    let c := s.semCheck w.fn w.queue w.act.sem w.act.semop
    if c ≠ 0 then fail s c
    else match s.semOp w.act.sem w.act.semop w.act.semval 0 with
      | (.ends _ st, t) => if st = 0 then t else fail t st
      | (.waits, t) => t

/-- The signal write of an end action (R216, R218). -/
def State.endSignal (s : State) (k : Nat) (w : Sowing) : State :=
  let n := if w.act.sig4 then 4 else 8
  match s.translate w.fn w.act.sigaddr n .write (some w.plot) false with
  | .ok a =>
    (s.modSowing k fun x => { x with phase := .signalling }).issue
      (Xfer.make (.endSignal k) w.fn 3 true a n [w.act.sigval]
        (some ⟨w.act.sigaddr, .write, some w.plot, false⟩) none)
  | .fault => (s.report w.fn (transferReport stSegFault 4 (some w.queue) (some w.id))).endComplete k
  | .stale => (s.report w.fn (transferReport stSegStale 4 (some w.queue) (some w.id))).endComplete k

/-- The end action of sowing `k` goes on once every write of step 1 is settled (R214). -/
def State.endContinue (s : State) (k : Nat) : State :=
  match s.sowing? k with
  | none => s
  | some w => match w.phase with
    | .writes =>
      if s.endWriting k then s
      else
        let s1 := (s.modSowing k fun x => { x with phase := .signalling }).endSemaphore w
        if w.act.sigv then s1.endSignal k w else s1.endComplete k
    | _ => s

/-- The end record (R217). -/
def Sowing.endRecord (w : Sowing) : Words :=
  [pack [(0, 32, w.id.toNat), (32, 16, w.graph), (48, 16, w.code.toNat)], pack [(0, 32, w.done), (32, 32, w.lost)],
    pack [(0, 32, w.never), (32, 1, b2n w.bankB), (33, 6, w.plot)], w.endDigest]

/-- Writes the end record (R214, R216). -/
def State.writeEndRecord (s : State) (k : Nat) (w : Sowing) : State :=
  if !w.act.erv then s
  else match s.translate w.fn w.act.eraddr 32 .write (some w.plot) true with
    | .ok a => s.issue (Xfer.make (.endWrite k) w.fn 3 true a 32 w.endRecord
        (some ⟨w.act.eraddr, .write, some w.plot, true⟩) none)
    | .fault => s.endFault k w stSegFault
    | .stale => s.endFault k w stSegStale

/-- Step 1 of the end action: the remaining partial sums and the end record (R189, R214). -/
def State.endBegin (s : State) (k : Nat) (w : Sowing) : State :=
  let s1 := s.setSowing k { w with phase := .writes }
  let s2 := w.layers.foldl (fun t l => match t.sowing? k with
    | some x => t.evictLayer k x l.1
    | none => t) s1
  (s2.writeEndRecord k w).endContinue k

/-- No sowing that retired earlier has an end action that stands before `w`'s: none waits, and none of its function is
incomplete (R214; log 45). DEDUCED. -/
def State.endTurn (s : State) (w : Sowing) : Bool :=
  s.sow.live.all fun kv => !(kv.2.st == .retired && decide (kv.2.retOrd < w.retOrd)
    && (kv.2.phase == .waiting || kv.2.fn == w.fn))

/-- END_ACTION (R214 to R217). -/
def execEndAction (fn : Fin 256) (id : BitVec 32) (s : State) : Host.Outcome State Fault Refusal :=
  let k := sowKey fn id
  match s.sowing? k with
  | none => .next s
  | some w => s.when (w.st == .retired && w.phase == .waiting && s.endTurn w) (s.endBegin k w)

/-- A write of step 1 has been acknowledged, or has failed finally with `status` (R216). -/
def State.endWritten (s : State) (k : Nat) (failed : Option Nat) : State :=
  match s.sowing? k, failed with
  | some w, some st => (s.endFault k w st).endContinue k
  | _, _ => s.endContinue k

/-- The signal write of an end action is over (R214, R216). -/
def State.endSignalled (s : State) (k : Nat) (failed : Option Nat) : State :=
  match s.sowing? k, failed with
  | some w, some st => (s.report w.fn (transferReport st 4 (some w.queue) (some w.id))).endComplete k
  | _, _ => s.endComplete k

/-! ### SIGNAL_WRITE (R51, R204, R218) -/

/-- SIGNAL_WRITE: it stalls while the function may not master. -/
def execSignalWrite (q : Fin 16384) (s : State) : Host.Outcome State Fault Refusal :=
  s.command q (fun p => opcode p == 0x19) fun p t =>
    let n := if pf p 0 32 1 = 1 then 4 else 8
    if !t.pins.bme.getLsbD (fnOfQueue q) then t.stall q 1 .none
    else match t.translate (fnOfQueue q) (pw p 2) n .write (some (t.queue q).plot) false with
      | .ok a => (t.modQueue q fun r => { r with head := .signal }).issue
          (Xfer.make (.signal q) (fnOfQueue q) 3 true a n [pw p 3]
            (some ⟨pw p 2, .write, some (t.queue q).plot, false⟩) none)
      | .fault => t.retire q stSegFault 0
      | .stale => t.retire q stSegStale 0

end Sys2Proof.Machine
end

