-- ==== Sys2Proof/Machine/Tick.lean ====
section
/-! DEFINITION. The tick and the cyclic table (R305 to R318, R331): headlands, edges, cyclic entries, deadlines, tick
waits; the harvest latch of an edge (R440 to R443). -/
namespace Sys2Proof.Machine

/-! ### Deadlines (R314) -/

/-- Cyclic sowing `k` has missed its deadline: TICK_OVERRUN once, and FAILING under OVERRUN_FAIL, whose single report
that record is (R314). -/
def State.overrun (s : State) (k : Nat) : State :=
  match s.sowing? k with
  | none => s
  | some w => match w.cyc with
    | none => s
    | some c =>
      let s1 := ((s.setSowing k { w with cyc := some { c with reported := true } }).bumpPlot w.plot 14 1).report w.fn
        { code := 0x307, plot := some w.plot, sow := some w.id, queue := some w.queue, index := c.entry }
      if (s.plotCfg w.plot).overrunFail then s1.failSowing k { code := 0x307, silent := true } else s1

/-- Sowing `w` is cyclic, has not entered RETIRED and has not been reported. -/
def Sowing.owesDeadline (w : Sowing) : Option CycInfo :=
  if w.st = .retired then none else w.cyc.filter fun c => !c.reported

/-- TICK_OVERRUN (R314): a deadline given by BUDGET has come. -/
def execTickOverrun (fn : Fin 256) (id : BitVec 32) (s : State) : Host.Outcome State Fault Refusal :=
  let k := sowKey fn id
  match (s.sowing? k).bind Sowing.owesDeadline with
  | none => .next s
  | some c => match c.deadline with
    | none => .next s
    | some t => s.when (decide (t ≤ s.now)) (s.overrun k)

/-- HEADLAND_START (R308): the walk's snapshot, deadlines of BUDGET 0, the stop of BE starts, yoke adjustments. -/
def execHeadlandStart (s : State) : Host.Outcome State Fault Refusal :=
  let s1 : State := { s with sm := { s.sm with snapshot := some s.findCircles, snapAt := s.now } }
  let due := (s.sow.live.filter fun kv => match kv.2.owesDeadline with
    | some c => c.deadline.isNone
    | none => false).map (·.1)
  let s2 := due.foldl State.overrun s1
  let s3 : State := { s2 with tcs := { s2.tcs with inHead := true } }
  s.when (s.su.alignDone && !s.tcs.inHead && decide (s.tcs.edge ≤ s.now + s.tcs.head)) s3.takeAdjustment

/-! ### Cyclic entries (R301, R312, R313) -/

/-- Entry `i` of the cyclic table in force. -/
def State.cyclicEntry (s : State) (i : Nat) : BitVec 256 := s.fm.active.cyc.getD i 0

/-- A reclaim takes engines from plot `p`, or `p` is being preempted or is preempted (R350, R359). -/
def State.plotStopped (s : State) (p : Nat) : Bool :=
  (s.plot p).st != .running || engineIds.any fun e =>
    (s.engine e).lent && (s.engine e).moving.isSome && (s.engCfg e).lend == p

/-- Reasons QUEUE, PLOT and PREEMPT of R313, in that order; 0 for none. -/
def State.skipReason (s : State) (q p : Nat) : Nat :=
  let r := s.queue q
  if r.st = .disabled ∨ r.st = .halted then 4
  else if r.plot ≠ p then 5
  else if s.plotStopped p then 6
  else 0

/-- What a cyclic sowing carries: entry, deadline, firing tick, CMP (R314, R334). -/
def State.cycInfo (s : State) (i : Nat) (r : BitVec 256) : CycInfo :=
  ⟨i, if cyBudget r = 0 then none else some (s.tcs.start + cyOffset r + cyBudget r), s.tcs.tick, cyCmp r, false⟩

/-- CYCLIC_SKIP (R313, R439). -/
def State.cyclicSkip (s : State) (i q p reason : Nat) : State :=
  (s.report (fnOfQueue q) { code := 0x306, plot := some p, queue := some q, index := i, detail := reason }).bumpPlot p 13 1

/-- STEP_OVERRUN (R301, R313, R439). -/
def State.stepOverrun (s : State) (i q p m reason : Nat) : State :=
  (s.report (fnOfQueue q) { code := 0x303, plot := some p, queue := some q, index := i, detail := reason, arg := BitVec.ofNat 64 m }).bumpPlot p 13 1

/-- The reason of a launch that its graph's order alone holds back: R313 lists none for it, so its value is free
(log 46). -/
def State.freeReason (s : State) : Nat × State :=
  let (w, t) := s.drawWord
  (w.toNat % 65536, t)

/-- End action of a cyclic LAUNCH: only the semaphore ADD (R312). -/
def cyclicAct (r : BitVec 256) : EndAct :=
  { EndAct.nil with semv := cySemv r, sem := cySem r, semop := 2, semval := cySemval r }

/-- A LAUNCH entry fires (R312, R313). -/
def State.fireLaunch (s : State) (i : Nat) (r : BitVec 256) : State :=
  let q := cyFn r * 64 + cyLq r
  let p := cyPlot r
  let h := cyTarget r
  let why := s.skipReason q p
  if why ≠ 0 then s.cyclicSkip i q p why
  else if (cySemv r && !s.declared q (cySem r)) || s.launchCheck q h ≠ 0 then s.cyclicSkip i q p 1
  else match s.graph? h with
    | none => s.cyclicSkip i q p 1
    | some g => match s.launchHold q h g false with
      | .limit => s.cyclicSkip i q p 2
      | .shadow => s.cyclicSkip i q p 2
      | .ids => s.cyclicSkip i q p 7
      | .order => let (d, t) := s.freeReason
                  t.cyclicSkip i q p d
      | .none => (s.proceed q h g ⟨cyclicAct r, some (s.cycInfo i r), none, false⟩).2.bumpPlot p 12 1

/-- The queue a STEP entry is attributed to: STEPQ of its model; the entry's own where the function owns no such model
(R301, R309). -/
def State.stepQueue (s : State) (r : BitVec 256) : Nat :=
  match s.model? (cyFn r) (cyTarget r % 1024) with
  | some x => cyFn r * 64 + x.stepq
  | none => cyFn r * 64 + cyLq r

/-- A STEP entry fires (R301, R313). -/
def State.fireStep (s : State) (i : Nat) (r : BitVec 256) : State :=
  let n := cyFn r
  let m := cyTarget r % 1024
  let q := s.stepQueue r
  let p := cyPlot r
  let why := s.skipReason q p
  if why ≠ 0 then s.stepOverrun i q p m why
  else match s.model? n m with
    | none => s.stepOverrun i q p m 1
    | some x =>
      if !s.hasActive m then s.bumpPlot p 15 1
      else if (x.semv && !s.declared q x.sem) || s.launchCheck q x.handle ≠ 0 then s.stepOverrun i q p m 1
      else match s.graph? x.handle with
        | none => s.stepOverrun i q p m 1
        | some g => match s.launchHold q x.handle g false, s.bufFree n m x with
          | .limit, _ => s.stepOverrun i q p m 2
          | .shadow, _ => s.stepOverrun i q p m 2
          | _, false => s.stepOverrun i q p m 3
          | .ids, true => s.stepOverrun i q p m 7
          | .order, true => let (d, t) := s.freeReason
                            t.stepOverrun i q p m d
          | .none, true => (s.proceedStep q m x g (some (s.cycInfo i r)) false).2.bumpPlot p 12 1

/-- A SEM entry fires (R312): an ADD attributed to the entry's queue. -/
def State.fireSem (s : State) (i : Nat) (r : BitVec 256) : State :=
  let q := cyFn r * 64 + cyLq r
  let p := cyPlot r
  let why := s.skipReason q p
  let fail (t : State) (c : Nat) : State :=
    t.report (cyFn r) { code := 0x200 + c, plot := some p, queue := some q, index := i }
  if why ≠ 0 then s.cyclicSkip i q p why
  else
    let c := s.semCheck (cyFn r) q (cySem r) 2
    if c ≠ 0 then fail s c
    else match s.semOp (cySem r) 2 (cySemval r) 0 with
      | (.ends _ 0, t) => t.bumpPlot p 12 1
      | (.ends _ st, t) => fail t st
      | (.waits, t) => t

/-- Entry `i` fires, unless its function is in reset (R313). -/
def State.fire (s : State) (i : Nat) : State :=
  let r := s.cyclicEntry i
  let s1 : State := { s with tcs := { s.tcs with fired := s.tcs.fired ++ [i] } }
  if s.inReset (cyFn r) then s1
  else match cyKind r with
    | 1 => s1.fireLaunch i r
    | 2 => s1.fireStep i r
    | 3 => s1.fireSem i r
    | _ => s1

/-- Entry `i` is of kind `k`, belongs to this tick and has not fired in it; its offset has come, and is not 0, which the
tick edge itself serves (R308, R312). -/
def State.fireable (s : State) (i k : Nat) : Bool :=
  let r := s.cyclicEntry i
  cyKind r == k && cyTick r == s.tcs.tick.toNat % s.fm.active.chip.cycleTicks && !s.tcs.fired.contains i
    && decide (0 < cyOffset r) && decide (s.tcs.start + cyOffset r ≤ s.now) && s.su.alignDone

/-- CYCLIC_LAUNCH (R312). -/
def execCyclicLaunch (entry : Fin 4096) (s : State) : Host.Outcome State Fault Refusal :=
  s.when (s.fireable entry 1) (s.fire entry)
/-- CYCLIC_STEP (R301, R312). -/
def execCyclicStep (entry : Fin 4096) (s : State) : Host.Outcome State Fault Refusal :=
  s.when (s.fireable entry 2) (s.fire entry)
/-- CYCLIC_SEM (R312). -/
def execCyclicSem (entry : Fin 4096) (s : State) : Host.Outcome State Fault Refusal :=
  s.when (s.fireable entry 3) (s.fire entry)

/-! ### The harvest latch (R440 to R444) -/

/-- The waiting HARVEST commands end with a status and VALUE. -/
def State.endHarvests (s : State) (status : Nat) (v : W64) : State :=
  s.hv.want.foldl (fun t q => t.retire q status v) { s with hv := { s.hv with want := [] } }

/-- Row 5 of a tick edge that begins tick `n` (R440 to R443): the shadows take the counters as the last sc left them, and the
HARVEST commands of earlier scs are served. -/
def State.harvestEdge (s : State) (n : BitVec 48) : State :=
  let h := s.hv
  let periodic := decide (h.period ≠ 0) && decide (n ≠ 0) && decide (n.toNat % h.period.toNat = 0)
  if h.want.isEmpty && !periodic then s
  else if h.held && !h.overwrite then
    (State.endHarvests { s with hv := { h with skipped := if periodic then h.skipped.add (satAdd 16) 1 s.now else h.skipped } } 0x19 0)
  else
    let s1 : State := { s with hv := { h with
      shadow := h.before, seq := h.seq + 1, held := true, overwritten := if h.held then some s.now else h.overwritten
      damaged := h.damageWas, damageWas := false, tick := n } }
    (s1.capture ⟨0x0E, none, none, none, none, none, 0, s1.hv.seq.zeroExtend 64⟩).endHarvests 0 (s1.hv.seq.zeroExtend 64)

/-! ### The tick edge (R307, R308) -/

/-- The BE tasks of deterministic plots that still run at the edge are counted and reported (R316). -/
def State.beOverruns (s : State) : State :=
  engineIds.foldl (fun t e => match (s.engine e).front with
    | .running x _ => (match s.sowing? x.sow with
      | some w =>
        if !x.test && (s.plotCfg w.plot).det && s.classOf w (s.node w x.node) == 1 then
          (t.bumpPlot w.plot 14 1).report w.fn
            { code := 0x307, plot := some w.plot, sow := some w.id, queue := some w.queue, eng := some e,
              node := some x.node, arg := 0x8000000000000000 }
        else t
      | none => t)
    | _ => t) s

/-- Row 2 of a tick edge (R306, R307): tick `n` begins where the last one ended. -/
def State.beginTick (s : State) (n : BitVec 48) : State :=
  let c := s.fm.active.chip
  let s1 : State := { s with tcs := { s.tcs with
    tick := n, start := s.tcs.edge, len := 20 * c.tickPeriod, head := 20 * c.headland, inHead := false
    theta := none, renum := none, fired := [] } }
  (s1.bumpChip 13 1).capture ⟨0x0D, none, none, none, none, none, n.toNat % c.cycleTicks, n.zeroExtend 64⟩

/-- The entries with OFFSET 0 of the tick that has begun. -/
def State.zeroEntries (s : State) : List Nat :=
  let l := s.fm.active.cyc
  (List.range l.length).filter fun i =>
    let r := l.getD i 0
    within (cyKind r) 1 3 && cyOffset r == 0 && cyTick r == s.tcs.tick.toNat % s.fm.active.chip.cycleTicks

/-- Row 1 of R308 on the acting master of a field: a swap by which it leaves the yoke aborts the pending barriers first (R321,
R330). -/
def State.edgeSwap (s : State) (n : BitVec 48) : State :=
  if s.isMaster && s.yoke.joined && !(s.swapAtEdge n).yoke.joined then (s.abortBarriers (fun _ => true) 0x52).swapAtEdge n
  else s.swapAtEdge n

/-- TICK_EDGE (R308): field map and repair edits, the tick number, reserves, aging (read as it stands, R148), the
harvest, the entries of OFFSET 0, TICK and STATUS. -/
def execTickEdge (s : State) : Host.Outcome State Fault Refusal :=
  let n := s.tcs.renum.getD (s.tcs.tick + 1)
  let s1 := (((s.beOverruns.edgeSwap n).applyEdits).yokeEdge).beginTick n
  let s2 := s1.fixReserves.harvestEdge n
  let s3 := s2.zeroEntries.foldl State.fire s2
  let s4 := s3.yokeSends s.yoke.seen
  let s5 := if s.fm.swap.isSome ∧ s1.fm.swap = none then s4.suSwapped else s4.suAdvance
  s.when (s.su.alignDone && s.tcs.inHead && decide (s.tcs.edge ≤ s.now)) s5

/-! ### Tick waits and the clock check (R306, R331) -/

/-- TICK_WAIT (R331). -/
def execTickWait (q : Fin 16384) (s : State) : Host.Outcome State Fault Refusal :=
  s.command q (fun p => opcode p == 0x51) fun p t =>
    if t.tickPassed (BitVec.ofNat 48 (pf p 2 0 48)) (pf p 3 0 28) then t.retire q 0x55 0 else t.stall q 11 .tickWait

/-- TICK_WAIT_RETIRE (R331). -/
def execTickWaitRetire (q : Fin 16384) (s : State) : Host.Outcome State Fault Refusal :=
  match s.headPacket? q, (s.queue q).head with
  | some p, .tickWait => s.when (s.tickReached (BitVec.ofNat 48 (pf p 2 0 48)) (pf p 3 0 28)) (s.retire q 0 0)
  | _, _ => .next s

/-- CLK_RATIO (R306): a clk_ref_i cycle with another count of sc than 20 is logged. -/
def execClkRatio (counted : Nat) (s : State) : Host.Outcome State Fault Refusal :=
  s.when true (if counted = 20 then s else s.errlog { code := 0x809, arg := BitVec.ofNat 64 counted })

end Sys2Proof.Machine
end

