-- ==== Sys2Proof/Machine/Messages.lean ====
section
/-! DEFINITION. Addressed messages (R247 to R254): sends, credits, rings, delivery on this chip and across chips; an
engine's writes of the MRS registers. -/
namespace Sys2Proof.Machine

/-! ### Send descriptors (R247) -/

/-- DCHIP. -/
def dChip (d : Words) : Nat := fld (d.at 0) 0 8
/-- REMOTE. -/
def dRemote (d : Words) : Bool := bit (d.at 0) 8
/-- DENG. -/
def dEng (d : Words) : Nat := fld (d.at 0) 9 9
/-- TAG. -/
def dTag (d : Words) : Nat := fld (d.at 0) 18 12
/-- LEN. -/
def dLen (d : Words) : Nat := fld (d.at 0) 30 9

/-- Logical number of engine `e` (R9). -/
def State.logicalOf (s : State) (e : Nat) : Nat := (s.engCfg e).logical

/-! ### Credits (R252) -/

/-- CREDITS of function `n` (reset 16). -/
def State.fullCredits (s : State) (n : Nat) : Nat := s.mrs.credit.look 16 n

/-- Key of a pair: the sender's side names the destination's chip when `remote`. -/
def pairKey (fn : Nat) (remote : Bool) (chip src dst : Nat) : Nat :=
  (((fn * 2 + b2n remote) * 256 + (if remote then chip else 0)) * 512 + src) * 512 + dst

/-- Function of a pair's key. -/
def pairFn (k : Nat) : Nat := k / (2 * 256 * 512 * 512)
/-- The pair of a key is with chip `c`. -/
def pairWith (k c : Nat) : Bool := k / (256 * 512 * 512) % 2 == 1 && k / (512 * 512) % 256 == c

/-- Takes a credit of pair `k`: none is left, or no entry of the table is free (R252). -/
def State.takeCredit (s : State) (k : Nat) : Option State :=
  let put (n : Nat) : State := { s with mrs := { s.mrs with pairs := s.mrs.pairs.ins k ⟨n⟩ } }
  match s.mrs.pairs.look? k with
  | some p => if 0 < p.credits then some (put (p.credits - 1)) else none
  | none =>
    let full := s.fullCredits (pairFn k)
    if s.mrs.pairs.length < 65536 ∧ 0 < full then some (put (full - 1)) else none

/-- Key of the pair of a send of engine `e`. -/
def State.sendKey (s : State) (e : Nat) (x : Send) : Nat :=
  pairKey x.fn (dRemote x.words) (dChip x.words) (s.logicalOf e) (dEng x.words)

/-- A send of pair `k` waits for a credit (R252). -/
def State.sendWaits (s : State) (k : Nat) : Bool :=
  engineIds.any fun e => (s.engine e).sends.any fun x => x.phase == .checked && s.sendKey e x == k

/-- Returns `n` credits to pair `k`: an excess is clamped and logged, a full entry is dropped unless a send of the pair waits
(R252). -/
def State.giveCredits (s : State) (k n : Nat) : State :=
  let full := s.fullCredits (pairFn k)
  let have' := match s.mrs.pairs.look? k with | some p => p.credits | none => full
  let s1 : State := { s with mrs := { s.mrs with
    pairs := if full ≤ have' + n ∧ s.sendWaits k = false then s.mrs.pairs.del k
      else s.mrs.pairs.ins k ⟨min full (have' + n)⟩ } }
  if full < have' + n then s1.errlog { code := 0x814, fn := some (pairFn k) } else s1

/-- Reserved bits are 0 and LEN is in range. -/
def descOk (d : Words) : Bool :=
  fld (d.at 0) 39 25 == 0 && fld (d.at 2) 9 55 == 0 && (d.drop 3).all (· == 0)
    && within (dLen d) 8 256 && decide (dLen d % 8 = 0)

/-- The port whose partner is chip `c` of the chip's own field. -/
def State.portTo? (s : State) (c : Nat) : Option Nat :=
  (List.range 96).find? fun p => match (s.port p).partner with
    | some h => h.chip.toNat == c && h.field.toNat == s.fm.active.chip.field
    | none => false

/-- The send that engine `e` runs: the oldest that does not only await its confirmation. -/
def State.sendHead? (s : State) (e : Nat) : Option Send := (s.engine e).sends.find? fun x => x.phase != .framed

/-- Changes the first send for which `p` holds; `none` removes it. -/
def editSend (p : Send → Bool) (f : Send → Option Send) : List Send → List Send
  | [] => []
  | x :: r => if p x then (match f x with | some y => y :: r | none => r) else x :: editSend p f r

/-- Changes the send that engine `e` runs. -/
def State.modSend (s : State) (e : Nat) (f : Send → Option Send) : State :=
  s.modEngine e fun r => { r with sends := editSend (fun x => x.phase != .framed) f r.sends }

/-- The send has taken its credit. -/
def Send.credited (x : Send) : Bool :=
  match x.phase with
  | .accepted | .descRead | .checked => false
  | _ => true

/-- Writes STATUS and DONE of a send's descriptor; one that cannot be written is a fault of the function (R253). -/
def State.writeStatus (s : State) (x : Send) (status : Nat) : State :=
  let a := x.desc + 16
  match s.translate x.fn a 8 .write (some x.plot) false with
  | .ok p => s.issue (Xfer.make (.msgStatus x.fn) x.fn 2 true p 8 [pack [(0, 8, status), (8, 1, 1)]]
      (some ⟨a, .write, some x.plot, false⟩) none)
  | _ => s.report x.fn (transferReport stSegFault 8 none none)

/-- A send of engine `e` has ended with a status: its credit returns unless it is OK or LINK_LOST (R253). -/
def State.sendOver (s : State) (e : Nat) (x : Send) (status : Nat) : State :=
  let s1 := if status ≠ 0 ∧ status ≠ 6 ∧ x.credited = true then s.giveCredits (s.sendKey e x) 1 else s
  s1.writeStatus x status

/-- The send that engine `e` runs ends with a status. -/
def State.endSend (s : State) (e status : Nat) : State :=
  match s.sendHead? e with
  | none => s
  | some x => (s.modSend e fun _ => none).sendOver e x status

/-! ### Rings (R249, R250) -/

/-- MRS_RX of function `n` (reset RING 4). -/
def State.rxOf (s : State) (n : Nat) : W64 := s.mrs.rx.look 0x0004000000000000 n
/-- Records of a ring. -/
def ringSize (rx : W64) : Nat := 2 ^ fld rx 48 4
/-- Ring `d` of function `n`. -/
def State.ring (s : State) (n d : Nat) : Ring := s.mrs.rings.look ⟨0, 0⟩ (n * 512 + d)

/-- Writes an arrival record in ring `d` of function `n`: none while the ring has no free record (R250, R252); the
translation's failure otherwise. -/
def State.writeRecord (s : State) (n d : Nat) (w0 : W64) (landing : W64) (u : Purpose) : Option (Option Nat × State) :=
  let rx := s.rxOf n
  let r := s.ring n d
  let size := ringSize rx
  if size ≤ r.written - r.freed then none
  else
    let a := pack [(12, 36, fld rx 12 36), (60, 4, fld rx 60 4)] + BitVec.ofNat 64 ((d * size + r.written % size) * 16)
    let phase := b2n (decide (r.written / size % 2 = 0))
    match s.translate n a 16 .write none false with
    | .ok p =>
      let s1 : State := { s with mrs := { s.mrs with rings := s.mrs.rings.put ⟨0, 0⟩ (n * 512 + d) { r with written := r.written + 1 } } }
      some (none, s1.issue (Xfer.make u n 2 true p 16 [w0 ||| pack [(39, 1, phase)], landing]
        (some ⟨a, .write, none, false⟩) none))
    | .fault => some (some 3, s)
    | .stale => some (some 4, s)

/-! ### Delivery on this chip (R250) -/

/-- The arrival record of the send that engine `e` runs, when its ring has room. -/
def State.tryRecord (s : State) (e : Nat) : State :=
  match s.sendHead? e with
  | none => s
  | some x =>
    let w0 := pack [(9, 9, s.logicalOf e), (18, 12, dTag x.words), (30, 9, dLen x.words)]
    match s.writeRecord x.fn (dEng x.words) w0 (x.words.at 1) (.msgRecord e) with
    | none => s
    | some (none, t) => t.modSend e fun y => some { y with phase := .recordWrite }
    | some (some st, t) => t.endSend e st

/-- The status of a failed translation as R253 numbers it. -/
def Trans.msgStatus : Trans → Nat
  | .stale => 4
  | _ => 3

/-- The payload of the send that engine `e` runs is here: it lands on this chip, or leaves in an MSG frame (R250,
R252). -/
def State.payloadHere (s : State) (e : Nat) (ws : Words) : State :=
  match s.sendHead? e with
  | none => s
  | some x =>
    if x.phase ≠ .payloadRead then s
    else
      let d := x.words
      if dRemote d then
        match s.portTo? (dChip d) with
        | none => s.endSend e 6
        | some p =>
          (s.modSend e fun y => some { y with phase := .framed, payload := ws }).sendFrame p
            (pack [(0, 8, 3), (8, 8, x.fn), (16, 8, s.fm.active.chip.chip), (24, 9, s.logicalOf e), (33, 9, dEng d),
              (42, 12, dTag d), (54, 9, dLen d)] :: d.at 1 :: ws)
      else if !bit (s.rxOf x.fn) 52 then s.endSend e 5
      else match s.translate x.fn (d.at 1) (dLen d) .write none true with
        | .ok p =>
          (s.modSend e fun y => some { y with phase := .payloadWrite, payload := ws }).issue
            (Xfer.make (.msgWrite e) x.fn 2 true p (dLen d) ws (some ⟨d.at 1, .write, none, true⟩) none)
        | t => s.endSend e t.msgStatus

/-- The payload write of engine `e`'s send is acknowledged. -/
def State.payloadWritten (s : State) (e : Nat) : State :=
  match s.sendHead? e with
  | none => s
  | some x => if x.phase ≠ .payloadWrite then s
              else (s.modSend e fun y => some { y with phase := .recordWait }).tryRecord e

/-- The arrival record of engine `e`'s send is acknowledged: the message is delivered (R250). -/
def State.recordWritten (s : State) (e : Nat) : State :=
  match s.sendHead? e with
  | none => s
  | some x => if x.phase ≠ .recordWrite then s else (s.bumpChip 3 1).endSend e 0

/-! ### Running a send (R248, R252) -/

/-- The descriptor of the send that engine `e` runs has been read (R247, R253). -/
def State.descHere (s : State) (e : Nat) (ws : Words) : State :=
  match s.sendHead? e with
  | none => s
  | some x =>
    if x.phase ≠ .descRead then s
    else
      let s1 := s.modSend e fun y => some { y with phase := .checked, words := ws }
      if !descOk ws then s1.endSend e 1
      else if dRemote ws then (if (s.portTo? (dChip ws)).isNone then s1.endSend e 2 else s1)
      else if (s.physical? (dEng ws)).isNone then s1.endSend e 2
      else s1

/-- The send takes its credit and its payload is read (R252). -/
def State.startSend (s : State) (e : Nat) (x : Send) : State :=
  match s.takeCredit (s.sendKey e x) with
  | none => s
  | some t =>
    let a := x.desc + 64
    let t1 := t.modSend e fun y => some { y with phase := .payloadRead }
    match t.translate x.fn a (dLen x.words) .read (some x.plot) false with
    | .ok p => t1.issue (Xfer.make (.msgPayload e) x.fn 2 false p (dLen x.words) []
        (some ⟨a, .read, some x.plot, false⟩) none)
    | r => t1.endSend e r.msgStatus

/-- MSG_SEND (R248, R252): the send that an engine runs goes on as far as it may. -/
def execMsgSend (eng : Fin 512) (s : State) : Host.Outcome State Fault Refusal :=
  match s.sendHead? eng with
  | none => .next s
  | some x => match x.phase with
    | .accepted =>
      s.when true
        (match s.translate x.fn x.desc 64 .read (some x.plot) false with
         | .ok p => (s.modSend eng fun y => some { y with phase := .descRead }).issue
             (Xfer.make (.msgDesc eng) x.fn 2 false p 64 [] (some ⟨x.desc, .read, some x.plot, false⟩) none)
         | _ => (s.modSend eng fun _ => none).report x.fn (transferReport stSegFault 8 none none))
    | .checked => s.when true (s.startSend eng x)
    | .recordWait => s.when true (s.tryRecord eng)
    | _ => .next s

/-- The end status of a message whose transfer ended with `status` (R41, R253). -/
def msgEnd (status : Nat) : Nat :=
  if status = 0 then 0 else if status = stSegFault then 3 else if status = stSegStale then 4 else 7

/-- The status with which the failure of a descriptor's transfer is recorded: MESH_ABORT, MESH_TIMEOUT or SEG_FAULT (R253). -/
def descStatus (status : Nat) : Nat := if status = stSegStale then stSegFault else status

/-- A transfer of the send that engine `e` runs has failed finally: the descriptor's read is a fault of the function,
any other ends the message with MESH_ERR, or as LANDING or the payload does not translate when it is issued (R41, R253). -/
def State.sendFailed (s : State) (e status : Nat) : State :=
  match s.sendHead? e with
  | none => s
  | some x => match x.phase with
    | .accepted | .checked | .framed | .recordWait => s
    | .descRead => (s.modSend e fun _ => none).report x.fn (transferReport (descStatus status) 8 none none)
    | _ => s.endSend e (msgEnd status)

/-! ### Messages from other chips (R252) -/

/-- Sends a CRED frame on port `p`: credits returned, and the end status of a message it confirms. -/
def State.sendCred (s : State) (p fn src dst credits : Nat) (confirm : Option Nat) : State :=
  s.sendFrame p [pack [(0, 8, 4), (8, 8, fn), (16, 8, s.fm.active.chip.chip), (24, 9, src), (33, 9, dst), (42, 6, credits),
    (48, 1, b2n confirm.isSome), (49, 8, confirm.getD 0)]]

/-- An incoming message ends: its sender is told (R252, R253). -/
def State.answerMsg (s : State) (x : Incoming) (status : Nat) : State :=
  let s1 : State := { s with mrs := { s.mrs with coming := s.mrs.coming.erase x } }
  (if status = 0 then s1.bumpChip 3 1 else s1).sendCred x.port x.fn x.frame.seng.toNat x.frame.deng.toNat 0 (some status)

/-- Two messages share source, destination and tag (R251). -/
def Incoming.same (x y : Incoming) : Bool :=
  x.fn == y.fn && x.frame.schip == y.frame.schip && x.frame.seng == y.frame.seng && x.frame.deng == y.frame.deng
    && x.frame.tag == y.frame.tag

/-- The incoming messages whose record may be written now: the payload has landed, and no earlier one of the same
source, destination and tag is left (R251). -/
def landed : List Incoming → List Incoming → List Incoming
  | _, [] => []
  | before, x :: r =>
    (if x.phase = 1 ∧ (before.any fun y => y.same x) = false then [x] else []) ++ landed (before ++ [x]) r

/-- Writes the records of landed messages as far as the rings have room. -/
def State.pumpRecords (s : State) : State :=
  (landed [] s.mrs.coming).foldl (fun t x =>
    let f := x.frame
    let w0 := pack [(0, 8, f.schip.toNat), (8, 1, 1), (9, 9, f.seng.toNat), (18, 12, f.tag.toNat), (30, 9, f.len.toNat)]
    match t.writeRecord x.fn f.deng.toNat w0 f.landing (.rxRecord x.fn f x.port) with
    | none => t
    | some (none, u) => { u with mrs := { u.mrs with
        coming := u.mrs.coming.map fun y => if y = x then { y with phase := 2 } else y } }
    | some (some st, u) => u.answerMsg x st) s

/-- MSG_FRAME (R252): a message from another chip lands here, or its sender is told why not. -/
def execMsgFrame (port : Fin 96) (frame : MsgFrame) (s : State) : Host.Outcome State Fault Refusal :=
  let n := frame.fn.val
  let refuse (status : Nat) : State := s.sendCred port n frame.seng.toNat frame.deng.toNat 0 (some status)
  s.frameIn port true
    (if (s.physical? frame.deng.toNat).isNone then refuse 2
     else if !bit (s.rxOf n) 52 then refuse 5
     else match s.translate n frame.landing frame.len.toNat .write none true with
       | .ok p => State.issue { s with mrs := { s.mrs with coming := s.mrs.coming ++ [⟨n, frame, port, 0⟩] } }
           (Xfer.make (.rxPayload n frame port) n 2 true p frame.len.toNat frame.payload
             (some ⟨frame.landing, .write, none, true⟩) none)
       | t => refuse t.msgStatus)

/-- The first incoming message of a frame in a phase. -/
def State.incoming? (s : State) (n : Nat) (f : MsgFrame) (p phase : Nat) : Option Incoming :=
  s.mrs.coming.find? fun x => x == ⟨n, f, p, phase⟩

/-- The payload of a message from another chip has landed, or failed finally. -/
def State.rxLanded (s : State) (n : Nat) (f : MsgFrame) (p status : Nat) : State :=
  match s.incoming? n f p 0 with
  | none => s
  | some x =>
    if status = 0 then State.pumpRecords { s with mrs := { s.mrs with
      coming := editFirst x { x with phase := 1 } s.mrs.coming } }
    else s.answerMsg x (msgEnd status)
where
  /-- Replaces the first occurrence. -/
  editFirst (x y : Incoming) : List Incoming → List Incoming
    | [] => []
    | z :: r => if z = x then y :: r else z :: editFirst x y r

/-- The record of a message from another chip is written, or failed finally. -/
def State.rxRecorded (s : State) (n : Nat) (f : MsgFrame) (p status : Nat) : State :=
  match s.incoming? n f p 2 with
  | none => s
  | some x => (s.answerMsg x (msgEnd status)).pumpRecords

/-- The oldest framed send of a pair: its engine and the send. -/
def State.framed? (s : State) (fn chip src dst : Nat) : Option (Nat × Send) :=
  engineIds.findSome? fun e =>
    if s.logicalOf e ≠ src then none
    else ((s.engine e).sends.find? fun x => x.phase == .framed && x.fn == fn && dChip x.words == chip && dEng x.words == dst).map
      fun x => (e, x)

/-- A framed send of engine `e` ends. -/
def State.endFramed (s : State) (e : Nat) (x : Send) (status : Nat) : State :=
  (s.modEngine e fun r => { r with sends := r.sends.erase x }).sendOver e x status

/-- CRED_FRAME (R252): credits return to the pair, and the oldest unconfirmed message of it ends. -/
def execCredFrame (port : Fin 96) (frame : CredFrame) (s : State) : Host.Outcome State Fault Refusal :=
  let fn := frame.fn.val
  let chip := frame.chip.toNat
  let src := frame.src.toNat
  let dst := frame.dst.toNat
  let s1 := if frame.credits = 0 then s else s.giveCredits (pairKey fn true chip src dst) frame.credits.toNat
  s.frameIn port true
    (match frame.confirm, s1.framed? fn chip src dst with
     | some st, some (e, x) => s1.endFramed e x st.toNat
     | _, _ => s1)

/-- The partner of chip `c` has departed: sends that wait on it end with LINK_LOST, its pairs are dropped (R254). -/
def State.linkLost (s : State) (c : Nat) : State :=
  let waits (x : Send) : Bool :=
    (x.phase == .framed || x.phase == .checked) && dRemote x.words && dChip x.words == c
  let s1 := engineIds.foldl (fun t e => ((t.engine e).sends.filter waits).foldl (fun u x => u.endFramed e x 6) t) s
  { s1 with mrs := { s1.mrs with
    pairs := s1.mrs.pairs.filter fun kv => !pairWith kv.1 c
    coming := s1.mrs.coming } }

/-! ### Register writes of engines (R248, R252) and MRS_RX (R249) -/

/-- The INC check of R240 for an operation of engine `e`: a stale one is logged and has no effect. -/
def State.withInc (s : State) (e inc : Nat) (f : State → State) : State :=
  if inc = (s.engine e).inc.toNat then f s else s.errlog { code := 0x802, eng := some e }

/-- Plot of the task that engine `e` runs. -/
def State.taskPlot (s : State) (e : Nat) : Nat :=
  match (s.engine e).front with
  | .running t _ => (match s.sowing? t.sow with | some w => w.plot | none => s.plotOf e)
  | _ => s.plotOf e

/-- MRS_ESEND (R248): accepted behind the engine's other sends; a ninth is given SEND_FULL. -/
def execMrsEsend (req : Req) (page : Fin 256) (value : W64) (s : State) : Host.Outcome State Fault Refusal :=
  let e := req.eng.val
  s.regWrite req (pageBase page + 0x3810) (s.engineOk req page) fun t =>
    t.withInc e (fld value 46 8) fun u =>
      let x : Send := ⟨page, pack [(6, 42, fld value 0 42), (60, 4, fld value 42 4)], u.taskPlot e, .accepted, [], []⟩
      let u1 := u.bumpEng e 14 1
      if 8 ≤ (u.engine e).sends.length then u1.writeStatus x 8
      else u1.modEngine e fun r => { r with sends := r.sends ++ [x] }

/-- MRS_ECREDIT (R252): ring records are freed, credits go back to a pair on this chip or in a CRED frame. -/
def execMrsEcredit (req : Req) (page : Fin 256) (value : W64) (s : State) : Host.Outcome State Fault Refusal :=
  let e := req.eng.val
  s.regWrite req (pageBase page + 0x3818) (s.engineOk req page) fun t =>
    t.withInc e (fld value 37 8) fun u =>
      let d := u.logicalOf e
      let r := u.ring page d
      let freed := min r.written (r.freed + fld value 0 13)
      let u1 : State := { u with mrs := { u.mrs with rings := u.mrs.rings.put ⟨0, 0⟩ (page * 512 + d) { r with freed := freed } } }
      let n := fld value 31 6
      let u2 := if n = 0 then u1
        else if bit value 21 then
          (match u1.portTo? (fld value 13 8) with
           | some p => u1.sendCred p page (fld value 22 9) d n none
           | none => u1)
        else u1.giveCredits (pairKey page false 0 (fld value 22 9) d) n
      u2.pumpRecords

/-- A write of MRS_RX of function `n` (R249): taken while ENABLE is 0, or when it clears ENABLE, which empties every ring
index. -/
def State.writeRx (s : State) (n : Nat) (v : W64) : State :=
  let old := s.rxOf n
  let ring := max 4 (min 12 (fld v 48 4))
  let w := pack [(12, 36, fld v 12 36), (48, 4, ring), (52, 1, b2n (bit v 52)), (60, 4, fld v 60 4)]
  if bit old 52 && bit v 52 then s
  else
    let s1 : State := { s with mrs := { s.mrs with rx := s.mrs.rx.put 0x0004000000000000 n w } }
    if bit old 52 then { s1 with mrs := { s1.mrs with rings := s1.mrs.rings.filter fun kv => kv.1 / 512 != n } } else s1

/-- MRS_RX_WRITE (R43, R249). -/
def execMrsRxWrite (req : Req) (page : Fin 256) (value : W64) (s : State) : Host.Outcome State Fault Refusal :=
  s.regWrite req (pageBase page + 0x3820) (s.pageOk req page) fun t => t.writeRx page value

end Sys2Proof.Machine
end

