-- ==== Sys2Proof/Machine/Sheaf.lean ====
section
/-! DEFINITION. The sheaf (R256 to R280): entries, exact adds, drains rounded once, raw images, operations in entry
order, SHF_ERES. -/
namespace Sys2Proof.Machine

/-! ### Formats (R260, R274, R279) -/

/-- Bytes of an element. -/
def elemBytes (fmt : Nat) : Nat := if fmt = 0 ∨ fmt = 4 then 4 else if fmt = 1 then 2 else 1
/-- Q. -/
def fmtQ (fmt : Nat) : Nat := match fmt with
  | 0 => 149
  | 1 => 133
  | 2 => 9
  | 3 => 16
  | _ => 0
/-- Fraction bits of a floating-point format. -/
def fracBits (fmt : Nat) : Nat := match fmt with
  | 0 => 23
  | 1 => 7
  | 2 => 3
  | _ => 2
/-- Exponent bits. -/
def expBits (fmt : Nat) : Nat := match fmt with
  | 0 => 8
  | 1 => 8
  | 2 => 4
  | _ => 5
/-- Largest finite magnitude in units of 2^-Q. -/
def maxUnits (fmt : Nat) : Nat :=
  if fmt = 2 then 229376
  else (2 ^ (fracBits fmt + 1) - 1) * 2 ^ (2 ^ expBits fmt - 3)

/-- An element as the sheaf sees it. -/
inductive Elem where
  | nan | pinf | ninf
  | finite (units : Int) (minusZero : Bool)
  deriving DecidableEq, Repr

/-- Decodes an element of a floating-point format (R260, R274). -/
def decodeFloat (fmt x : Nat) : Elem :=
  let m := fracBits fmt
  let e := expBits fmt
  let frac := bits x 0 m
  let ex := bits x m e
  let neg := bits x (m + e) 1 = 1
  let top := ex = 2 ^ e - 1
  if fmt = 2 ∧ top ∧ frac = 7 then .nan
  else if fmt ≠ 2 ∧ top then (if frac ≠ 0 then .nan else if neg then .ninf else .pinf)
  else
    let u : Nat := if ex = 0 then frac else (2 ^ m + frac) * 2 ^ (ex - 1)
    .finite (if neg then -(u : Int) else u) (neg && u == 0)

/-- Decodes an element (R274). -/
def decodeElem (fmt x : Nat) : Elem := if fmt = 4 then .finite (sgn 32 x) false else decodeFloat fmt x

/-- Canonical NaN (R279). -/
def canonicalNaN (fmt : Nat) : Nat := match fmt with
  | 0 => 0x7FC00000
  | 1 => 0x7FC0
  | 2 => 0x7F
  | _ => 0x7E

/-! ### Lanes (R261, R274 to R278) -/

/-- A lane after CLEAR (R264). -/
def Lane.cleared : Lane := ⟨0, false, false, false, true⟩
/-- A lane of an entry that was never cleared. -/
def Lane.reset : Lane := ⟨0, false, false, false, false⟩

/-- SUM in its 316 bits (R261). -/
def wrapSum (x : Int) : Int := sgn 316 (x % (2 ^ 316 : Int)).toNat

/-- Exact add of one element (R274). -/
def Lane.add (l : Lane) (fmt : Nat) (x : Elem) : Lane :=
  match x with
  | .nan => { l with nan := true }
  | .pinf => { l with pinf := true }
  | .ninf => { l with ninf := true }
  | .finite u mz => { l with sum := wrapSum (l.sum + u), nz := if fmt = 4 then l.nz else l.nz && mz }

/-- Merge of a raw image's lane (R278). -/
def Lane.merge (l r : Lane) : Lane :=
  ⟨wrapSum (l.sum + r.sum), l.pinf || r.pinf, l.ninf || r.ninf, l.nan || r.nan, l.nz && r.nz⟩

/-- The 320 bits of a lane (R261). -/
def Lane.encode (l : Lane) : Nat :=
  (l.sum % (2 ^ 316 : Int)).toNat + b2n l.pinf * 2 ^ 316 + b2n l.ninf * 2 ^ 317 + b2n l.nan * 2 ^ 318 + b2n l.nz * 2 ^ 319

/-- A lane of a raw image. -/
def Lane.decode (x : Nat) : Lane :=
  ⟨sgn 316 x, bits x 316 1 == 1, bits x 317 1 == 1, bits x 318 1 == 1, bits x 319 1 == 1⟩

/-- Position of the highest 1 bit, and 1 more; 0 for 0. -/
def bitLen (x : Nat) : Nat := if x = 0 then 0 else Nat.log2 x + 1

/-- x / 2^k to nearest, ties to even. -/
def roundShift (x k : Nat) : Nat :=
  let q := x / 2 ^ k
  let r := x % 2 ^ k
  if k = 0 then x
  else if 2 ^ (k - 1) < r ∨ (r = 2 ^ (k - 1) ∧ q % 2 = 1) then q + 1 else q

/-- A drained lane: the element's bits, INEXACT, RANGE, NANOUT (R276). -/
structure Drained where
  bits    : Nat
  inexact : Bool
  range   : Bool
  nanout  : Bool

/-- The sum of a floating-point lane rounded once (R276, the last row). -/
def roundFloat (fmt : Nat) (sum : Int) : Drained :=
  let m := fracBits fmt
  let neg := sum < 0
  let x := sum.natAbs
  let k := bitLen x - (m + 1)
  let q := roundShift x k
  let u := q * 2 ^ k
  let sign := if neg then 2 ^ (m + expBits fmt) else 0
  if maxUnits fmt < u then
    ⟨sign + (if fmt = 2 then 0x7E else (2 ^ expBits fmt - 1) * 2 ^ m), true, true, false⟩
  else
    let len := bitLen u
    let body := if len ≤ m then u else (len - m) * 2 ^ m + (u >>> (len - (m + 1))) % 2 ^ m
    ⟨sign + body, decide (u ≠ x), false, false⟩

/-- The result of one lane (R276). -/
def Lane.drain (l : Lane) (fmt count : Nat) : Drained :=
  let m := fracBits fmt
  let inf := (2 ^ expBits fmt - 1) * 2 ^ m
  let sign := 2 ^ (m + expBits fmt)
  if fmt = 4 then
    let c : Int := max (-2147483648) (min 2147483647 l.sum)
    ⟨(c % (2 ^ 32 : Int)).toNat, false, decide (c ≠ l.sum), false⟩
  else if l.nan || (l.pinf && l.ninf) then ⟨canonicalNaN fmt, false, false, true⟩
  else if l.pinf then ⟨inf, false, false, false⟩
  else if l.ninf then ⟨sign + inf, false, false, false⟩
  else if l.sum = 0 then ⟨if 0 < count ∧ l.nz = true then sign else 0, false, false, false⟩
  else roundFloat fmt l.sum

/-! ### Entries and images (R256 to R258, R277) -/

/-- Sheaf entry `e`. -/
def State.sheaf (s : State) (e : Nat) : ShfEntry := s.shf.ents.look ShfEntry.reset e
/-- Writes sheaf entry `e`. -/
def State.setSheaf (s : State) (e : Nat) (x : ShfEntry) : State :=
  { s with shf := { s.shf with ents := s.shf.ents.put ShfEntry.reset e x } }

/-- Lane `i` of an entry. -/
def ShfEntry.lane (x : ShfEntry) (i : Nat) : Lane := x.lanes.getD i Lane.reset
/-- The 32 lanes. -/
def ShfEntry.all (x : ShfEntry) : List Lane := (List.range 32).map x.lane

/-- SHF_ENTSTAT (R258). -/
def ShfEntry.stat (x : ShfEntry) : W64 :=
  pack [(0, 3, x.fmt), (3, 1, b2n x.fmtv), (4, 38, x.count), (42, 1, b2n x.lost), (43, 1, b2n x.poison)]
/-- SHF_ENTCFG (R257). -/
def ShfEntry.cfg (x : ShfEntry) : W64 := pack [(0, 8, x.owner), (8, 1, b2n x.enable)]

/-- Element `i` of read data. -/
def element (fmt : Nat) (ws : Words) (i : Nat) : Nat := bits (wordsNat ws) (8 * elemBytes fmt * i) (8 * elemBytes fmt)

/-- An entry after an ADD (R264, R274). -/
def ShfEntry.add (x : ShfEntry) (ws : Words) : ShfEntry :=
  { x with count := x.count + 1, lanes := x.all.zipIdx.map fun li => li.1.add x.fmt (decodeElem x.fmt (element x.fmt ws li.2)) }

/-- COUNT of a raw image. -/
def rawCount (ws : Words) : Nat := fld (ws.at 0) 24 38
/-- The header of a raw image meets R277. -/
def rawOk (ws : Words) : Bool :=
  fld (ws.at 0) 0 16 == 0x5846 && fld (ws.at 0) 19 5 == 0 && fld (ws.at 0) 62 2 == 0
    && ((ws.drop 1).take 7).all (· == 0)

/-- An entry after an ADD_RAW (R278). -/
def ShfEntry.addRaw (x : ShfEntry) (ws : Words) : ShfEntry :=
  { x with count := x.count + rawCount ws,
           lanes := x.all.zipIdx.map fun li => li.1.merge (Lane.decode (bits (wordsNat (ws.drop 8)) (320 * li.2) 320)) }

/-- The raw image of an entry (R277). -/
def ShfEntry.raw (x : ShfEntry) : Words :=
  [pack [(0, 16, 0x5846), (16, 3, x.fmt), (24, 38, x.count)], 0, 0, 0, 0, 0, 0, 0]
    ++ x.all.flatMap fun l => toWords 5 l.encode

/-- The drained lanes of an entry. -/
def ShfEntry.drains (x : ShfEntry) : List Drained := x.all.map fun l => l.drain x.fmt x.count

/-- The 32 elements of a drain, as words. -/
def packElems (fmt : Nat) (l : List Drained) : Words :=
  toWords (4 * elemBytes fmt) (l.foldr (fun d n => d.bits + n * 2 ^ (8 * elemBytes fmt)) 0)

/-! ### Accepting operations (R263 to R267) -/

/-- SHF_ERES of engine `e`: changes it. -/
def State.modShf (s : State) (e : Nat) (f : ShfRes → ShfRes) : State := s.modEngine e fun r => { r with shf := f r.shf }

/-- The first status of two, 0 being none. -/
def firstOf (x y : Nat) : Nat := if x = 0 then y else x

/-- Records a status other than OK as FIRSTERR, if none is held (R269). -/
def ShfRes.err (r : ShfRes) (status now : Nat) : ShfRes := { r with firsterr := r.firsterr.add firstOf status now }

/-- Operations of engine `e` accepted and not completed. -/
def State.shfOut (s : State) (e : Nat) : List ShfOp :=
  s.shf.ops.filter fun o => o.cfg.isNone && o.op != 8 && o.eng == e

/-- Changes the operation of number `n`. -/
def State.modOp (s : State) (n : Nat) (f : ShfOp → ShfOp) : State :=
  { s with shf := { s.shf with ops := s.shf.ops.map fun o => if o.num = n then f o else o } }

/-- `x` goes before `y` (R259, R268): by the sc of acceptance; within one, a configuration write after the operations of engines,
and those in ascending engine ID. -/
def ShfOp.before (x y : ShfOp) : Bool :=
  decide (x.at' < y.at') || (x.at' == y.at' && ((x.cfg.isNone && y.cfg.isSome)
    || (x.cfg.isSome == y.cfg.isSome && (decide (x.eng < y.eng) || (x.eng == y.eng && decide (x.num < y.num))))))

/-- An operation takes its place. -/
def insertOp (o : ShfOp) : List ShfOp → List ShfOp
  | [] => [o]
  | x :: r => if o.before x then o :: x :: r else x :: insertOp o r

/-- Operation `o` is accepted in this sc. -/
def State.addOp (s : State) (o : ShfOp) : State :=
  { s with shf := { s.shf with ops := insertOp { o with num := s.shf.next, at' := s.now } s.shf.ops, next := s.shf.next + 1 } }

/-- Bytes an operation moves. -/
def ShfOp.bytes (o : ShfOp) (fmt : Nat) : Nat := if o.op = 2 ∨ o.op = 4 then 1344 else 32 * elemBytes fmt

/-- The format that operation `o` will find: the last CLEAR of its entry before it, or the entry's own. -/
def State.formatFor (s : State) (o : ShfOp) : Nat :=
  match (s.shf.ops.filter fun x => x.ent == o.ent && x.cfg.isNone && x.op == 0 && x.before o).getLast? with
  | some c => c.fmt
  | none => (s.sheaf o.ent).fmt

/-- The read of an ADD or ADD_RAW is issued, under the function's segments at QoS 2 (R266, R267). -/
def State.shfRead (s : State) (o : ShfOp) : State :=
  let b := o.bytes (s.formatFor o)
  let fail (st : Nat) : State := s.modOp o.num fun x => { x with phase := .failed, status := BitVec.ofNat 8 st }
  match s.translate o.fn o.addr b .read (some o.plot) true with
  | .ok p => (s.modOp o.num fun x => { x with phase := .reading }).issue
      (Xfer.make (.shfRead o.num) o.fn 2 false p b [] (some ⟨o.addr, .read, some o.plot, true⟩) none)
  | .fault => fail stSegFault
  | .stale => fail stSegStale

/-- The data reads of the adds accepted in an sc are issued at its end, when their place in their entry's order is settled
(R267, R268). -/
def State.shfReads (s : State) : State :=
  (s.shf.ops.filter fun o => o.phase == .accepted).foldl State.shfRead s

/-- The sowing of the task that engine `e` runs, and the queue that launched it. -/
def State.taskOf (s : State) (e : Nat) : Nat × Nat :=
  match (s.engine e).front with
  | .running t _ => (t.sow, match s.sowing? t.sow with | some w => w.queue | none => 0)
  | _ => (0, 0)

/-- An operation of engine `e` in page `page`. -/
def State.engineOp (s : State) (e page ent op fmt : Nat) (addr : W64) : ShfOp where
  num := 0
  ent := ent
  op := op
  fmt := fmt
  fn := page
  eng := e
  inc := (s.engine e).inc
  addr := addr
  plot := s.taskPlot e
  sow := (s.taskOf e).1
  queue := (s.taskOf e).2
  at' := 0
  phase := if op = 1 ∨ op = 2 then .accepted else .ready
  status := 0
  data := []
  cfg := none

/-- An SHF_EOP write is accepted: it joins its entry's order (R266, R268). -/
def State.acceptOp (s : State) (e page : Nat) (v : W64) : State :=
  let o := s.engineOp e page (fld v 0 12) (fld v 12 3) (fld v 15 3) (pack [(6, 32, fld v 18 32), (60, 4, fld v 50 4)])
  ((s.addOp o).modShf e fun r => { r with acc := r.acc + 1 }).bumpEng e 14 1

/-- The checks of R265 on an SHF_EOP write; 0 when it is accepted. -/
def State.shfCheck (s : State) (e page : Nat) (v : W64) : Nat :=
  let x := s.sheaf (fld v 0 12)
  let op := fld v 12 3
  let fmt := fld v 15 3
  if fld v 54 8 ≠ (s.engine e).inc.toNat then 0x2B
  else if x.enable = false ∨ x.owner ≠ page then 0x28
  else if 4 < op ∨ (op ≠ 0 ∧ fmt ≠ 0) ∨ 4 < fmt then 0x29
  else if 8 ≤ (s.shfOut e).length then 0x2A
  else 0

/-- The entry's configuration as it stands after every write accepted in an earlier sc: R265 checks later operations against
the new owner, and those of the write's own sc go before it (R259). -/
def State.sheafCfg (s : State) (e : Nat) : W64 :=
  match (s.shf.ops.filter fun o => o.ent == e && o.cfg.isSome && decide (o.at' < s.now)).getLast? with
  | some o => o.cfg.getD 0
  | none => (s.sheaf e).cfg

/-- An SHF_EOP write with operation `op` (R263, R265). -/
def State.sheafWrite (s : State) (op : Nat) (req : Req) (page : Fin 256) (v : W64) : Host.Outcome State Fault Refusal :=
  let e := req.eng.val
  if fld v 12 3 = op then
    s.regWrite req (pageBase page + 0x3900) (s.engineOk req page) fun t =>
      let c := State.shfCheck (t.setSheaf (fld v 0 12) { t.sheaf (fld v 0 12) with
        owner := fld (t.sheafCfg (fld v 0 12)) 0 8, enable := bit (t.sheafCfg (fld v 0 12)) 8 }) e page v
      if c = 0 then t.acceptOp e page v
      else
        let t1 := t.modShf e fun r => r.err c t.now
        if c = 0x2B then t1.errlog { code := 0x802, eng := some e } else t1
  else .next s

/-- SHEAF_CLEAR (R264); a reserved OP is refused here (R265). -/
def execSheafClear (req : Req) (page : Fin 256) (value : W64) (s : State) : Host.Outcome State Fault Refusal :=
  s.sheafWrite (if 4 < fld value 12 3 then fld value 12 3 else 0) req page value
/-- SHEAF_ADD (R274). -/
def execSheafAdd (req : Req) (page : Fin 256) (value : W64) (s : State) : Host.Outcome State Fault Refusal :=
  s.sheafWrite 1 req page value
/-- SHEAF_ADD_RAW (R278). -/
def execSheafAddRaw (req : Req) (page : Fin 256) (value : W64) (s : State) : Host.Outcome State Fault Refusal :=
  s.sheafWrite 2 req page value
/-- SHEAF_DRAIN (R276). -/
def execSheafDrain (req : Req) (page : Fin 256) (value : W64) (s : State) : Host.Outcome State Fault Refusal :=
  s.sheafWrite 3 req page value
/-- SHEAF_DRAIN_RAW (R277). -/
def execSheafDrainRaw (req : Req) (page : Fin 256) (value : W64) (s : State) : Host.Outcome State Fault Refusal :=
  s.sheafWrite 4 req page value

/-! ### Completing (R267, R269, R273) -/

/-- Operation `o` has completed with a status, which SHF_ERES does not show yet (R267). -/
def State.endOp (s : State) (o : ShfOp) (status : Nat) : State :=
  { s with shf := { s.shf with
    ops := s.shf.ops.filter fun x => x.num != o.num
    ended := s.shf.ended ++ [{ o with status := BitVec.ofNat 8 status }] } }

/-- SHF_ERES shows a completed operation, to the engine's incarnation that began it alone (R267, R269). -/
def State.showOp (s : State) (o : ShfOp) : State :=
  let s1 : State := { s with shf := { s.shf with ended := s.shf.ended.filter fun x => x.num != o.num } }
  if (s1.engine o.eng).inc ≠ o.inc then s1
  else s1.modShf o.eng fun r =>
    let r1 := { r with lastst := o.status, cmp := r.cmp + 1 }
    if o.status = 0 then r1 else r1.err o.status.toNat s.now

/-- A one-bit RC field is raised where `b` holds. -/
def Rc.flag (c : Rc) (b : Bool) (now : Nat) : Rc := if b then c.add (satAdd 1) 1 now else c

/-- The flags a drain raises in SHF_ERES (R269). -/
def State.drainFlags (s : State) (o : ShfOp) (x : ShfEntry) (l : List Drained) : State :=
  if (s.engine o.eng).inc ≠ o.inc then s
  else s.modShf o.eng fun r => { r with
    inexact := r.inexact.flag (l.any fun d => d.inexact) s.now
    range := r.range.flag (l.any fun d => d.range) s.now
    nanout := r.nanout.flag (l.any fun d => d.nanout) s.now
    lostseen := r.lostseen.flag x.lost s.now }

/-- A failed add sets LOST (R271). -/
def State.addFails (s : State) (o : ShfOp) (status : Nat) : State :=
  let x := s.sheaf o.ent
  (s.setSheaf o.ent { x with lost := true }).endOp o status

/-- The writes of a drain are issued (R267). -/
def State.drainWrite (s : State) (o : ShfOp) (ws : Words) : State :=
  let b := 8 * ws.length
  match s.translate o.fn o.addr b .write (some o.plot) true with
  | .ok p => (s.modOp o.num fun y => { y with phase := .applied }).issue
      (Xfer.make (.shfWrite o.num) o.fn 2 true p b ws (some ⟨o.addr, .write, some o.plot, true⟩) none)
  | .fault => s.endOp o stSegFault
  | .stale => s.endOp o stSegStale

/-- An add whose data is here is applied, or fails (R262, R271, R274, R278). -/
def State.applyAdd (s : State) (o : ShfOp) (x : ShfEntry) : State :=
  let ws := o.data
  let n := if o.op = 1 then 1 else rawCount ws
  if !x.fmtv then s.addFails o 0x29
  else if o.op = 2 ∧ rawOk ws = false then s.addFails o 0x2D
  else if o.op = 2 ∧ fld (ws.at 0) 16 3 ≠ x.fmt then s.addFails o 0x29
  else if 2 ^ 38 - 1 < x.count + n then s.addFails o 0x2C
  else
    let s1 := s.setSheaf o.ent (if o.op = 1 then x.add ws else x.addRaw ws)
    (s1.bumpChip 4 32).endOp o 0

/-- Operation `o` is applied to its entry (R264, R268). -/
def State.applyOp (s : State) (o : ShfOp) : State :=
  let x := s.sheaf o.ent
  match o.cfg with
  | some v =>
    let s1 : State := { s with shf := { s.shf with ops := s.shf.ops.filter fun y => y.num != o.num } }
    if x.cfg = v then s1
    else s1.setSheaf o.ent { ShfEntry.reset with owner := fld v 0 8, enable := bit v 8 }
  | none =>
    if o.op = 0 then
      (s.setSheaf o.ent { x with fmt := o.fmt, fmtv := true, count := 0, lost := false, poison := false
                                 lanes := List.replicate 32 Lane.cleared }).endOp o 0
    else if x.poison then (if o.op = 1 ∨ o.op = 2 then s.addFails o 0x2E else s.endOp o 0x2E)
    else if o.phase = .failed then s.addFails o o.status.toNat
    else if o.op = 1 ∨ o.op = 2 then s.applyAdd o x
    else if !x.fmtv then s.endOp o 0x29
    else if o.op = 3 then (s.drainFlags o x x.drains).drainWrite o (packElems x.fmt x.drains)
    else (s.drainFlags o x []).drainWrite o x.raw

/-- The oldest operation or configuration write of an entry that has not been applied (R268). -/
def State.nextOp? (s : State) (ent : Nat) : Option ShfOp :=
  s.shf.ops.find? fun o => o.ent == ent && o.op != 8 && o.phase != .applied

/-- The operation may be applied at `now`: every operation of its sc has its place, and an add's data has come, or has failed
to. -/
def ShfOp.mayApply (o : ShfOp) (now : Nat) : Bool := decide (o.at' < now) && o.phase != .accepted && o.phase != .reading

/-- Configuration writes that no operation of their entry stands before take effect, `n` at most (R259). -/
def State.cfgTurn (s : State) (ent : Nat) : Nat → State
  | 0 => s
  | n + 1 => match s.nextOp? ent with
    | some o => if o.cfg.isSome ∧ o.mayApply s.now = true then (s.applyOp o).cfgTurn ent n else s
    | none => s

/-- The same for every entry with a write that waits. -/
def State.cfgTurns (s : State) : State :=
  ((s.shf.ops.filter fun o => o.cfg.isSome).map (·.ent)).dedup.foldl (fun t e => t.cfgTurn e s.shf.ops.length) s

/-- SHEAF_APPLY (R268): the next operation of an entry is applied. -/
def execSheafApply (entry : Fin 4096) (s : State) : Host.Outcome State Fault Refusal :=
  match s.nextOp? entry with
  | none => .next s
  | some o => s.when (o.mayApply s.now) ((s.applyOp o).cfgTurn entry s.shf.ops.length)

/-- An add's data has been read, or its read has failed finally (R271). -/
def State.shfHere (s : State) (n : Nat) (data : Option Words) (status : Nat) : State :=
  s.modOp n fun o => match data with
    | some ws => { o with phase := .ready, data := ws }
    | none => { o with phase := .failed, status := BitVec.ofNat 8 status }

/-- A drain's writes are acknowledged, or one has failed finally (R267, R271). -/
def State.shfWritten (s : State) (n status : Nat) : State :=
  match s.shf.ops.find? fun o => o.num == n with
  | none => s
  | some o => s.endOp o status

/-! ### Semaphore operations of engines (R239 to R243, R273) -/

/-- Operations that wait (R231). -/
def semWaits (op : Nat) : Bool := decide (6 ≤ op) && decide (op ≤ 8)

/-- Engine `e` runs a task of sowing `k`, which is ACTIVE. -/
def State.runsActive (s : State) (e k : Nat) : Bool :=
  match (s.engine e).front with
  | .running t _ => t.sow == k && (match s.sowing? k with | some w => w.st == .active | none => false)
  | _ => false

/-- The accepted SM_EOP write `o` is applied (R231, R238 to R242). It is attributed to the queue that launched the sowing whose
task wrote it (R230). A wait that R243 would have cancelled meanwhile ends so (log 125). -/
def State.engineSem (s : State) (o : ShfOp) : State :=
  let e := o.eng
  let m := fld o.addr 0 18
  let op := fld o.addr 18 4
  let v0 : BitVec 32 := BitVec.ofNat 32 (fld o.addr 32 32)
  let mine := (s.engine e).inc == o.inc
  let park := bit o.addr 30
  let tell (t : State) (y : BitVec 32) (st : Nat) : State := if mine then t.setEres e y st else t
  let bad := op = 4 ∨ 8 < op ∨ ((op = 5 ∨ op = 8) ∧ v0.toInt < 1)
  if bad ∨ s.semAdmits o.fn m = false then tell s 0 0x20
  else if semSignal op && !s.declared o.queue m then
    (tell s 0 stSemUndeclared).failSowing o.sow { code := 0x200 + stSemUndeclared, eng := some e }
  else if semWaits op && !(mine && s.runsActive e o.sow) then
    let (w, s1) := s.drawWord
    let s2 := tell s1 (w.truncate 32) 0x24
    if mine && park && (match s.sowing? o.sow with | some x => x.st == .failing | none => false) then s2.requestWakeWord e
    else s2
  else match s.semOp m op v0 0 with
    | (.ends y st, t) =>
      let t1 := tell t y st
      if semWaits op && park then t1.requestWakeWord e else t1
    | (.waits, t) => (t.modEngine e fun r => { r with
        eres := { r.eres with done := false, pending := true }
        wait := some ⟨m, op, v0, park, o.sow⟩ }).addWaiter ⟨m, op, v0, .engine e, t.now⟩

/-- SM_ERES of a refused write (R241). -/
def State.refuseSem (s : State) (e status : Nat) : State :=
  s.modEngine e fun r => { r with eres := { r.eres with value := 0, status := BitVec.ofNat 8 status, done := true } }

/-- A wait of engine `e` is pending: one that stands behind sheaf operations too (R240, R273; log 125). -/
def State.semPending (s : State) (e : Nat) : Bool :=
  (s.engine e).wait.isSome || s.shf.ops.any fun o => o.eng == e && o.op == 8 && semWaits (fld o.addr 18 4)
    && o.inc == (s.engine e).inc

/-- SM_EOP (R239, R240): checked, and applied at once or behind the engine's sheaf operations (R273). -/
def State.smEop (s : State) (e page : Nat) (v : W64) : State :=
  if fld v 22 8 ≠ (s.engine e).inc.toNat then (s.refuseSem e 0x23).errlog { code := 0x802, eng := some e }
  else if s.semPending e then s.refuseSem e 0x25
  else
    let o := s.engineOp e page 0 8 0 v
    let s1 := (s.modEngine e fun r => { r with eres := { r.eres with
      opseq := r.eres.opseq + 1, done := false, pending := semWaits (fld v 18 4) } }).bumpEng e 14 1
    if s.shf.ops.all fun x => x.eng != e || x.cfg.isSome then s1.engineSem o else s1.addOp o

/-- Applies the SM_EOP writes of engine `e` that no sheaf operation stands before any more, `n` at most (R273). -/
def State.deferredSems (s : State) (e : Nat) : Nat → State
  | 0 => s
  | n + 1 => match s.shf.ops.find? fun o => o.eng == e && o.cfg.isNone with
    | none => s
    | some o =>
      if o.op ≠ 8 then s
      else
        let s1 : State := { s with shf := { s.shf with ops := s.shf.ops.filter fun x => x.num != o.num } }
        (s1.engineSem o).deferredSems e n

/-- The same for every engine with such a write: the operations before it may have been discarded by a function reset (R259). -/
def State.semTurns (s : State) : State :=
  ((s.shf.ops.filter fun o => o.op == 8).map (·.eng)).dedup.foldl (fun t e => t.deferredSems e s.shf.ops.length) s

/-- SHEAF_OP_COMPLETE (R267, R269, R273): SHF_ERES shows a completed operation of an entry, the first that is left of its
engine, and SM_EOP writes of its engine that waited may apply. -/
def execSheafOpComplete (entry : Fin 4096) (s : State) : Host.Outcome State Fault Refusal :=
  match s.shf.ended.find? fun o => o.ent == entry.val
      && ((s.shf.ended.find? fun x => x.eng == o.eng).map (·.num)) == some o.num with
  | none => .next s
  | some o => s.when true ((s.showOp o).deferredSems o.eng s.shf.ops.length)

/-! ### Registers (R257 to R259, R269) -/

/-- A write of SHF_ENTCFG takes its place in the entry's order (R259, R268). -/
def State.writeEntcfg (s : State) (entry : Nat) (v : W64) : State :=
  s.addOp { num := 0, ent := entry, op := 0, fmt := 0, fn := 0, eng := 0, inc := 0, addr := 0, plot := 0, sow := 0, queue := 0
            at' := 0, phase := .ready, status := 0, data := [], cfg := some (pack [(0, 9, fld v 0 9)]) }

/-- SHF_ENTCFG_WRITE (R257, R259). -/
def execShfEntcfgWrite (req : Req) (entry : Fin 4096) (value : W64) (s : State) : Host.Outcome State Fault Refusal :=
  s.regWrite req (0x18000 + entry * 8) (s.globalOk req) fun t => t.writeEntcfg entry value

/-- The value of SHF_ERES of engine `e`. -/
def State.shfEresOf (s : State) (e : Nat) : W64 :=
  let r := (s.engine e).shf
  let out := ((s.shfOut e).filter fun o => o.inc == (s.engine e).inc).length
  let flag (c : Rc) : Nat := c.seen (satAdd 1) s.now
  pack [(0, 8, r.lastst.toNat), (8, 8, r.firsterr.seen firstOf s.now), (16, 8, r.acc.toNat), (24, 8, r.cmp.toNat),
    (32, 4, out), (36, 1, flag r.inexact), (37, 1, flag r.range), (38, 1, flag r.nanout), (39, 1, flag r.lostseen)]

/-- A read of SHF_ERES (R269), of its low half, its high half or both: the reading engine's own, the RC fields in what it
reads cleared (log 110); any other requester that may reach the page reads 0. -/
def State.readShfEres (s : State) (req : Req) (page : Fin 256) (low high : Bool) : Host.Outcome State Fault Refusal :=
  let e := req.eng.val
  s.access req (pageBase page + 0x3908) (s.pageOk req page || s.engineReads req page) false fun t =>
    if req.src = .engine then
      let take (c : Rc) (b : Bool) : Rc := if b then c.read t.now else c
      (t.shfEresOf e, t.modShf e fun r => { r with
        firsterr := take r.firsterr low, inexact := take r.inexact high, range := take r.range high
        nanout := take r.nanout high, lostseen := take r.lostseen high })
    else (0, t)

/-- SHF_ERES (R269). -/
def execShfEres (req : Req) (page : Fin 256) (s : State) : Host.Outcome State Fault Refusal :=
  s.readShfEres req page true true

end Sys2Proof.Machine
end

