-- ==== Sys2Proof/Machine/Clock.lean ====
section
/-! DEFINITION. The system clock: what an sc ends with and the next one begins with, whatever is commanded (log 1). -/
namespace Sys2Proof.Machine

/-- An sc ends: its trace events are written in their order (R431), the adds it accepted read their data (R267, R268), the
packets completed in it become visible (R380), and the programs have run (R221; log 80). -/
def State.endSc (s : State) : State := (s.writeEvents.shfReads.showPackets).runPrograms

/-- Entries in the pools of every plot, as the sc that begins sees them (R141). -/
def State.poolOcc (s : State) : Tab Nat :=
  (List.range 64).foldl (fun t p => (t.put 0 p (s.readyOcc p)).put 0 (64 + p) (s.delayOcc p)) []

/-- The counters as the sc that ends leaves them, and the HARVEST commands of it, which the next edge serves (R440, R441). -/
def Harvest.turned (h : Harvest) : Harvest :=
  { h with before := h.live, damageWas := h.damageWas || h.damageNext, damageNext := false, want := h.want ++ h.asked, asked := [] }

/-- The masks as written apply to the events of the sc that begins (R432). -/
def Trace.turned (t : Trace) : Trace := { t with fnmaskOn := t.fnmask, plotmaskOn := t.plotmask }

/-- An sc begins: nothing has happened in it, the pools hold what they hold, and what the last one wrote takes effect. -/
def State.beginSc (s : State) : State :=
  { s with now := s.now + 1, inSc := { Moment.reset with occ := s.poolOcc }, hv := s.hv.turned, tr := s.tr.turned }

/-- The sheaf's entry writes of earlier scs take effect, SM_EOP writes that nothing stands before are applied, and the CC
serves the records that wait, at most 4 (R181, R259, R273). -/
def State.waitingWork (s : State) : State := s.cfgTurns.semTurns.ccServe.ccServe.ccServe.ccServe

/-- The next sc. A block that takes no step of its own (R413, R446) still has its clock. -/
def State.nextSc (s : State) : State :=
  if s.alive then s.endSc.beginSc.waitingWork else { s with now := s.now + 1 }

end Sys2Proof.Machine
end

