-- ==== Sys2Proof/Machine/Plots.lean ====
section
/-! DEFINITION. Plots (R338 to R361): regulators, preemption, resume, lending and reclaim; segments (R362 to R371). -/
namespace Sys2Proof.Machine

/-! ### Regulators (R343 to R347) -/

/-- The throttle level of plot `p`: the highest of the stacks with one of its engines (R347). -/
def State.throttle (s : State) (p : Nat) : Nat :=
  (List.range 8).foldl (fun m st =>
    if (List.range 64).any fun i => s.active (st * 64 + i) && s.plotOf (st * 64 + i) == p then
      max m (fld s.pins.therm (2 * st) 2) else m) 0

/-- A rate after the throttle factor, rounded down and at least 1 (R344, R347). -/
def throttled (rate level : Nat) : Nat :=
  max 1 (match level with
    | 0 => rate
    | 1 => rate * 3 / 4
    | 2 => rate / 2
    | _ => rate / 8)

/-- Task and save rates of plot `p` in force. -/
def State.rates (s : State) (p : Nat) : Nat × Nat :=
  let l := s.throttle p
  (throttled (s.plotCfg p).rate l, throttled (s.plotCfg p).saveRate l)

/-- The bucket an engine's read of PRU_EGRANT in page `n` is served from: plot, and whether it is the save bucket
(R345). An engine that holds a SAVE or RESTORE notice of the function draws for the save. -/
def State.grantFrom (s : State) (e n : Nat) : Option (Nat × Bool) :=
  let task := match (s.engine e).front with
    | .running t _ => some t
    | .driven t _ => some t
    | .committed t _ => some t
    | .empty => none
  let plot := match task.bind fun t => s.sowing? t.sow with | some w => w.plot | none => s.plotOf e
  match (s.engine e).notice with
  | some x => if x.kind ≠ 3 ∧ x.fn = n then some (plot, true) else if s.runsFn e n then some (plot, false) else none
  | none => if s.runsFn e n then some (plot, false) else none

/-- sc until a bucket of `tokens` at rate `f` holds 64 B: refills come every 64 sc (R344, R345). -/
def State.retrySc (s : State) (tokens : Int) (f : Nat) : Nat :=
  let need := (64 - tokens).toNat
  min 65535 (s.pru.refillAt + 64 * cdiv need (32 * f) - s.now)

/-- PRU_EGRANT (R345): an engine draws units of 64 B. -/
def execPruEgrant (req : Req) (page : Fin 256) (s : State) : Host.Outcome State Fault Refusal :=
  let e := req.eng.val
  s.access req (pageBase page + 0x4500) (s.pageOk req page || s.engineReads req page) false fun t =>
    match if req.src = .engine then t.grantFrom e page else none with
    | none => (0, t)
    | some (p, save) =>
      let have' := if save then (t.plot p).saveTokens else (t.plot p).tokens
      let n := if have' ≤ 0 then 0 else min 1024 (have' / 64).toNat
      let take (r : Plot) : Plot := if save then { r with saveTokens := r.saveTokens - (64 * n : Nat) }
        else { r with tokens := r.tokens - (64 * n : Nat) }
      let rate := if save then (t.rates p).2 else (t.rates p).1
      (pack [(0, 11, n), (11, 1, b2n save), (16, 16, if n = 0 then t.retrySc have' rate else 0)],
        ((t.modPlot p take).bumpPlot p (if save then 10 else 9) (64 * n)).bumpEng e 15 n)

/-! ### Plot commands (R348 to R350, R353, R358, R359) -/

/-- Function `n` may command plot `p` (R349). -/
def State.mayPlot (s : State) (n p : Nat) : Bool := n == 0 || n == (s.plotCfg p).owner

/-- Engine `e` runs a task of a plot, or a front-slot descriptor of one is in flight to it: that plot (R349). -/
def State.saveFor (s : State) (e : Nat) : Option Nat :=
  match (s.engine e).front with
  | .running t _ => if t.test then none else (s.sowing? t.sow).map (·.plot)
  | .driven t _ => if t.test then none else (s.sowing? t.sow).map (·.plot)
  | _ => none

/-- The status of plot `p`'s save area: it must translate in full (R355). -/
def State.areaStatus (s : State) (p : Nat) : Nat :=
  if fld (s.plot p).saveCfg 0 16 = 0 then 0
  else match s.areaAddr p 0 (fld (s.plot p).saveCfg 16 25 * 65536) .write with
    | .ok _ => 0
    | .fault => stSegFault
    | .stale => stSegStale

/-- The checks of a command that may save tasks from engines `l` (R349, R355): 0, or the failure. -/
def State.saveCheck (s : State) (l : List Nat) (plots : List Nat) : Nat :=
  match (plots.map s.areaStatus).find? (· != 0) with
  | some st => st
  | none =>
    if plots.any fun p => decide (s.sliceCount p - (s.plot p).busySlices.length < (l.filter fun e => s.saveFor e == some p).length)
    then 0x43 else 0

/-- A plot command under way. -/
def plotCmd (s : State) (q grain deadline : Nat) (wait : List Nat) (reclaim : Bool) : PlotCmd :=
  ⟨some q, grain, s.now, deadline, grain == 3, 0, 0, 0, false, false, wait, reclaim⟩

/-- Plot `p` is stopped, and holds queue `q` when it is bound to it: not the queue whose command stopped it (R350). -/
def State.holdsQueue (s : State) (q p : Nat) : Bool := (s.plot p).st != .running && (s.plot p).own != some q

/-- Queues bound to plot `p` are held before their next command, or go on (R350, R353). -/
def State.holdQueues (s : State) (p : Nat) : State :=
  { s with hcf := { s.hcf with queues := s.hcf.queues.map fun kv =>
    if kv.2.plot = p then (kv.1, kv.2.hold (s.holdsQueue kv.1 p) s.now) else kv } }

/-- PRU_QBIND of queue `q` (R342): held when its new plot is stopped. -/
def State.bindQueue (s : State) (q p : Nat) : State :=
  s.modQueue q fun r => { r with plot := p }.hold (s.holdsQueue q p) s.now

/-- The engines of `l` that a command waits for: a self-test is none of its business. -/
def State.waitFor (s : State) (l : List Nat) : List Nat :=
  l.filter fun e => !(s.engine e).quiet && !(s.engine e).inTest

/-- Asks every engine of `l` that runs or is about to run a task for a preemption. -/
def State.preemptAll (s : State) (l : List Nat) (grain : Nat) (c : Cause) : State :=
  l.foldl (fun t e => if (t.saveFor e).isSome then t.requestPreempt e grain c else t) s

/-- PLOT_PREEMPT takes effect (R350). -/
def State.beginPreempt (s : State) (q p grain deadline : Nat) : State :=
  let l := engineIds.filter fun e => s.active e && s.plotOf e == p
  let s1 := (s.stall q 14 .preempt).modPlot p fun r => { r with st := .preempting, own := some q, savePhase := false }
  let s2 := (l.foldl State.takeBackFront s1).holdQueues p
  let s3 := l.foldl (fun t e => t.withdraw e 2) s2
  let s4 := s3.modPlot p fun r => { r with cmd := some (plotCmd s q grain deadline (s3.waitFor l) false) }
  let s5 := if grain = 3 then s4 else s4.preemptAll l grain (.plot p)
  s5.finishPlot p

/-- PLOT_PREEMPT (R349, R350). -/
def execPlotPreempt (q : Fin 16384) (s : State) : Host.Outcome State Fault Refusal :=
  s.command q (fun p => opcode p == 0x40) fun k t =>
    let p := pf k 0 32 6
    let grain := pf k 0 38 2
    let l := engineIds.filter fun e => t.active e && t.plotOf e == p
    let c := if grain = 1 then 0 else t.saveCheck l [p]
    if !t.mayPlot (fnOfQueue q) p then t.retire q 0x40 0
    else if (t.plot p).st ≠ .running then t.retire q 0x41 0
    else if c ≠ 0 then t.retire q c 0
    else t.beginPreempt q p grain (pf k 3 0 20)

/-- An ESCALATE whose DEADLINE has passed acts as MID_TASK (R350). -/
def State.escalate (s : State) (c : PlotCmd) (cause : Cause) : State := s.preemptAll c.wait 2 cause

/-- DEADLINE µs of an ESCALATE have passed (R350). -/
def State.escalates (s : State) (c : Option PlotCmd) : Option PlotCmd :=
  c.filter fun x => x.escal && s.since x.at' (x.deadline * scPerUs)

/-- ESCALATE_DEADLINE (R350, R359): of a preemption of the plot, or of a reclaim of the home plot. -/
def execEscalateDeadline (plot : Fin 64) (s : State) : Host.Outcome State Fault Refusal :=
  let r := s.plot plot
  match s.escalates r.cmd, s.escalates r.move with
  | some c, _ => s.when true
      ((s.modPlot plot fun x => { x with cmd := some { c with escal := false } }).escalate c (.plot plot))
  | none, some c => s.when true
      ((s.modPlot plot fun x => { x with move := some { c with escal := false } }).escalate c (.reclaim plot))
  | none, none => .next s

/-- PLOT_RESUME (R349, R353). -/
def execPlotResume (q : Fin 16384) (s : State) : Host.Outcome State Fault Refusal :=
  s.command q (fun p => opcode p == 0x41) fun k t =>
    let p := pf k 0 32 6
    if !t.mayPlot (fnOfQueue q) p then t.retire q 0x40 0
    else if (t.plot p).st ≠ .preempted then t.retire q 0x41 0
    else ((t.modPlot p fun r => { r with st := .running, own := none }).holdQueues p).retire q 0 0

/-- An engine is to leave for plot `to`: its held descriptor is withdrawn, it takes no more work (R341). -/
def State.sendAway (s : State) (e to' : Nat) : State :=
  ((s.takeBackFront e).withdraw e 2).modEngine e fun r => { r with moving := some to' }

/-- Moves the engines of `l` (R341, R358, R359); `plan` the command. -/
def State.beginMove (s : State) (q p grain deadline : Nat) (l : List (Nat × Nat)) (reclaim : Bool) : State :=
  let es := l.map (·.1)
  let s1 := l.foldl (fun t x => t.sendAway x.1 x.2) (s.stall q 14 .lend)
  let s2 := s1.modPlot p fun r => { r with move := some (plotCmd s q grain deadline es reclaim) }
  let s3 := if reclaim && grain != 3 then s2.preemptAll es grain (.reclaim p) else s2
  es.foldl State.settleEngine s3

/-- Cluster `c` is in a mask. -/
def inMask (k : BitVec 512) (e : Nat) : Bool := pf k 2 (e / 16) 1 == 1

/-- PLOT_LEND (R349, R358). -/
def execPlotLend (q : Fin 16384) (s : State) : Host.Outcome State Fault Refusal :=
  s.command q (fun p => opcode p == 0x42) fun k t =>
    let p := pf k 0 32 6
    let l := engineIds.filter fun e => t.active e && (t.engCfg e).home == p && !(t.engine e).lent
      && (t.engine e).moving.isNone && (t.engCfg e).lendv && inMask k e
    if !t.mayPlot (fnOfQueue q) p then t.retire q 0x40 0
    else if (t.plot p).move.isSome then t.retire q 0x41 0
    else if l.isEmpty then t.retire q 0x42 0
    else t.beginMove q p 0 0 (l.map fun e => (e, (t.engCfg e).lend)) false

/-- PLOT_RECLAIM (R349, R359). -/
def execPlotReclaim (q : Fin 16384) (s : State) : Host.Outcome State Fault Refusal :=
  s.command q (fun p => opcode p == 0x43) fun k t =>
    let p := pf k 0 32 6
    let grain := pf k 0 38 2
    let l := engineIds.filter fun e => t.active e && (t.engCfg e).home == p && (t.engine e).lent
      && (t.engine e).moving.isNone && inMask k e
    let from' := (l.map fun e => (t.engCfg e).lend).dedup
    let c := if grain = 1 then 0 else t.saveCheck l from'
    if !t.mayPlot (fnOfQueue q) p then t.retire q 0x40 0
    else if (t.plot p).move.isSome then t.retire q 0x41 0
    else if l.isEmpty then t.retire q 0x42 0
    else if c ≠ 0 then t.retire q c 0
    else
      let t1 := from'.foldl (fun u b => if (u.plot b).cmd.isSome then u else u.modPlot b fun r => { r with savePhase := false }) t
      t1.beginMove q p grain (pf k 3 0 20) (l.map fun e => (e, p)) true

/-! ### Segments: installing (R363, R370) -/

/-- Legacy segments with VALID 1 among the keys `p` picks. -/
def State.legacyCount (s : State) (p : Nat → Bool) : Nat :=
  (s.pru.segs.filter fun kv => kv.2.leg && kv.2.valid && p kv.1).length

/-- INSTALL of segment `g` of function `n` (R363, R370). -/
def State.installSeg (s : State) (n g : Nat) : State :=
  let x := s.segment n g
  let fits := decide ((x.base.toNat + x.limit.toNat + 1) * 4096 ≤ 2 ^ 56)
  let legacy := !x.leg || (decide (x.limit.toNat ≤ 1048575) && decide (s.legacyCount (fun k => k / 16 == n) < 4)
    && decide (s.legacyCount (fun _ => true) < 64))
  if !x.valid && !x.wdraw && fits && legacy then s.modSegment n g fun r => { r with valid := true, stale := false } else s

/-- Offset of PRU_SEGCTL of segment `g` of function `n`. -/
def segctlAt (n g : Nat) : Nat := 0x50000 + (n * 16 + g) * 0x20 + 0x18

/-- PRU_SEGCTL_INSTALL. -/
def execPruSegctlInstall (req : Req) (fn : Fin 256) (seg : Fin 16) (s : State) : Host.Outcome State Fault Refusal :=
  s.regWrite req (segctlAt fn seg) (s.globalOk req) fun t => t.installSeg fn seg

/-! ### Segments: withdrawing (R365 to R369) -/

/-- The nodes' ENTRY of sowing key `k`, node `i`, names segment `g` of function `n`. -/
def State.namesSeg (s : State) (k i n g : Nat) : Bool :=
  match s.sowing? k with
  | some w => w.fn == n && segOf (nEntry (s.node w i)) == g
  | none => false

/-- A withdrawal begins (R365, steps 1 and 2). -/
def State.beginWithdraw (s : State) (n g : Nat) : State :=
  let l := (s.segment n g).holders
  let s1 := s.modSegment n g fun r => { r with wdraw := true, epoch := r.epoch + 1, unacked := l }
  let s2 := engineIds.foldl (fun t e =>
    let b := (t.engine e).back
    if b.st != .empty && t.namesSeg b.task.sow b.task.node n g then t.withdraw e 4 else t) s1
  l.foldl (fun t e => t.sendNotice e 3 n g) s2

/-- SEG_WITHDRAW (R365, R369). -/
def execSegWithdraw (q : Fin 16384) (s : State) : Host.Outcome State Fault Refusal :=
  s.command q (fun p => opcode p == 0x20) fun k t =>
    let n := fnOfQueue q
    let g := pf k 0 32 4
    let x := t.segment n g
    let join (u : State) : State := (u.modSegment n g fun r => { r with queues := r.queues ++ [q.val] }).stall q 8 .withdraw
    if x.wdraw then join t else if !x.valid then t.retire q 0 0 else join (t.beginWithdraw n g)

/-- A withdrawal with no command, where there is something to withdraw. -/
def State.withdrawSeg (s : State) (n g : Nat) : State :=
  let x := s.segment n g
  if x.valid && !x.wdraw then s.beginWithdraw n g else s

/-- PRU_SEGCTL_WITHDRAW (R363). -/
def execPruSegctlWithdraw (req : Req) (fn : Fin 256) (seg : Fin 16) (s : State) : Host.Outcome State Fault Refusal :=
  s.regWrite req (segctlAt fn seg) (s.globalOk req) fun t => t.withdrawSeg fn seg

/-- Plot `p`'s save area lies in segment `g` of function `n` (R368). -/
def State.areaIn (s : State) (p n g : Nat) : Bool :=
  (s.plotCfg p).owner == n && segOf (s.plot p).saveA == g && decide (fld (s.plot p).saveCfg 0 16 ≠ 0)

/-- Engine `e` saves into plot `p`'s area. -/
def State.savesInto (s : State) (e p : Nat) : Bool :=
  match (s.engine e).preempt with
  | some x => (match x.slice with | some (q, _) => q == p | none => false)
  | none => false

/-- Everything a withdrawal waits for is in (R365, step 4; R368): a transfer that is not issued yet never is (log 73). -/
def State.withdrawDone (s : State) (n g : Nat) : Bool :=
  let x := s.segment n g
  x.wdraw && x.unacked.isEmpty
    && s.mesh.out.all (fun t => !(t.purpose.attributed && t.fn == n && t.seg == some g))
    && (List.range 64).all fun p => !s.areaIn p n g || engineIds.all fun e => !s.savesInto e p

/-- Keys of the sowings with a saved task that names the segment, or that lies in a save area there (R368). -/
def State.savedIn (s : State) (n g : Nat) : List Nat :=
  s.pru.plots.flatMap fun kv => (kv.2.saved.filter fun x =>
    !x.begun && (s.areaIn kv.1 n g || s.namesSeg x.task.sow x.task.node n g)).map fun x => x.task.sow

/-- SEG_WITHDRAW_SIGNAL (R365, step 4; R368, R369). -/
def execSegWithdrawSignal (fn : Fin 256) (seg : Fin 16) (s : State) : Host.Outcome State Fault Refusal :=
  let x := s.segment fn seg
  let s1 := s.modSegment fn seg fun r => { r with
    valid := false, wdraw := false, stale := true, holders := [], queues := [], aside := [] }
  let s2 := (x.aside ++ s.savedIn fn seg).dedup.foldl (fun t k => t.failSowing k { code := 0x103 }) s1
  s.when (s.withdrawDone fn seg) (x.queues.foldl (fun t q => t.retire q 0 0) s2)

/-- Engine `e`'s task belongs to a function in reset, whose accesses are refused (R49). -/
def State.engineInReset (s : State) (e : Nat) : Bool :=
  match (s.engine e).front with
  | .running t _ => !t.test && s.inReset (t.sow / 2 ^ 32)
  | _ => false

/-- PRU_EWACK (R366): taken from an engine whose outstanding notice is this SEG_INVAL. -/
def execPruEwack (req : Req) (page : Fin 256) (value : W64) (s : State) : Host.Outcome State Fault Refusal :=
  let e := req.eng.val
  let ok := match (s.engine e).notice with
    | some x => x.kind == 3 && x.fn == page.val && x.nseq.toNat == fld value 0 8
    | none => false
  let g := match (s.engine e).notice with | some x => x.seg | none => 0
  s.regWrite req (pageBase page + 0x4508)
    (s.su.released && req.src == .engine && !s.engineInReset e && ok && (s.engine e).inc.toNat == fld value 8 8)
    fun t => (t.modSegment page g fun r => { r with unacked := r.unacked.filter (· != e) }).consumeNotice e 3

/-- An engine has not acknowledged SEG_INVAL, or its notice could not be written: it is taken out of service, and its
running task is lost (R367, R40). -/
def State.segNoAnswer (s : State) (e : Nat) (x : NoticeBlk) : State :=
  ((s.report x.fn { code := 0x10A, eng := some e, detail := 3 }).modEngine e fun r => { r with
    notice := none, noticeQ := r.noticeQ.filter fun y => y.1 != 3 }).noAnswer e 3

/-- SEG_INVAL_TIMEOUT (R367). -/
def execSegInvalTimeout (eng : Fin 512) (s : State) : Host.Outcome State Fault Refusal :=
  match (s.engine eng).notice with
  | some x => s.when (x.kind == 3 && s.since x.at' (2 ^ 20)) (s.segNoAnswer eng x)
  | none => .next s

/-! ### Engines' segment buffers (R364) -/

/-- V of a fill for a task of plot `p` (R364). -/
def State.fillValid (s : State) (x : Seg) (p : Nat) : Bool :=
  x.valid && !x.wdraw && (x.anyplot || x.plot.toNat == p) && !(x.leg && (s.plotCfg p).det)

/-- PRU_ESEG_FILL (R364): an engine that runs a task of the function reads a pair and joins the holders. -/
def execPruEsegFill (req : Req) (page : Fin 256) (seg : Fin 16) (limit : Bool) (s : State) : Host.Outcome State Fault Refusal :=
  let e := req.eng.val
  s.access req (pageBase page + 0x4400 + seg * 16 + (if limit then 8 else 0))
    (s.pageOk req page || s.engineReads req page) false fun t =>
    if req.src = .engine ∧ t.runsFn e page = true then
      let x := t.segment page seg
      (if limit then pack [(12, 36, x.limit.toNat), (48, 16, x.epoch.toNat)]
       else pack [(0, 1, b2n (t.fillValid x (t.taskPlot e))), (1, 1, b2n x.rd), (2, 1, b2n x.wr), (3, 1, b2n x.ex),
         (4, 1, b2n x.leg), (12, 44, x.base.toNat), (56, 8, x.epoch.toNat)],
       t.modSegment page seg fun r => { r with holders := if r.holders.contains e then r.holders else r.holders ++ [e] })
    else (0, t)

end Sys2Proof.Machine
end

