-- ==== Sys2Proof/Machine/Images.lean ====
section
/-! DEFINITION. The images that core 0 reads through the mesh: a field map (R389, R393, R394, R454) and the firmware (R452,
R453). Of each the header comes first, and the header says how much follows. -/
namespace Sys2Proof.Machine

/-- Core 0 reads some bytes of an image: a transfer that no function stands for (R40, R393). -/
def State.readImage (s : State) (u : Purpose) (addr bytes : Nat) : State :=
  s.issue (Xfer.make u 0 0 false addr bytes [] none none)

/-! ### Field maps (R389, R394, R396, R454) -/

/-- A LOAD of the image at `src` begins (R394). -/
def State.loadBegin (s : State) (src : Nat) : State :=
  ({ s with fm := { s.fm with
    state := .loading, shvalid := false, image := none, failed := false, head := [] } }).readImage (.mapImage true) src 64

/-- A RECALL begins (R394): the saved map is read, in its turn among the store's jobs (R62). -/
def State.recallBegin (s : State) : State :=
  ({ s with fm := { s.fm with
    state := .recalling, shvalid := false, image := none, failed := false, head := [] } }).nvRequest .recall

/-- Words of a map's image have arrived: the header, after which the rest of SIZE bytes is read unless the header is wrong,
or that rest. The image then waits for its checks. -/
def State.mapArrived (s : State) (x : Xfer) (head : Bool) (ws : Words) : State :=
  if !head then { s with fm := { s.fm with image := some (s.fm.head ++ ws) } }
  else if headerBad ws then { s with fm := { s.fm with image := some ws } }
  else ({ s with fm := { s.fm with head := ws } }).readImage (.mapImage false) (x.addr + 64) (fld (ws.at 1) 0 32 - 64)

/-- FM_LOAD: core 0 reads the image at FM_SRC through the mesh (R393, R394). -/
def execFmLoad (req : Req) (s : State) : Host.Outcome State Fault Refusal :=
  s.fmCommand req fun t => t.loadBegin t.fm.src.toNat

/-- FM_RECALL (R394). -/
def execFmRecall (req : Req) (s : State) : Host.Outcome State Fault Refusal := s.fmCommand req State.recallBegin

/-! ### Firmware (R452, R453) -/

/-- Offset of the first header field that breaks R452. -/
def fwHeaderBad (h : Words) : Option Nat :=
  let len := fld (h.at 1) 0 32
  let sig := fld (h.at 0) 48 16
  let entry := fld (h.at 1) 32 32
  if fld (h.at 0) 0 32 ≠ 0x57464B48 then some 0
  else if fld (h.at 0) 32 16 ≠ 1 then some 4
  else if !within sig 8 512 then some 6
  else if !within len 8 196608 || len % 8 != 0 then some 8
  else if entry % 2 ≠ 0 ∨ len ≤ entry then some 12
  else if fld (h.at 2) 32 32 ≠ 0 ∨ fld (h.at 3) 0 32 ≠ 0 then some 20
  else if fld (h.at 3) 32 32 ≠ 0 ∨ (h.drop 4).take 4 ≠ [0, 0, 0, 0] then some 28
  else none

/-- Words of the firmware image have arrived (R453, items 2 to 4): the header, which is checked; or CODE, with which the
packet goes out on the firmware side of channel 0. -/
def State.fwArrived (s : State) (x : Xfer) (code : Bool) (ws : Words) : State :=
  if code then
    let h := s.su.fwHeader
    let digest := sha384 (h ++ ws)
    let packet := [8, pack [(0, 32, fld (h.at 2) 0 32), (32, 16, fld (h.at 0) 48 16)]] ++ digest
      ++ [BitVec.ofNat 64 (x.addr + fld (h.at 1) 0 32)]
    State.modChannel { s with su := { s.su with fwCode := ws, fwDigest := digest, fwSent := true } } 0 fun c =>
      c.modTx true fun q => packet.foldl (fun y w => y.write w s.now) q
  else match fwHeaderBad ws with
    | some o => s.suStop 6 o
    | none => { s with su := { s.su with fwHeader := ws } }

/-- A read of the firmware image has failed finally: FW_READ, with the offset of the transaction that failed (R450). -/
def State.fwFailed (s : State) (x : Xfer) (code : Bool) : State := s.suStop 5 (x.pos + if code then 64 else 0)

end Sys2Proof.Machine
end

