-- ==== Sys2Proof/Machine/Links.lean ====
section
/-! DEFINITION. Link ports: HELLO exchanges, arrivals and departures of partners, reserved frames (R52, R53, R254,
R327). -/
namespace Sys2Proof.Machine

/-- ARG of PARTNER_ARRIVE and PARTNER_DEPART (R399). -/
def partnerArg (p : Nat) (h : HelloFrame) : W64 := pack [(0, 7, p), (8, 8, h.chip.toNat), (16, 16, h.field.toNat)]

/-- An announcement: an event for the control cores and an error log record (R53). -/
def State.announce (s : State) (code p : Nat) (h : HelloFrame) : State :=
  (s.coreEvent).errlog { code := code, arg := partnerArg p h }

/-- Partner `h` arrives on port `p` (R53, R327, R447). -/
def State.arrive (s : State) (p : Nat) (h : HelloFrame) : State :=
  (((s.modPort p fun r => { r with partner := some h }).announce 0x80C p h).masterReturns p h).suAdvance

/-- The partner of port `p` departs, when it has one (R53): messages and credits (R254), the yoke (R327, R330). -/
def State.depart (s : State) (p : Nat) : State :=
  match (s.port p).partner with
  | none => s
  | some h =>
    let s1 := (s.modPort p fun r => { r with partner := none, last := none, agreed := 0 }).announce 0x80D p h
    (if h.field.toNat = s.fm.active.chip.field then s1.linkLost h.chip.toNat else s1).yokeDeparts p

/-- LINK_UP (R52): exchanges begin on the port. -/
def execLinkUp (port : Fin 96) (s : State) : Host.Outcome State Fault Refusal :=
  let s1 : State := { s with pins := { s.pins with lsUp := s.pins.lsUp ||| BitVec.ofNat 96 (2 ^ port.val) } }
  s.when (!s.pins.lsUp.getLsbD port) (s1.modPort port fun r => { r with last := none, lastAt := s.now, agreed := 0 })

/-- PARTNER_DEPART (R52, R53): ls_up_i falls, and with it goes what is in flight. -/
def execPartnerDepart (port : Fin 96) (s : State) : Host.Outcome State Fault Refusal :=
  let s1 : State := { s with pins := { s.pins with
    lsUp := s.pins.lsUp &&& ~~~BitVec.ofNat 96 (2 ^ port.val), linkOut := s.pins.linkOut.del port } }
  s.when (s.pins.lsUp.getLsbD port) (s1.depart port)

/-- A HELLO frame of this chip: chip, field, acting role (R53). The places of the fields in the frame: log 47. -/
def State.helloWords (s : State) : Words :=
  let c := s.fm.active.chip
  [pack [(0, 8, 1), (16, 8, c.chip), (24, 16, c.field), (40, 2, s.yoke.role)]]

/-- HELLO_SEND (R53): every 16,384 sc, on every port whose ls_up_i is high. -/
def execHelloSend (s : State) : Host.Outcome State Fault Refusal :=
  let s1 := ((List.range 96).filter fun p => s.pins.lsUp.getLsbD p).foldl (fun t p => t.sendFrame p s.helloWords) s
  s.when (s.su.alignDone && s.since s.link.helloAt 16384) { s1 with link := { s1.link with helloAt := s.now } }

/-- HELLO (R53): two agreeing in every field announce an arrival, unless this partner is announced already. -/
def execHello (port : Fin 96) (frame : HelloFrame) (s : State) : Host.Outcome State Fault Refusal :=
  let r := s.port port
  let agree := r.last == some frame
  let s1 := s.modPort port fun r =>
    { r with last := some frame, lastAt := s.now, agreed := if agree then 2 else 1 }
  s.when (s.pins.lsUp.getLsbD port) (if agree && r.partner != some frame then s1.arrive port frame else s1)

/-- HELLO_SILENCE_TIMEOUT (R53): no HELLO for 65,536 sc. -/
def execHelloSilenceTimeout (port : Fin 96) (s : State) : Host.Outcome State Fault Refusal :=
  s.when (s.hasPartner port && s.since (s.port port).lastAt 65536) (s.depart port)

/-- A frame type that is reserved, or a YOKE frame of a reserved subtype (01_boundary.md, R322). -/
def reservedFrame (type subtype : Nat) : Bool :=
  !within type 1 4 || (type == 2 && !within subtype 1 8)

/-- RESERVED_FRAME (R52): discarded and counted. -/
def execReservedFrame (port : Fin 96) (type subtype : BitVec 8) (s : State) : Host.Outcome State Fault Refusal :=
  s.when (s.pins.lsUp.getLsbD port && reservedFrame type.toNat subtype.toNat)
    (s.modPort port fun r => { r with discarded := r.discarded + 1 })

end Sys2Proof.Machine
end

