-- ==== Sys2Proof/Machine/FnReset.lean ====
section
/-! DEFINITION. The function reset (R48 to R50, R414, R415), virtual functions and bus mastering (R50, R51). -/
namespace Sys2Proof.Machine

/-- The sowing key `k` is of function `n`. -/
def ofFn (n k : Nat) : Bool := k / 2 ^ 32 == n

/-! ### Steps 1 to 3 (R414) -/

/-- A transfer for an object that the reset of its function removes; those for engines, save areas, the trace, the
field map and the firmware go on. -/
def Purpose.resettable : Purpose → Bool
  | .wake _ | .notice _ | .trace .. | .mapImage _ | .firmware _ | .saveDir .. | .saveFree .. | .saveRead .. | .abandoned => false
  | .mbxNotify c => decide (2 ≤ c)
  | _ => true

/-- Function `n`'s transfers: those issued complete without effect, those that wait are not issued. -/
def State.abandonXfers (s : State) (n : Nat) : State :=
  { s with mesh := {
      out := s.mesh.out.map fun x => if x.fn == n && x.purpose.resettable then { x with purpose := .abandoned } else x
      waiting := s.mesh.waiting.filter fun x => !(x.fn == n && x.purpose.resettable) } }

/-- Queue `q`'s head command is abandoned without a result record; a preemption, lend or reclaim runs on without it
(R197, R414). -/
def State.abandonHead (s : State) (q : Nat) : State :=
  let drop (c : Option PlotCmd) : Option PlotCmd := c.map fun x => if x.q = some q then { x with q := none } else x
  let s1 := s.dropWaits q
  let s2 : State := { s1 with pru := { s1.pru with plots := s1.pru.plots.map fun kv =>
    (kv.1, { kv.2 with cmd := drop kv.2.cmd, move := drop kv.2.move }) } }
  s2.modQueue q fun r => { r.halted 0 false s.now with fetching := false, drop := false, failed := none }

/-- The queues of function `n` that are listed. -/
def State.queuesOf (s : State) (n : Nat) : List Nat := (s.hcf.queues.map (·.1)).filter fun q => fnOfQueue q == n

/-- Live and retired sowings of function `n`. -/
def State.sowingsOf (s : State) (n : Nat) : List (Nat × Sowing) := s.sow.live.filter fun kv => ofFn n kv.1

/-- Every flow that a node of sowing `k` holds or waits for goes on: the nodes are all lost (R152). -/
def State.freeFlows (s : State) (k : Nat) : State :=
  let s1 := s.dropFlows k
  s1.rla.flows.foldl (fun t kv => match kv.2.st with
    | .busy a _ => if a = k then t.nextFlow kv.1 else t
    | _ => t) s1

/-- A sowing ends with FN_RESET: no end action, its held descriptors withdrawn, its list entries dead, its flows free
(R116, R414). -/
def State.endByReset (s : State) (k : Nat) (w : Sowing) : State :=
  let s1 := (s.killEntries k).freeFlows k
  let s2 := engineIds.foldl (fun t e => if (t.engine e).back.task.sow = k then t.withdraw e 5 else t) s1
  let s3 := if w.st = .retired then s2
    else s2.capture ⟨0x0B, some w.fn, some w.plot, none, some w.id, none, 0x30A, 0⟩
  { s3 with sow := { s3.sow with live := s3.sow.live.del k }
            stu := { s3.stu with queue := s3.stu.queue.filter (· != k) } }

/-- Saved tasks of function `n` are abandoned, and their slices freed (R361). -/
def State.dropSaved (s : State) (n : Nat) : State :=
  s.pru.plots.foldl (fun t kv => (kv.2.saved.filter fun x => ofFn n x.task.sow).foldl (fun u x =>
    u.freeSlice kv.1 x.slice) t) s

/-- The tasks of function `n` that run: each is lost, and its engine preempted (R414, step 4). -/
def State.loseRunning (s : State) (n : Nat) : State :=
  engineIds.foldl (fun t e => match (t.engine e).front with
    | .running x _ => if !x.test && ofFn n x.sow then (t.cancelEngWait e false).lostToReset e n x else t
    | _ => t) s

/-- What else of function `n` ends at once: write bursts, programs, sends, messages that arrive, checks, sheaf operations,
decrements in the workspace (R69, R225, R254, R259, R414). A semaphore operation that stands behind sheaf operations stays, to
end as R240 and R243 say. -/
def State.dropPending (s : State) (n : Nat) : State :=
  let s1 := engineIds.foldl (fun t e =>
    if (t.engine e).sends.isEmpty then t
    else t.modEngine e fun r => { r with sends := r.sends.filter fun x => x.fn != n }) (s.dropPrograms n)
  let drop (c : Option Check) : Option Check := c.filter fun x => x.fn != n
  { s1 with
    mt := { s1.mt with bursts := s1.mt.bursts.filter fun a => a.req.fn.val != n }
    mrs := { s1.mrs with coming := s1.mrs.coming.filter fun x => x.fn != n }
    shf := { s1.shf with ops := s1.shf.ops.filter fun o => o.cfg.isSome || o.fn != n || o.op == 8 }
    de := { s1.de with
      fallow := s1.de.fallow.filter fun d => !ofFn n d.sow
      work := s1.de.work.filter fun x => !ofFn n x.1.sow }
    gs := { s1.gs with
      waitRes := s1.gs.waitRes.filter fun x => x.fn != n
      waitFal := s1.gs.waitFal.filter fun x => x.fn != n
      runRes := drop s1.gs.runRes
      runFal := drop s1.gs.runFal } }

/-- The function reset of `n` starts, or a request merges with the one in progress (R49, R414, R415). -/
def State.resetBegin (s : State) (n : Nat) (cause : BitVec 3) (pulse : Bool) : State :=
  match s.ftt.resets.look? n with
  | some r => { s with ftt := { s.ftt with resets := s.ftt.resets.ins n { r with pulse := r.pulse || pulse } } }
  | none =>
    let live := (s.sowingsOf n).filter fun kv => kv.2.st != .retired
    let s1 : State := { s with ftt := { s.ftt with
      resets := s.ftt.resets.ins n ⟨cause, pulse, [], s.now, live.length, 0, 0, 0⟩
      fnstat := s.ftt.fnstat.adj ⟨none, 0⟩ n fun f => { f with cause := cause } } }
    let s2 := (s1.queuesOf n).foldl State.abandonHead (s1.abandonXfers n)
    let s3 := ((s2.dropPending n).leaveBarriers n)
    let s4 := (s3.sowingsOf n).foldl (fun t kv => t.endByReset kv.1 kv.2) s3
    (s4.dropSaved n).loseRunning n

/-! ### Requests (R48 to R50, R415, R448) -/

/-- A pulse of hb_flr_done_o for function `n` (R48): in this sc, or in the first later one without a pulse. Before the
alignment it waits for it (R23). -/
def State.flrPulse (s : State) (n : Nat) : State :=
  if s.su.alignDone then
    let l := s.pins.flrDone.filter fun x => s.now ≤ x.1
    let t := match l.getLast? with | some x => x.1 + 1 | none => s.now
    { s with pins := { s.pins with flrDone := l ++ [(t, n)] } }
  else { s with pins := { s.pins with flrHeld := s.pins.flrHeld.filter (· != n) ++ [n] } }

/-- hb_flr_done_o in this sc, with hb_flr_dfn_o where it is high. -/
def State.flrDoneNow (s : State) : Option Nat := (s.pins.flrDone.find? fun x => x.1 == s.now).map (·.2)

/-- The pulses that waited for the alignment (R23). -/
def State.flrRelease (s : State) : State :=
  s.pins.flrHeld.foldl State.flrPulse { s with pins := { s.pins with flrHeld := [] } }

/-- FLR_REQUEST (R48); before release the function holds nothing and is answered at once (R448). -/
def execFlrRequest (fn : Fin 256) (s : State) : Host.Outcome State Fault Refusal :=
  s.when true
    (if s.su.released then s.resetBegin fn 1 true else s.flrPulse fn)

/-- VF_DISABLE (R50): every function that is no longer enabled is reset. -/
def execVfDisable (numvf : BitVec 8) (s : State) : Host.Outcome State Fault Refusal :=
  let old := s.pins.numvf.toNat
  let s1 : State := { s with pins := { s.pins with numvf := numvf } }
  s.when (s.su.released && decide (numvf.toNat < old))
    (((List.range 256).filter fun n => decide (numvf.toNat < n) && decide (n ≤ old)).foldl
      (fun t n => t.resetBegin n 3 false) s1)

/-- VF_ENABLE (R50). -/
def execVfEnable (numvf : BitVec 8) (s : State) : Host.Outcome State Fault Refusal :=
  s.when (s.su.released && decide (s.pins.numvf.toNat < numvf.toNat)) { s with pins := { s.pins with numvf := numvf } }

/-- Queues of function `n` that stalled on a signal write go on (R51). -/
def State.unstall (s : State) (n : Nat) : State :=
  (s.queuesOf n).foldl (fun t q => t.modQueue q fun r =>
    if r.st = .stalled ∧ r.wait = 1 ∧ r.head = .none then r.goOn s.now else r) s

/-- FTT_FNRST_GO (R415). -/
def execFttFnrstGo (req : Req) (value : W64) (s : State) : Host.Outcome State Fault Refusal :=
  s.regWrite req 0x80008 (s.globalOk req) fun t => if bit value 8 then t.resetBegin (fld value 0 8) 2 false else t

/-! ### Steps 4 to 6 (R414) -/

/-- Engine `e` holds a descriptor of function `n`, or one is on its way to it or runs on it. -/
def State.holdsFn (s : State) (e n : Nat) : Bool :=
  let r := s.engine e
  (r.back.st != .empty && ofFn n r.back.task.sow) || (match r.front with
    | .driven t _ | .running t _ => !t.test && ofFn n t.sow
    | _ => false)

/-- FN_RESET_ENGINE_TIMEOUT (R352, R414): 500 µs from the start of step 4. -/
def execFnResetEngineTimeout (fn : Fin 256) (eng : Fin 512) (s : State) : Host.Outcome State Fault Refusal :=
  match s.ftt.resets.look? fn with
  | none => .next s
  | some r =>
    let s1 : State := { s with ftt := { s.ftt with resets := s.ftt.resets.ins fn { r with silent := r.silent + 1 } } }
    let s2 := s1.report fn { code := 0x10A, eng := some eng.val, detail := 4 }
    s.when (s.since r.at' 1000000 && (r.wait.contains eng.val || s.holdsFn eng fn))
      ((s2.countPlot eng fun c => { c with noresp := true }).noAnswer eng 4)

/-- Semaphores of blocks that function `n` owns become 0 (R229). -/
def State.clearSems (s : State) (n : Nat) : State :=
  let l := ((s.sm.vals.map (·.1)) ++ s.sm.waiters.map (·.sem)).dedup.filter fun m => s.semOwner m == n
  l.foldl (fun t m => (t.setSem m 0).semEvaluate m) s

/-- Semaphore blocks that function `n` owns (R229). -/
def State.semBlocks (s : State) (n : Nat) : Nat :=
  let count (k : Nat) : Nat := (s.sm.acl.filter fun kv => fld kv.2 0 8 == k).length
  if n = 0 then 4096 - s.sm.acl.length + count 0 else count n

/-- Sheaf entries of function `n` are cleared (R259). -/
def State.clearSheaf (s : State) (n : Nat) : State :=
  let clear (t : Tab ShfEntry) (kv : Nat × ShfEntry) : Tab ShfEntry :=
    if kv.2.owner = n then t.put ShfEntry.reset kv.1 { ShfEntry.reset with owner := kv.2.owner, enable := kv.2.enable }
    else t
  { s with shf := { s.shf with ents := s.shf.ents.foldl clear s.shf.ents } }

/-- Sequence entries and model records of function `n` are freed (R300). -/
def State.clearStu (s : State) (n : Nat) : State :=
  let s1 := ((s.stu.seqs.filter fun kv => kv.2.fn == n).map (·.1)).foldl State.freeSeq s
  { s1 with stu := { s1.stu with models := s1.stu.models.filter fun kv => kv.2.fn != n } }

/-- A write of the save registers of plot `p` is ignored now (R355). -/
def State.saveLocked (s : State) (p : Nat) : Bool :=
  let r := s.plot p
  (r.saved.any fun x => !x.begun) || r.cmd.isSome || s.pru.plots.any fun kv =>
    match kv.2.move with
    | some c => c.reclaim && c.wait.any fun e => s.plotOf e == p || kv.1 == p
    | none => false

/-- The registers of a queue at their reset values; its plot binding and a hold of its plot stay (R195, R342). -/
def Queue.cleared (r : Queue) : Queue := { Queue.reset with plot := r.plot, held := r.held }

/-- The function page of `n` returns to its reset values (R414, step 5); the save registers of its plots where a write
would be taken (log 51). -/
def State.clearPage (s : State) (n : Nat) : State :=
  let s1 := (s.queuesOf n).foldl (fun t q => t.modQueue q Queue.cleared) s
  let s2 : State := { s1 with
    gs := { s1.gs with sealres := s1.gs.sealres.del n, sealloc := s1.gs.sealloc.del n, gqsel := s1.gs.gqsel.del n }
    stu := { s1.stu with seqsel := s1.stu.seqsel.del n }
    mrs := { s1.mrs with
      rx := s1.mrs.rx.del n
      credit := s1.mrs.credit.del n
      rings := s1.mrs.rings.filter fun kv => kv.1 / 512 != n
      pairs := s1.mrs.pairs.filter fun kv => pairFn kv.1 != n }
    mdu := { s1.mdu with chans := s1.mdu.chans.del (2 + n) }
    ftt := { s1.ftt with queues := s1.ftt.queues.del n } }
  ((List.range 64).filter fun p => (s.plotCfg p).owner == n && !s.saveLocked p).foldl
    (fun t p => t.modPlot p fun r => { r with saveA := 0, saveCfg := 0 }) (s2.releaseLocks n)

/-- FN_RESET_COMPLETE (R414, steps 5 and 6): not before the function's semaphores are zeroed at 8 per sc, which are 8 sc a
block (R229; log 109). -/
def execFnResetComplete (fn : Fin 256) (s : State) : Host.Outcome State Fault Refusal :=
  match s.ftt.resets.look? fn with
  | none => .next s
  | some r =>
    let hs := (s.gs.graphs.filter fun kv => kv.2.owner == fn.val).map (·.1)
    let s1 := hs.foldl State.freeGraph s
    let s2 := (((s1.clearSems fn).clearSheaf fn).clearStu fn).clearPage fn
    let s2 : State := { s2 with ftt := { s2.ftt with resets := s2.ftt.resets.del fn } }
    let s3 := if r.pulse then s2.flrPulse fn else s2
    s.when (r.wait.isEmpty && s.since r.at' (8 * s.semBlocks fn) && engineIds.all fun e => !s.holdsFn e fn)
      (s3.report fn
        { code := 0x30A, detail := r.cause.toNat
          arg := pack [(0, 16, r.sowings), (16, 24, r.tasks), (40, 16, hs.length), (56, 8, r.silent)] })

end Sys2Proof.Machine
end

