-- ==== Sys2Proof/Machine/Faults.lean ====
section
/-! DEFINITION. Storage errors, the FATAL state, the scrubber (R411 to R413, R419, R420, R436, R444), and the registers of
the fault queues and the error log (R404, R407). -/
namespace Sys2Proof.Machine

/-! ### The FATAL state (R413) -/

/-- ARG of a storage code (R399): memory ID, word, index. -/
def storageArg (mem : Nat) (word : BitVec 32) (index : Nat) : W64 := pack [(0, 8, mem), (8, 32, word.toNat), (40, 24, index)]

/-- An error that R411 marks FATAL: FTT_FATALINFO, a FATAL record, bit 30 of channels 0 and 1; from then on the block takes
no step (R413). -/
def State.goFatal (s : State) (mem : Nat) (word : BitVec 32) : State :=
  let info := pack [(0, 8, mem), (8, 32, word.toNat), (40, 1, 1)]
  let s1 := State.errlog { s with ftt := { s.ftt with fatal := true, fatalInfo := info } } { code := 0x880, arg := info }
  (s1.ringHost 0 0x40000000).ringHost 1 0x40000000

/-! ### Uncorrectable errors (R411) -/

/-- A second uncorrectable error of a word outside the GS adds a ROW entry to the repair record (R420). -/
def State.countRow (s : State) (mem : Nat) (word : BitVec 32) : State :=
  let m := BitVec.ofNat 8 mem
  if s.ftt.errWords.contains (m, word) then s.addRepair ⟨3, mem, 0x1FF, word⟩
  else { s with ftt := { s.ftt with errWords := s.ftt.errWords ++ [(m, word)] } }

/-- A GS bank: the reading sowing fails, the graph takes no launch until no sowing of it is live, a check of it ends with
ECC_FAIL, the bank is tested (R88, R411, R418). -/
def State.eccGs (s : State) (bank : Nat) (handle : Option Nat) (sow : Option Nat) (word : BitVec 32) : State :=
  let s1 := match sow with
    | some k => s.failSowing k { code := 0x401, arg := storageArg bank word (handle.getD 0) }
    | none => s
  let mark (h : Nat) (c : Option Check) : Option Check := c.map fun x => if x.handle = h then { x with ecc := true } else x
  let s2 := match handle with
    | some h =>
      let t := s1.modGraph h fun (g : Graph) => if g.st = GraphState.sealed then { g with eccBlock := true } else g
      let u : State := { t with gs := { t.gs with runRes := mark h t.gs.runRes, runFal := mark h t.gs.runFal } }
      let v := u.failLaunches h stGraphBusy
      if (v.liveOf h).isEmpty then v.openDamaged h else v
    | none => s1
  s2.testBank bank

/-- A sequence entry becomes FAULTED (R300); its marks take effect at its step's commit (R289). -/
def State.faultSeq (s : State) (i : Nat) : State :=
  match s.stu.seqs.look? i with
  | some x => s.setSeq i { x with st := .faulted }
  | none => s

/-- A model record: it is freed, and its sequences become FAULTED (R411). -/
def State.faultModel (s : State) (m : Nat) (x : Model) (word : BitVec 32) : State :=
  let s1 := ((s.stu.seqs.filter fun kv => kv.2.model == m).map (·.1)).foldl State.faultSeq s
  State.report { s1 with stu := { s1.stu with models := s1.stu.models.del m } } x.fn
    { code := 0x406, arg := storageArg 0x4D word m }

/-- A core's SRAM (R411): in a sandbox the program ends; elsewhere the core stops until block reset, with the program it
runs. -/
def State.eccCore (s : State) (c : Nat) (sandbox : Bool) (word : BitVec 32) : State :=
  let s1 := match s.prog? c with
    | some p => (s.report p.fn { code := 0x409, queue := some p.q, arg := storageArg (0x51 + c) word (c + 1) }).coreEnd c 0x1B 0
    | none => s
  if sandbox then s1 else { s1 with ccx := { s1.ccx with stopped := s1.ccx.stopped ++ [c] } }

/-- A damaged record of a fault queue is lost and counted in OVERFLOW; the word names it (log 52). -/
def FaultQ.lose (q : FaultQ) (word : BitVec 32) (now : Nat) : FaultQ :=
  if q.recs.isEmpty then q
  else
    let i := (word.toNat / 4) % q.recs.length
    { q with
      recs := q.recs.eraseIdx i, overflow := q.overflow.add (satAdd 24) 1 now
      fresh := if q.recs.length - q.fresh ≤ i then q.fresh - 1 else q.fresh }

/-- A damaged packet of queue `q`'s window is discarded and fetched again, the head's copy too unless the head command
is under way (R411). -/
def Queue.refetch (r : Queue) : Queue :=
  { r with win := if r.head = .none then [] else r.win.take 1, drop := r.fetching }

/-- Damaged queue registers: DISABLED at reset values (R411); declarations and binding lie elsewhere (R237, R342). -/
def State.eccQueue (s : State) (q : Nat) (word : BitVec 32) : State :=
  let busy := (s.queue q).fetching
  let s1 := (s.abandonHead q).modQueue q fun r => { r.cleared with decl := r.decl, drop := busy, fetching := busy }
  s1.report (fnOfQueue q) { code := 0x408, queue := some q, arg := storageArg 0x4F word 0 }

/-- Memory ID of a site (R411). -/
def memOf : EccSite → Nat
  | .gsBank b _ _ => b
  | .shadow .. => 0x48
  | .listEntry .. => 0x49
  | .listLinks => 0x4A
  | .semaphore _ => 0x4B
  | .sheaf _ => 0x4C
  | .seqEntry _ | .model _ => 0x4D
  | .segment .. => 0x4E
  | .windowPacket _ | .queueRegs _ => 0x4F
  | .core0 => 0x50
  | .core c _ => 0x51 + c
  | .faultRecord _ => 0x58
  | .traceBuffer => 0x59
  | .harvestShadow _ | .harvestCounter _ => 0x5A
  | .fieldMap => 0x5B
  | .drillTables => 0x5C
  | .ccBuffer _ => 0x5D
  | .fnState _ => 0x5E
  | .controlParity => 0x5F
  | .mailbox _ => 0x60

/-- What an uncorrectable error costs (R411, R436, R444). -/
def State.eccEffect (s : State) (site : EccSite) (word : BitVec 32) : State :=
  match site with
  | .gsBank b h w => s.eccGs b (h.map (·.toNat)) (w.map fun x => sowKey x.1 x.2) word
  | .shadow n id => s.failSowing (sowKey n id) { code := 0x402, arg := storageArg 0x48 word 0 }
  | .listEntry n id => s.failSowing (sowKey n id) { code := 0x403, arg := storageArg 0x49 word 0 }
  | .listLinks => s.goFatal 0x4A word
  | .semaphore m =>
    (((s.setSem m 0).report (s.semOwner m) { code := 0x404, arg := storageArg 0x4B word m })).semEvaluate m
  | .sheaf e =>
    let x := s.shf.ents.look ShfEntry.reset e
    State.report { s with shf := { s.shf with ents := s.shf.ents.put ShfEntry.reset e { x with poison := true } } } x.owner
      { code := 0x405, arg := storageArg 0x4C word e }
  | .seqEntry i => match s.stu.seqs.look? i with
    | some x => (s.faultSeq i).report x.fn { code := 0x406, arg := storageArg 0x4D word i }
    | none => s
  | .model m => match s.stu.models.look? m with
    | some x => s.faultModel m x word
    | none => s
  | .segment n g => (s.withdrawSeg n g).report n { code := 0x407, arg := storageArg 0x4E word g }
  | .windowPacket q => s.modQueue q Queue.refetch
  | .queueRegs q => s.eccQueue q word
  | .core0 => s.goFatal 0x50 word
  | .core c sandbox => s.eccCore c sandbox word
  | .faultRecord (some n) => s.modFaultQ n fun q => q.lose word s.now
  | .faultRecord none => { s with ftt := { s.ftt with log := s.ftt.log.lose word s.now } }
  | .traceBuffer => { s with tr := { s.tr with dropped := s.tr.dropped.add (satAdd 32) 1 s.now } }
  | .harvestShadow i =>
    { s with hv := { s.hv with shadow := s.hv.shadow.put 0 i 0xFFFFFFFFFFFFFFFF, damaged := true } }
  | .harvestCounter i => { s with hv := { s.hv with live := s.hv.live.put 0 i 0, damageNext := true } }
  | .fieldMap => s.goFatal 0x5B word
  | .drillTables => s.goFatal 0x5C word
  | .ccBuffer e => s.badRecord e
  | .fnState n => s.resetBegin n 4 false
  | .controlParity => s.goFatal 0x5F word
  | .mailbox c => (s.modChannel c fun r => { r with
      toFw := { WordQ.reset with ovr := r.toFw.ovr, und := r.toFw.und }
      toHost := { WordQ.reset with ovr := r.toHost.ovr, und := r.toHost.und } }).errlog
        { code := 0x81C, arg := BitVec.ofNat 64 c.val }

/-- An uncorrectable error at a site: a word outside the GS that takes its second one is recorded (R420), and it costs
what R411 says. -/
def State.eccAt (s : State) (site : EccSite) (word : BitVec 32) : State :=
  (if memOf site ≤ 0x41 then s else s.countRow (memOf site) word).eccEffect site word

/-- ECC_UNCORRECTABLE (R411). -/
def execEccUncorrectable (site : EccSite) (word : BitVec 32) (s : State) : Host.Outcome State Fault Refusal :=
  s.when true (s.eccAt site word)

/-! ### Corrected errors and the scrubber (R412, R419) -/

/-- A corrected error in memory `mem` (R412): CE, and a GS bank is tested. -/
def State.corrected (s : State) (mem : Nat) (word : BitVec 32) : State :=
  let s1 := s.errlog { code := 0x815, arg := storageArg mem word 0 }
  if mem ≤ 0x41 then (s1.modBank mem fun b => { b with ces := satAdd 8 b.ces 1 }).testBank mem else s1

/-- CE (R412). -/
def execCe (mem : BitVec 8) (word : BitVec 32) (s : State) : Host.Outcome State Fault Refusal :=
  s.when true (s.corrected mem.toNat word)

/-- The site without its reading sowing (R419). -/
def unread : EccSite → EccSite
  | .gsBank b h _ => .gsBank b h none
  | x => x

/-- PATROL_SCRUB (R419): one word is read; what it finds is handled as any other error. -/
def execPatrolScrub (found : Option (EccSite × BitVec 32)) (corrected : Option (BitVec 8 × BitVec 32)) (s : State) :
    Host.Outcome State Fault Refusal :=
  let s1 := match corrected with | some x => s.corrected x.1.toNat x.2 | none => s
  s.when true (match found with | some x => s1.eccAt (unread x.1) x.2 | none => s1)

/-! ### Registers of the fault queues (R404) and the error log (R407) -/

/-- The 64-bit words of a record: word `k`. -/
def recWord (r : BitVec 256) (k : Nat) : W64 := BitVec.ofNat 64 (fld r (64 * k) 64)

/-- FTT_FQSTAT, or FTT_ELSTAT with `log`. -/
def FaultQ.stat (q : FaultQ) (log : Bool) (now : Nat) : W64 :=
  let o := q.overflow.seen (satAdd 24) now
  let u := q.suppressed.seen (satAdd 24) now
  if log then pack [(0, 11, q.recs.length), (12, 24, o), (36, 24, u)] else pack [(0, 7, q.recs.length), (8, 24, o), (32, 24, u)]

/-- Its RC fields are cleared by the read (R404). -/
def FaultQ.cleared (q : FaultQ) (now : Nat) : FaultQ :=
  { q with overflow := q.overflow.read now, suppressed := q.suppressed.read now }
/-- A read of the low half, the high half or both clears the RC fields with a bit in what it reads (R14, R16; log 110). -/
def FaultQ.clearedBy (q : FaultQ) (log low high : Bool) (now : Nat) : FaultQ :=
  { q with
    overflow := if low || (log && high) then q.overflow.read now else q.overflow
    suppressed := if high then q.suppressed.read now else q.suppressed }
/-- POP: the head record is removed; nothing when there is none. -/
def FaultQ.pop (q : FaultQ) : FaultQ := { q with recs := q.recs.tail }
/-- Word `k` of the head record, 0 when there is none. -/
def FaultQ.data (q : FaultQ) (k : Nat) : W64 := match q.recs with | r :: _ => recWord r k | [] => 0
/-- VALID of GLSTAT. -/
def FaultQ.slots (q : FaultQ) (n : Nat) : W64 :=
  BitVec.ofNat 64 ((List.range n).foldl (fun m i => if (q.glean.look? i).isSome then m + 2 ^ i else m) 0)

/-- The four GLDATA words of a slot; `none` for one that held nothing (R404). -/
def Glean.encode (g : Option Glean) : BitVec 256 :=
  match g with
  | none => 0
  | some g =>
    BitVec.ofNat 256 (wordsNat [
      pack [(0, 16, g.code.toNat), (16, 1, 1), (17, 1, b2n g.fsow.isSome), (18, 1, b2n g.lsow.isSome), (32, 32, g.count)],
      pack [(0, 40, g.first.toNat)], pack [(0, 40, g.last.toNat)],
      pack [(0, 32, (g.fsow.getD 0).toNat), (32, 32, (g.lsow.getD 0).toNat)]])

/-- A slot is copied into GLDATA and freed; the reports of that sc are counted after the copy (R404). `n` slots hold codes
of their own. -/
def FaultQ.take (q : FaultQ) (n slot now : Nat) : FaultQ :=
  let was := (q.gleanAt now).del slot
  { q with
    taken := Glean.encode ((q.gleanAt now).look? slot)
    glean := (q.countedIn now).foldl (gleanIn n) was
    gleanWas := was, counted := q.countedIn now, countedAt := now }

/-- Changes the error log. -/
def State.modLog (s : State) (f : FaultQ → FaultQ) : State := { s with ftt := { s.ftt with log := f s.ftt.log } }

/-- FTT_FQSTAT_POP. -/
def execFttFqstatPop (req : Req) (page : Fin 256) (s : State) : Host.Outcome State Fault Refusal :=
  s.regWrite req (pageBase page + 0x5000) (s.pageOk req page) fun t => t.modFaultQ page FaultQ.pop
/-- FTT_FQSTAT_READ. -/
def execFttFqstatRead (req : Req) (page : Fin 256) (s : State) : Host.Outcome State Fault Refusal :=
  s.access req (pageBase page + 0x5000) (s.pageOk req page) false fun t =>
    ((t.faultQ page).stat false t.now, t.modFaultQ page fun q => q.cleared t.now)
/-- FTT_GLTAKE. -/
def execFttGltake (req : Req) (page : Fin 256) (slot : Fin 32) (s : State) : Host.Outcome State Fault Refusal :=
  s.regWrite req (pageBase page + 0x5030) (s.pageOk req page) fun t => t.modFaultQ page fun q => q.take 31 slot t.now
/-- FTT_ELSTAT_POP. -/
def execFttElstatPop (req : Req) (s : State) : Host.Outcome State Fault Refusal :=
  s.regWrite req 0x80010 (s.globalOk req) fun t => t.modLog FaultQ.pop
/-- FTT_ELSTAT_READ. -/
def execFttElstatRead (req : Req) (s : State) : Host.Outcome State Fault Refusal :=
  s.access req 0x80010 (s.globalOk req) false fun t => (t.ftt.log.stat true t.now, t.modLog fun q => q.cleared t.now)
/-- FTT_ELGLTAKE. -/
def execFttElgltake (req : Req) (slot : Fin 64) (s : State) : Host.Outcome State Fault Refusal :=
  s.regWrite req 0x80040 (s.globalOk req) fun t => t.modLog fun q => q.take 63 slot t.now

end Sys2Proof.Machine
end

