-- ==== Sys2Proof/Machine/FrontEnd.lean ====
section
/-! DEFINITION. The queues: fetching (R192, R208), the queue registers (R193 to R197), the timeout (R219, R220), and the
commands NOP, BUFFER, STREAM_SYNC and FENCE (R199, R206, R210, R213). -/
namespace Sys2Proof.Machine

/-! ### Fetching (R192 to R194, R208) -/

/-- COMMAND_FETCH: the next packet of queue `q`'s window is read in one aligned 64-byte transfer; an address that no
longer translates halts the queue once its packet is the head (R212). -/
def execCommandFetch (q : Fin 16384) (s : State) : Host.Outcome State Fault Refusal :=
  let r := s.queue q
  let n := fnOfQueue q
  match r.nextFetch with
  | none => .next s
  | some pos =>
    let a := r.fetchAddr pos
    let first := r.win.isEmpty && r.head == .none
    s.when ((r.st == .running || r.st == .stalled) && !r.held && !r.fetching && decide (r.win.length < 64) && !s.inReset n)
      (match s.translate n a 64 .read (some r.plot) true with
       | .ok p => (s.modQueue q fun x => { x with fetching := true }).issue
           (Xfer.make (.fetch q pos.1 pos.2.1 pos.2.2) n 2 false p 64 [] (some ⟨a, .read, some r.plot, true⟩) none)
       | .fault => if first then s.haltWith q stSegFault none 0 else s
       | .stale => if first then s.haltWith q stSegStale none 0 else s)

/-- A packet has arrived, unless the window was discarded meanwhile (R209); a fetch or prefetch that failed finally halts the
queue (R39, R40; log 53). -/
def State.fetched (s : State) (q : Nat) (pos : BitVec 32 × Nat × Bool) (data : Option Words) (status : Nat) : State :=
  let r := s.queue q
  let s1 := s.modQueue q fun x => { x with fetching := false, drop := false }
  if r.drop || r.nextFetch != some pos || r.st == .disabled || r.st == .halted then s1
  else match data with
    | some ws => s1.modQueue q fun x => { x with
        win := x.win ++ [⟨pos.1, pos.2.1, pos.2.2, BitVec.ofNat 512 (wordsNat (ws.take 8))⟩] }
    | none => s1.halt q ⟨status, false, some (none, 0)⟩

/-! ### Queue registers (R193, R195 to R197) -/

/-- Offset of queue `q`'s register at `r` of its block (R195). -/
def queueAt (q r : Nat) : Nat := pageBase (fnOfQueue q) + 0x2000 + (q % 64) * 0x40 + r

/-- A write of HCF_QDB (R193). -/
def State.doorbell (s : State) (q : Nat) (v : BitVec 32) : State :=
  let r := s.queue q
  let size := 2 ^ r.size
  if r.st = .disabled ∨ s.inReset (fnOfQueue q) = true ∨ v = r.wptr then s
  else if size < (v - r.rptr).toNat ∨ size < (v - r.wptr).toNat then
    s.report (fnOfQueue q) { code := 0x301, queue := some q, arg := v.zeroExtend 64 }
  else s.modQueue q fun x =>
    let y := { x with wptr := v }
    if y.st = .idle then y.settle s.now else y

/-- A write of HCF_QPTR: RPTR and WPTR, while ENABLE is 0 (R195). -/
def State.writeQptr (s : State) (q : Nat) (v : BitVec 32) : State :=
  s.modQueue q fun r => if r.enable then r else { r with rptr := v, wptr := v, bpos := 0, inbuf := false, win := [] }

/-- The ring of queue `q` lies wholly within its segment (R196). -/
def State.ringOk (s : State) (q : Nat) : Bool :=
  let r := s.queue q
  match s.translate (fnOfQueue q) (pack [(12, 36, r.off.toNat), (60, 4, r.seg.toNat)]) (64 * 2 ^ r.size) .read
    (some r.plot) true with
  | .ok _ => true
  | _ => false

/-- ENABLE is set (R196): the queue is held when its plot is (R350). -/
def State.enableQueue (s : State) (q : Nat) : State :=
  if (s.queue q).st ≠ .disabled then s
  else
    let s1 := s.modQueue q fun r => { r with enable := true, held := s.holdsQueue q r.plot }
    if s1.ringOk q then s1.modQueue q fun r => r.settle s.now else s1.haltWith q stSegFault none 0

/-- A write of HCF_QCFG: SIZE while ENABLE is 0, and ENABLE (R195, R196). -/
def State.writeQcfg (s : State) (q : Nat) (v : W64) : State :=
  if (s.queue q).enable then (if bit v 8 then s else (s.halt q ⟨0, true, none⟩).modQueue q fun r => { r with enable := false })
  else
    let s1 := s.modQueue q fun r => { r with size := max 6 (min 20 (fld v 0 5)) }
    if bit v 8 then s1.enableQueue q else s1

/-- RESUME, with SKIP past the head packet (R197): the timer goes on (R219). -/
def State.resume (s : State) (q : Nat) (skip : Bool) : State :=
  s.modQueue q fun r =>
    if r.st ≠ .halted then r
    else
      let r1 := if skip && (r.inbuf || r.rptr != r.wptr) then r.advance else r
      r1.goOn s.now

/-- A write of HCF_QCTRL: HALT goes before RESUME (R197). -/
def State.writeQctrl (s : State) (q : Nat) (v : W64) : State :=
  let st := (s.queue q).st
  if bit v 0 then (if st = .disabled ∨ st = .halted then s else s.halt q ⟨0, false, none⟩)
  else if bit v 1 then s.resume q (bit v 2) else s

/-- HCF_QDB (R193). -/
def execHcfQdb (req : Req) (q : Fin 16384) (value : BitVec 32) (s : State) : Host.Outcome State Fault Refusal :=
  s.regWrite req (queueAt q 0x18) (s.pageOk req (fnOfQueue q)) fun t => t.doorbell q value
/-- HCF_QPTR_WRITE (R195). -/
def execHcfQptrWrite (req : Req) (q : Fin 16384) (value : BitVec 32) (s : State) : Host.Outcome State Fault Refusal :=
  s.regWrite req (queueAt q 0x20) (s.pageOk req (fnOfQueue q)) fun t => t.writeQptr q value
/-- QUEUE_ENABLE: a write of HCF_QCFG with ENABLE (R196). -/
def execQueueEnable (req : Req) (q : Fin 16384) (value : W64) (s : State) : Host.Outcome State Fault Refusal :=
  s.regWrite req (queueAt q 0x08) (s.pageOk req (fnOfQueue q)) fun t => t.writeQcfg q (value ||| 0x100)
/-- QUEUE_DISABLE: a write of HCF_QCFG without ENABLE (R196). -/
def execQueueDisable (req : Req) (q : Fin 16384) (value : W64) (s : State) : Host.Outcome State Fault Refusal :=
  s.regWrite req (queueAt q 0x08) (s.pageOk req (fnOfQueue q)) fun t => t.writeQcfg q (value &&& ~~~(0x100 : W64))
/-- HALT: a write of HCF_QCTRL with HALT (R197). -/
def execHalt (req : Req) (q : Fin 16384) (value : W64) (s : State) : Host.Outcome State Fault Refusal :=
  s.regWrite req (queueAt q 0x38) (s.pageOk req (fnOfQueue q)) fun t => t.writeQctrl q (value ||| 1)
/-- RESUME (R197). -/
def execResume (req : Req) (q : Fin 16384) (s : State) : Host.Outcome State Fault Refusal :=
  s.regWrite req (queueAt q 0x38) (s.pageOk req (fnOfQueue q)) fun t => t.writeQctrl q 2
/-- SKIP, with RESUME (R197). -/
def execSkip (req : Req) (q : Fin 16384) (s : State) : Host.Outcome State Fault Refusal :=
  s.regWrite req (queueAt q 0x38) (s.pageOk req (fnOfQueue q)) fun t => t.writeQctrl q 6

/-! ### The timeout (R219, R220) -/

/-- The sowings that a timeout of queue `q` fails. -/
def State.timedSowings (s : State) (q : Nat) : List (Nat × Sowing) :=
  s.sow.live.filter fun kv => kv.2.queue == q && kv.2.cyc.isNone && kv.2.st == .active

/-- The earliest launched of some sowings. -/
def earliestSowing : List (Nat × Sowing) → Option Sowing
  | [] => none
  | x :: r => match earliestSowing r with
    | none => some x.2
    | some w => if x.2.ordinal < w.ordinal then some x.2 else some w

/-- QUEUE_TIMEOUT (R220): the head is abandoned as by HALT, the queue's live sowings fail, the queue halts with a record that
names them. The timer, which has fired, begins anew from 0 at a RESUME (log 85). -/
def execQueueTimeout (q : Fin 16384) (s : State) : Host.Outcome State Fault Refusal :=
  let r := s.queue q
  let l := s.timedSowings q
  let s1 := l.foldl (fun u kv => u.failSowing kv.1 { code := 0x218, silent := true }) s
  s.when (r.timer.isSome && decide (r.armed * scPerUs ≤ r.elapsed s.now))
    ((s1.modQueue q fun x => { x with timer := none, spent := 0 }).halt q
      ⟨stTimeout, false, some ((earliestSowing l).map (·.id), min l.length 65535)⟩)

/-! ### Commands of the front end itself -/

/-- NOP. -/
def execNop (q : Fin 16384) (s : State) : Host.Outcome State Fault Refusal :=
  s.command q (fun p => opcode p == 0x00 || !knownOpcode (opcode p)) fun _ t => t.retire q 0 0

/-- BUFFER (R206): its packets execute in its place; inside a buffer it fails. -/
def execBuffer (q : Fin 16384) (s : State) : Host.Outcome State Fault Refusal :=
  s.command q (fun p => opcode p == 0x01) fun p t =>
    if (t.queue q).inbuf then t.retire q stBadCommand 0
    else t.modQueue q fun r => { r with inbuf := true, bpos := 0, buf := p, win := r.win.tail }

/-- STREAM_SYNC (R210). -/
def execStreamSync (q : Fin 16384) (s : State) : Host.Outcome State Fault Refusal :=
  s.command q (fun p => opcode p == 0x02) fun _ t =>
    (t.modQueue q fun r => { r with win := r.win.take 1, drop := r.fetching }).retire q 0 0

/-- FENCE (R213). -/
def execFence (q : Fin 16384) (s : State) : Host.Outcome State Fault Refusal :=
  s.command q (fun p => opcode p == 0x03) fun p t =>
    let n := fnOfQueue q
    let wait (u : State) (k : Option Nat) : State :=
      if nowait p then u.retire q 0x15 0 else u.stall q 6 (.fence k)
    if pf p 0 32 2 = 0 then (if t.fencedPrior q then wait t none else t.fencePrior q)
    else
      let id := BitVec.ofNat 32 (pf p 2 0 32)
      match t.sow.lastId.look none n with
      | none => t.retire q 0x14 0
      | some last =>
        if idLater id last then t.retire q 0x14 0
        else if (t.sowing? (sowKey n id)).isSome then wait t (some (sowKey n id)) else t.retire q 0 0

end Sys2Proof.Machine
end

