-- ==== Sys2Proof/Machine/Trace.lean ====
section
/-! DEFINITION. Trace streaming and the trace registers (R432 to R434), and the harvest commands (R441, R442). The latch
itself is part of the tick edge (Tick.lean); capture is in Ops.lean. -/
namespace Sys2Proof.Machine

/-! ### The trace stream (R433, R434) -/

/-- S: the events the memory ring holds (R433). -/
def Trace.slots (t : Trace) : Nat := 2 ^ (t.ssize - 5)

/-- Room of the memory ring for events not yet issued (R433). -/
def Trace.room (t : Trace) : Nat := t.slots - ((t.wptr - t.rptr).toNat + t.issued)

/-- Index of the next event to issue, modulo 2^32. -/
def Trace.next (t : Trace) : Nat := (t.wptr + BitVec.ofNat 32 t.issued).toNat

/-- Events of the next burst: at most 8, in the buffer, with room in the ring, up to the ring's end (R433). -/
def Trace.burst (t : Trace) : Nat :=
  min (min 8 (t.fill - t.issued)) (min t.room (t.slots - t.next % t.slots))

/-- A burst may go: 8 events wait, or some wait and none has been captured for 256 sc (R433). -/
def State.streamReady (s : State) : Bool :=
  let t := s.tr
  t.stream && !t.failed && decide (0 < t.burst) && (decide (8 ≤ t.fill - t.issued) || s.since t.lastAt 256)

/-- Words of `n` events from index `i` of the buffer. -/
def Trace.events (t : Trace) (i n : Nat) : Words :=
  (List.range n).flatMap fun k => toWords 4 (t.buf.look 0 ((i + k) % 8192)).toNat

/-- TRACE_STREAM_BURST. -/
def execTraceStreamBurst (s : State) : Host.Outcome State Fault Refusal :=
  let t := s.tr
  let n := t.burst
  let i := t.next
  s.when s.streamReady
    (State.issue { s with tr := { t with issued := t.issued + n } }
      (Xfer.make (.trace i n) 0 0 true (t.sbase.toNat + i % t.slots * 32) (32 * n) (t.events i n) none none))

/-- WPTR advances over the acknowledged bursts that now follow it, at most `k` of them (R433). -/
def Trace.advance (t : Trace) : Nat → Trace
  | 0 => t
  | k + 1 => match t.ahead.look? t.wptr.toNat with
    | none => t
    | some n => Trace.advance { t with
        wptr := t.wptr + BitVec.ofNat 32 n, fill := t.fill - n, issued := t.issued - n
        ahead := t.ahead.del t.wptr.toNat } k

/-- A burst is acknowledged. -/
def State.traceAcked (s : State) (first n : Nat) : State :=
  let a := s.tr.ahead.ins first n
  { s with tr := Trace.advance { s.tr with ahead := a } a.length }

/-- Streaming writes on their way belong to a stream that has ended. -/
def State.dropTraceXfers (s : State) : State :=
  let f (x : Xfer) : Xfer := match x.purpose with
    | .trace .. => { x with purpose := .abandoned }
    | _ => x
  { s with mesh := { out := s.mesh.out.map f, waiting := s.mesh.waiting.filter fun x =>
    match x.purpose with | .trace .. => false | _ => true } }

/-- The stream ends: what was not acknowledged counts in DROPPED (R434), and FILL is 0 as in RING mode. -/
def Trace.cut (t : Trace) (now : Nat) : Trace :=
  { t with dropped := t.dropped.add (satAdd 32) t.fill now, fill := 0, issued := 0, ahead := [] }

/-- A streaming write has failed finally (R434). -/
def State.traceFailed (s : State) : State :=
  (State.dropTraceXfers { s with tr := { s.tr.cut s.now with failed := true } }).errlog { code := 0x80B }

/-! ### The trace registers (R432) -/

/-- Writes TR_CTRL (R432): setting ENABLE from 0 empties the buffer; MODE and TYPES are taken only while it is 0. -/
def State.writeTrCtrl (s : State) (v : W64) : State :=
  let t := s.tr
  if t.enable then { s with tr := { t with enable := bit v 0 } }
  else
    let s1 := if (t.stream && !bit v 1) || bit v 0
      then State.dropTraceXfers { s with tr := t.cut s.now } else s
    let u := { s1.tr with stream := bit v 1, types := BitVec.ofNat 16 (2 * fld v 3 15), enable := bit v 0 }
    { s1 with tr := if bit v 0 then { u with buf := [], failed := false, seq := 0, bwptr := 0, wptr := 0 } else u }

/-- TR_CTRL as it reads. -/
def Trace.ctrl (t : Trace) : W64 := pack [(0, 1, b2n t.enable), (1, 1, b2n t.stream), (2, 16, t.types.toNat)]

/-- TR_STAT as it reads. -/
def Trace.stat (t : Trace) (now : Nat) : W64 :=
  pack [(0, 14, t.fill), (14, 1, b2n t.failed), (15, 32, t.dropped.seen (satAdd 32) now)]

/-- A read of TR_STAT returns and clears DROPPED (R432). -/
def State.readTrStat (s : State) : W64 × State := (s.tr.stat s.now, { s with tr := { s.tr with dropped := s.tr.dropped.read s.now } })

/-- Writes TR_SSIZE: clamped to 12 to 36, ignored while ENABLE is 1 (R432). -/
def State.writeTrSsize (s : State) (v : W64) : State :=
  if s.tr.enable then s else { s with tr := { s.tr with ssize := max 12 (min 36 (fld v 0 6)) } }

/-- Writes TR_SBASE: ignored while ENABLE is 1 (R432). -/
def State.writeTrSbase (s : State) (v : W64) : State :=
  if s.tr.enable then s else { s with tr := { s.tr with sbase := pack [(12, 44, fld v 12 44)] } }

/-- TR_CTRL_WRITE. -/
def execTrCtrlWrite (req : Req) (value : W64) (s : State) : Host.Outcome State Fault Refusal :=
  s.regWrite req 0x84000 (s.globalOk req) fun t => t.writeTrCtrl value
/-- TR_STAT_READ. -/
def execTrStatRead (req : Req) (s : State) : Host.Outcome State Fault Refusal :=
  s.access req 0x84048 (s.globalOk req) false State.readTrStat

/-! ### Harvest (R441, R442) -/

/-- HARVEST (R441): from a queue of function 0, a latch is asked for at the next edge; NOWAIT is ignored. -/
def execHarvest (q : Fin 16384) (s : State) : Host.Outcome State Fault Refusal :=
  s.command q (fun p => opcode p == 0x21) fun _ t =>
    if fnOfQueue q ≠ 0 then t.retire q stBadCommand 0
    else (State.stall { t with hv := { t.hv with asked := t.hv.asked ++ [q.val] } } q 13 .harvest)

/-- Writes HV_CTRL (R442): PERIOD, OVERWRITE, and DONE, which clears HELD. -/
def State.writeHvCtrl (s : State) (v : W64) : State :=
  { s with hv := { s.hv with
    period := BitVec.ofNat 16 (fld v 0 16), overwrite := bit v 16, held := s.hv.held && !bit v 17 } }

/-- HV_CTRL as it reads: DONE reads 0. -/
def Harvest.ctrl (h : Harvest) : W64 := pack [(0, 16, h.period.toNat), (16, 1, b2n h.overwrite)]

/-- HV_STAT as it reads. -/
def Harvest.stat (h : Harvest) (now : Nat) : W64 :=
  pack [(0, 32, h.seq.toNat), (32, 1, b2n h.held), (33, 1, b2n h.overwritten.isSome), (34, 1, b2n h.damaged),
    (35, 16, h.skipped.seen (satAdd 16) now)]

/-- A read of HV_STAT returns and clears SKIPPED (R442). -/
def State.readHvStat (s : State) : W64 × State := (s.hv.stat s.now, { s with hv := { s.hv with skipped := s.hv.skipped.read s.now } })

/-- HV_DONE: HV_CTRL is written with DONE set and its other fields as they stand. -/
def execHvDone (req : Req) (s : State) : Host.Outcome State Fault Refusal :=
  s.regWrite req 0x85000 (s.globalOk req) fun t => t.writeHvCtrl (t.hv.ctrl ||| pack [(17, 1, 1)])
/-- HV_STAT_READ. -/
def execHvStatRead (req : Req) (s : State) : Host.Outcome State Fault Refusal :=
  s.access req 0x85008 (s.globalOk req) false State.readHvStat

end Sys2Proof.Machine
end

