-- ==== Sys2Proof/Machine/Mesh.lean ====
section
/-! DEFINITION. The mesh master (R38 to R41): responses, the one retry, the timeout, and what each kind of transfer does
when it ends. -/
namespace Sys2Proof.Machine

/-- The transfer leaves the mesh; its ID is free at once, after a timeout too (R40 does not say when: State.freeXferId). -/
def State.dropXfer (s : State) (x : Xfer) : State :=
  { s with mesh := { s.mesh with out := s.mesh.out.filter fun y => y.id != x.id } }

/-- Engines that a plot command or a move waits for go on. -/
def State.settleWaits (s : State) : State :=
  let l (c : Option PlotCmd) : List Nat := match c with | some x => x.wait | none => []
  (s.pru.plots.flatMap fun kv => l kv.2.cmd ++ l kv.2.move).dedup.foldl State.settleEngine s

/-- A save-directory write has failed finally: the save counts as SAVE_FAILED (R355, R40). -/
def State.saveDirFailed (s : State) (p i status : Nat) : State :=
  let s1 := s.report (s.plotCfg p).owner { transferReport status 7 none none with plot := some p }
  match (s.plot p).saved.find? fun x => x.slice == i with
  | none => s1
  | some x => ((s1.countPlot x.eng fun c => { c with saved := c.saved - 1, fail := true }).loseTask
      x.eng { x.task with slice := some (p, i) } { code := 0x10B, arg := BitVec.ofNat 64 i })

/-- A slice's directory entry is rewritten, or could not be (R356). -/
def State.sliceFreed (s : State) (p i : Nat) : State :=
  s.modPlot p fun r => { r with busySlices := r.busySlices.filter (· != i) }

/-- A notice write has failed finally (R40). -/
def State.noticeFailed (s : State) (e : Nat) : State :=
  match (s.engine e).notice with
  | none => s
  | some n =>
    if n.kind = 1 then
      (match (s.engine e).preempt, (s.engine e).front with
       | some p, .running t _ =>
         (((s.leaveStarted e t).dropSlice p).saveFailed e t ((p.slice.map (·.2)).getD 0)).noAnswer e 2
       | _, _ => s.noAnswer e 2)
    else if n.kind = 2 then (s.restoreLost e).consumeNotice e 2
    else (s.modSegment n.fn n.seg fun r => { r with unacked := r.unacked.filter (· != e) }).segNoAnswer e n

/-- The function of the task that engine `e` runs. -/
def State.taskFn? (s : State) (e : Nat) : Option Nat :=
  match (s.engine e).front with
  | .running t _ => if t.test then none else some (t.sow / 2 ^ 32)
  | _ => none

/-- A parked wake write has failed finally (R40, R400): the fault is charged to the task's function. -/
def State.wakeFailed (s : State) (e status : Nat) : State :=
  match s.taskFn? e with
  | some n => s.report n { transferReport status 9 none none with eng := some e }
  | none => s

/-- A transfer has ended with OK and data `ws` (empty for a write). -/
def State.xferOk (s : State) (x : Xfer) (ws : Words) : State :=
  match x.purpose with
  | .fetch q ring bpos inbuf => s.fetched q (ring, bpos, inbuf) (some ws) 0
  | .loadSrc q => s.loadEnded q (some ws) 0
  | .patchSrc q => s.patchRead q (some ws) 0
  | .coreImage _ c => s.coreImage c ws
  | .coreLoad c => s.coreLoaded c (some ws)
  | .coreStore c => s.coreStored c true
  | .result _ | .wake _ | .msgStatus _ | .abandoned => s
  | .endWrite k => s.endWritten k none
  | .layerWrite k l => (s.layerNext k l).endWritten k none
  | .endSignal k => s.endSignalled k none
  | .signal q => s.retire q 0 0
  | .layerRead k l v => ((s.layerBack k l v (ws.at 0)).layerNext k l).endContinue k
  | .fanin k => s.faninArrived k ws
  | .page h p | .spill h p => s.pageArrived h p ws
  | .counter _ _ => s.workAnswered ws
  | .check h => s.checkAnswered h ws true
  | .saveDir _ _ => s.settleWaits
  | .saveFree p i => s.sliceFreed p i
  | .saveRead p i e => s.restoreRead p i e (some ws)
  | .notice e => if s.noticeOf e x then s.noticeAcked e else s
  | .msgDesc e => s.descHere e ws
  | .msgPayload e => s.payloadHere e ws
  | .msgWrite e => s.payloadWritten e
  | .msgRecord e => s.recordWritten e
  | .rxPayload n f p => s.rxLanded n f p 0
  | .rxRecord n f p => s.rxRecorded n f p 0
  | .shfRead o => s.shfHere o (some ws) 0
  | .shfWrite o => s.shfWritten o 0
  | .workList k => s.listAcked k
  | .commitRead k => s.commitRead k ws
  | .commitWrite k => s.commitAcked k
  | .mbxNotify c => s.notified c true
  | .mapImage h => s.mapArrived x h ws
  | .firmware c => s.fwArrived x c ws
  | .trace i n => s.traceAcked i n

/-- A transfer has failed finally with `status`, MESH_ABORT or MESH_TIMEOUT (R40's table, and the paragraphs of the
transfers that are not in it). -/
def State.xferFailed (s : State) (x : Xfer) (status : Nat) : State :=
  let code := 0x200 + status
  match x.purpose with
  | .fetch q ring bpos inbuf => s.fetched q (ring, bpos, inbuf) none status
  | .loadSrc q => s.loadEnded q none status
  | .patchSrc q => s.patchRead q none status
  | .coreImage _ c => s.coreImageFailed c status
  | .coreLoad c => s.coreLoaded c none
  | .coreStore c => s.coreStored c false
  | .result q => s.report x.fn (transferReport status 1 (some q) none)
  | .wake e => s.wakeFailed e status
  | .msgStatus n => s.report n (transferReport status 8 none none)
  | .abandoned => s
  | .endWrite k => s.endWritten k (some status)
  | .layerWrite k l | .layerRead k l _ => (s.layerNext k l).endWritten k (some status)
  | .endSignal k => s.endSignalled k (some status)
  | .signal q => s.retire q status 0
  | .fanin k => s.failSowing k { code := code, detail := 6 }
  | .page h p | .spill h p => s.pageFailed h p code
  | .counter k _ => s.workFailed k code
  | .check h => s.checkAnswered h [] false
  | .saveDir p i => (s.saveDirFailed p i status).settleWaits
  | .saveFree p i => (s.report x.fn { transferReport status 7 none none with plot := some p }).sliceFreed p i
  | .saveRead p i e =>
    (s.report x.fn { transferReport status 7 none none with plot := some p }).restoreRead p i e none
  | .notice e => if s.noticeOf e x then s.noticeFailed e else s
  | .msgDesc e | .msgPayload e | .msgWrite e | .msgRecord e => s.sendFailed e status
  | .rxPayload n f p => s.rxLanded n f p status
  | .rxRecord n f p => s.rxRecorded n f p status
  | .shfRead o => s.shfHere o none status
  | .shfWrite o => s.shfWritten o status
  | .workList k => s.listFailed k status
  | .commitRead k | .commitWrite k => s.commitFailed k
  | .mbxNotify c => s.notified c false
  | .mapImage _ => { s with fm := { s.fm with failed := true } }
  | .firmware c => s.fwFailed x c
  | .trace .. => s.traceFailed

/-- Whether the address a transfer runs under still translates for what of it is not done: 0, SEG_FAULT or SEG_STALE (R41,
R212, R365). -/
def State.useStatus (s : State) (x : Xfer) : Nat :=
  match x.use with
  | none => 0
  | some u => match s.translate x.fn (u.addr + BitVec.ofNat 64 x.pos) (x.bytes - x.pos) u.need u.plot u.native with
    | .ok _ => 0
    | .fault => stSegFault
    | .stale => stSegStale

/-- A transfer that has waited, or whose next transaction is due, is issued when it may be: its address is checked first,
and one that no longer translates ends with that status and no request (R41, R212). -/
def State.reissue (s : State) (x : Xfer) : State :=
  if s.mayIssue x && !(s.mesh.waiting.any fun y => s.blocks y x) && s.useStatus x != 0 then s.xferFailed x (s.useStatus x)
  else s.issue x

/-- Issues what waits and now may go, in order. -/
def State.pump (s : State) : State :=
  s.mesh.waiting.foldl State.reissue { s with mesh := { s.mesh with waiting := [] } }

/-- The transaction of `x` under way has ended with OK and data `ws`: the transfer goes on with its next one, or has ended
(R38; log 25). An abandoned one goes no further (R414). -/
def State.partOk (s : State) (x : Xfer) (ws : Words) : State :=
  let got := x.got ++ ws
  if x.last || x.purpose == .abandoned then s.xferOk x got
  else s.reissue { x with pos := x.pos + x.part, got := got, second := false, retryAt := none }

/-- The outstanding transfer of an ID; one that waits for its retry has no response to come. -/
def State.xfer? (s : State) (id : Nat) : Option Xfer := s.mesh.out.find? fun x => x.id == id

/-- The data of a response fits the transaction: every word of a read. -/
def Xfer.fits (x : Xfer) (ws : Words) : Bool := x.write || ws.length == cdiv x.part 8

/-- A response for an ID that holds no transaction: discarded and counted in the error log (R40). -/
def State.lateResponse (s : State) (id : Nat) : State := s.errlog { code := 0x805, arg := BitVec.ofNat 64 id }

/-- MESH_RESPONSE (R39, R40). A transfer that was abandoned meanwhile is not issued again. -/
def execMeshResponse (id : Fin 512) (resp : Resp) (data : Words) (s : State) : Host.Outcome State Fault Refusal :=
  match s.xfer? id with
  | none => s.when true (s.lateResponse id)
  | some x =>
    if x.retryAt.isSome then s.when true (s.lateResponse id)
    else match resp with
      | .ok => s.when (x.fits data) (((s.dropXfer x).partOk x data).pump)
      | .tgtReset =>
        if x.second || x.purpose == .abandoned then s.when true (((s.dropXfer x).xferFailed x stMeshAbort).pump)
        else s.when true { s with mesh := { s.mesh with out := s.mesh.out.map fun y =>
          if y.id = x.id then { y with retryAt := some (s.now + 256) } else y } }
      | .tgtErr | .decode => s.when true (((s.dropXfer x).xferFailed x stMeshAbort).pump)

/-- MESH_RETRY (R39): the one further attempt, 256 sc after TGT_RESET; none for a transfer that was abandoned meanwhile. -/
def execMeshRetry (id : Fin 512) (s : State) : Host.Outcome State Fault Refusal :=
  match s.xfer? id with
  | none => .next s
  | some x => match x.retryAt with
    | none => .next s
    | some t => s.when (decide (t ≤ s.now))
      (if x.purpose == .abandoned then (s.dropXfer x).pump
       else { s with mesh := { s.mesh with out := s.mesh.out.map fun y =>
        if y.id = x.id then { y with retryAt := none, second := true, at' := s.now } else y } })

/-- MESH_TIMEOUT (R40): no response within 2^20 sc of the request. -/
def execMeshTimeout (id : Fin 512) (s : State) : Host.Outcome State Fault Refusal :=
  match s.xfer? id with
  | none => .next s
  | some x => s.when (x.retryAt.isNone && s.since x.at' (2 ^ 20))
      (((s.dropXfer x).xferFailed x stMeshTimeout).pump)

/-! ### The rows that name one transfer's answer, and those that let waiting transfers go -/

/-- NOTICE_ACK (R354): the mesh's response to the notice write, as MESH_RESPONSE with OK. -/
def execNoticeAck (eng : Fin 512) (s : State) : Host.Outcome State Fault Refusal :=
  match s.mesh.out.find? fun x => s.noticeOf eng x && x.retryAt.isNone with
  | none => .next s
  | some x => s.when true (((s.dropXfer x).noticeAcked eng).pump)

/-- MSG_DELIVERED (R250): the mesh's response to the arrival record of an engine's send, as MESH_RESPONSE with OK. -/
def execMsgDelivered (eng : Fin 512) (s : State) : Host.Outcome State Fault Refusal :=
  match s.mesh.out.find? fun x => x.purpose == .msgRecord eng && x.retryAt.isNone with
  | none => .next s
  | some x => s.when true (((s.dropXfer x).recordWritten eng).pump)

/-- BUS_MASTER_ENABLE_CHANGE (R51); before release the pins are not sampled (R448). -/
def execBusMasterEnableChange (fn : Fin 256) (enable : Bool) (s : State) : Host.Outcome State Fault Refusal :=
  let b := BitVec.ofNat 256 (2 ^ fn.val)
  let s1 : State := { s with pins := { s.pins with bme := if enable then s.pins.bme ||| b else s.pins.bme &&& ~~~b } }
  s.when s.su.released (if enable then (s1.unstall fn).pump else s1)

/-- BUCKET_REFILL (R344): 64 sc of tokens for every bucket; transfers that waited may go. -/
def execBucketRefill (s : State) : Host.Outcome State Fault Refusal :=
  let t := (List.range 64).foldl (fun t p =>
    let (a, b) := s.rates p
    let cap := s.bucketCap p
    let t1 := t.modPlot p fun r => { r with
      tokens := min cap (r.tokens + (32 * a : Nat)), saveTokens := min cap (r.saveTokens + (32 * b : Nat)) }
    if s.throttle p = 0 then t1 else t1.bumpPlot p 11 64)
    { s with pru := { s.pru with refillAt := s.now } }
  s.when (s.since s.pru.refillAt 64) t.pump

end Sys2Proof.Machine
end

