-- ==== Sys2Proof/Machine/StartUp.lean ====
section
/-! DEFINITION. Reset and start-up (R23, R59, R445 to R454), and the test access port (R60, R61). -/
namespace Sys2Proof.Machine

/-! ### Block reset and alignment (R23, R59, R64, R413, R446) -/

/-- What rst_n_i leaves: the store's words, an interrupted operation free (R64), and FTT_FATALINFO (R413). -/
def State.interrupted (s : State) : State :=
  match s.nv.ops, s.nv.issued with
  | op :: _, some _ => if s.nv.bound then s else s.nvSpoil op
  | _, _ => s

/-- BLOCK_RESET: rst_n_i falls, and has risen again: every register at its reset value, outputs low, start-up at step 1;
the levels of the input pins stand. -/
def execBlockReset (s : State) : Host.Outcome State Fault Refusal :=
  let t := s.interrupted
  let r := State.reset
  .next { r with
    pending := t.pending
    free := t.free
    pins := { r.pins with
      up := t.pins.up, rst := t.pins.rst, bme := t.pins.bme, numvf := t.pins.numvf, therm := t.pins.therm
      lsUp := t.pins.lsUp, tstMode := t.pins.tstMode, tstLock := t.pins.tstLock, jtag := t.pins.jtag
      nvBusy := t.pins.nvBusy }
    ftt := { r.ftt with fatalInfo := t.ftt.fatalInfo }
    nv := { r.nv with words := t.nv.words } }

/-- ALIGNMENT_PULSE (R59, R307): ignored once cr_align_done_o has risen; the sc after it rises is sc 0 of tick 0. Outputs
that waited for it are given (R23). -/
def execAlignmentPulse (markersPass : Bool) (s : State) : Host.Outcome State Fault Refusal :=
  let s1 : State := { s with su := { s.su with pulseAt := some s.now } }
  let s2 := State.suPass { s1 with
    su := { s1.su with alignDone := true }, tcs := { s1.tcs with start := s1.now + 1 } } 1
  s.when (s.su.step == 1 && !s.su.alignDone) (if markersPass then (s2.flrRelease.pump).nvRequest .records else s1)

/-- ALIGN_TIMEOUT (R59): 8,192 sc from the pulse. -/
def execAlignTimeout (crossing : BitVec 32) (s : State) : Host.Outcome State Fault Refusal :=
  s.when (s.su.step == 1 && !s.su.alignDone && match s.su.pulseAt with | some t => s.since t 8192 | none => false)
    (s.suStop 1 crossing.toNat)

/-! ### Step 2: the repair records (R425, R427, R445) -/

/-- Entries of the factory record. Its first word is taken to be OTP word 0. PRESUMED. -/
def factoryEntries : List RepairEntry :=
  (List.range (fld (Config.fuseWord 0) 16 16)).map fun i => RepairEntry.decode (Config.fuseWord (i + 1))

/-- First word of the factory record that breaks the header or CRC rules of R425. -/
def factoryBad : Option Nat :=
  let h := Config.fuseWord 0
  let n := fld h 16 16
  if fld h 0 16 ≠ 0x5246 ∨ 2045 < n then some 0
  else if Config.fuseWord (n + 1) ≠ BitVec.ofNat 64 (crc32 ((List.range (n + 1)).map Config.fuseWord)) then some (n + 1)
  else none

/-- Entries of the chosen field record with its generation (R427). -/
def State.fieldRecord (s : State) : List RepairEntry × Nat :=
  match s.newestRecord with
  | none => ([], 0)
  | some (a, g) =>
    ((List.range (fld (s.nvWord a) 16 16)).map fun i => RepairEntry.decode (s.nvWord (a + 1 + i)), g)

/-- One ENGINE entry takes effect: retired at the factory (1) or in the field (2), its spare (R424). -/
def State.recordEngine (s : State) (how : BitVec 2) (r : RepairEntry) : State :=
  if r.kind ≠ 1 then s
  else
    let s1 := s.modEngine r.unit fun x => { x with
      service := .retired
      repState := if x.repState = 0 then how else x.repState
      spare := if r.spare = 0x1FF then none else some r.spare }
    if r.spare = 0x1FF then s1 else s1.modEngine r.spare fun x => { x with serves := some r.unit }

/-- The repair map: the union of the factory record and the chosen record (R427). -/
def State.takeRecords (s : State) : State :=
  let (field, gen) := s.fieldRecord
  let s1 := factoryEntries.foldl (fun t r => t.recordEngine 1 r) s
  let s2 := field.foldl (fun t r => t.recordEngine 2 r) s1
  { s2 with ftt := { s2.ftt with
    entries := factoryEntries ++ field.filter fun r => !factoryEntries.contains r
    repgen := BitVec.ofNat 32 gen } }

/-- STARTUP_FUSE_READ (R445, step 2), once the field records are read from the store (R62): a fuse read that failed, with
its word address, stops start-up. -/
def execStartupFuseRead (failed : Option (BitVec 15)) (s : State) : Host.Outcome State Fault Refusal :=
  s.when (s.su.step == 2 && s.nv.job.isNone)
    (match failed, factoryBad with
     | some a, _ => s.suStop 2 a.toNat
     | none, some a => s.suStop 3 a
     | none, none => s.takeRecords.suPass 2)

/-! ### Step 3: BIST (R418, R424, R445) -/

/-- Logical banks are served by the physical banks that are not retired, in ascending order; the two highest of those
become spares (R424). -/
def State.layBanks (s : State) (bad : List Nat) : State :=
  let good := bankIds.filter fun b => !bad.contains b
  { s with ftt := { s.ftt with banks := bankIds.map fun b =>
    (b, if bad.contains b then (⟨2, 0, false, 0, 0, none, 0⟩ : Bank)
        else
          let i := good.idxOf b
          if i < 64 then ⟨0, i, true, 0, 0, none, 0⟩ else ⟨1, 0, false, 0, 0, none, 0⟩) } }

/-- STARTUP_BIST (R445, step 3). Banks and rows that the records name were repaired before the test; a repair of the test
is added to the record, and its commit follows step 8. -/
def execStartupBist (badBanks : List (Fin 66)) (rows : List BistRow) (s : State) : Host.Outcome State Fault Refusal :=
  let known := (s.ftt.entries.filter fun r => r.kind == 2).map (·.unit)
  let fresh := (badBanks.map (·.val)).dedup.filter fun b => !known.contains b
  let bad := bankIds.filter fun b => known.contains b || fresh.contains b
  let isNew (r : BistRow) : Bool := !s.ftt.entries.any fun x => x.kind == 3 && x.unit == r.mem.toNat && x.row == r.word
  let new : List RepairEntry := (fresh.map fun b => ⟨2, b, 0x1FF, 0⟩)
    ++ (rows.filter isNew).dedup.map fun r => ⟨3, r.mem.toNat, 0x1FF, r.word⟩
  let s1 : State := { s with ftt := { s.ftt with
    entries := s.ftt.entries ++ new, unsaved := s.ftt.unsaved || !new.isEmpty, wantCommit := !new.isEmpty } }
  s.when (s.su.step == 3)
    (match rows.find? fun r => !r.replaceable with
     | some r => s.suStop 4 (r.mem.toNat + r.word.toNat * 256)
     | none =>
       if 2 < bad.length then
         let (w, t) := s.drawWord
         t.suStop 4 (fresh.headD 0 + fld w 0 32 * 256)
       else (s1.layBanks bad).suPass 3)

/-! ### Step 4: firmware (R451 to R453) -/

/-- Write of SU_FWSRC (R451): ignored once step 4 has begun, its wait for VALID apart. -/
def State.writeFwsrc (s : State) (v : W64) : State :=
  let t := s.su.step
  if s.su.released then s
  else if decide (1 ≤ t) && (decide (t < 4) || (t == 4 && !bit s.su.fwsrc 0)) then
    { s with su := { s.su with
      fwsrc := pack [(0, 1, fld v 0 1), (6, 50, fld v 6 50)]
      stepAt := if t = 4 ∧ bit v 0 = true then s.now else s.su.stepAt } }
  else s

/-- SU_FWSRC_WRITE. -/
def execSuFwsrcWrite (req : Req) (value : W64) (s : State) : Host.Outcome State Fault Refusal :=
  s.regWrite req 0x100000 (s.secureOk req) fun t => t.writeFwsrc value

/-- Write of SU_FMSRC (R451): ignored once step 5 has begun, its wait for a source apart. -/
def State.writeFmsrc (s : State) (v : W64) : State :=
  let t := s.su.step
  if s.su.released then s
  else if decide (1 ≤ t) && (decide (t < 5) || (t == 5 && !bit s.su.fmsrc 0 && s.fm.swap.isNone)) then
    { s with su := { s.su with fmsrc := pack [(0, 1, fld v 0 1), (6, 50, fld v 6 50)] } }
  else s

/-- SU_FMSRC_WRITE. -/
def execSuFmsrcWrite (req : Req) (value : W64) (s : State) : Host.Outcome State Fault Refusal :=
  s.regWrite req 0x100008 (s.secureOk req) fun t => t.writeFmsrc value

/-- FIRMWARE_BOOT (R453): the boot ROM begins to read the image at SU_FWSRC: its header, or, once that has passed its
checks, its CODE. -/
def execFirmwareBoot (code : Bool) (s : State) : Host.Outcome State Fault Refusal :=
  let u := s.su
  let src := fld u.fwsrc 6 50 * 64
  if code then
    s.when (u.step == 4 && !u.fwHeader.isEmpty && !u.fwCopying)
      (State.readImage { s with su := { u with fwCopying := true } } (.firmware true) (src + 64) (fld (u.fwHeader.at 1) 0 32))
  else
    s.when (u.step == 4 && bit u.fwsrc 0 && !u.fwBegun)
      (State.readImage { s with su := { u with fwBegun := true } } (.firmware false) src 64)

/-- FIRMWARE_REPLY (R453, items 5 and 6): a packet of any other LEN, or one before the HGS's own, is ignored. Acceptance
starts the firmware at ENTRY: step 4 has passed. -/
def execFirmwareReply (len : Fin 16) (word : W64) (s : State) : Host.Outcome State Fault Refusal :=
  s.when (s.su.step == 4 && s.su.fwSent && len.val == 1) (if word = 0 then s.suPass 4 else s.suStop 7 word.toNat)

/-! ### Step 5: the field map (R454) -/

/-- The saved map is yet to be tried (R454). -/
def State.mayRecall (s : State) : Bool := s.fm.boot == .none && !s.nv.gone

/-- STARTUP_FIELD_MAP: the saved map is recalled; or, where it was refused or the store is unavailable, the image at
SU_FMSRC is loaded once its VALID is 1. -/
def execStartupFieldMap (load : Bool) (s : State) : Host.Outcome State Fault Refusal :=
  let begun (b : MapTry) : State := { s with fm := { s.fm with busyAt := s.now, boot := b } }
  let go := s.su.step == 5 && s.fm.swap.isNone && s.fm.state == .idle
  if load then
    s.when (go && !s.mayRecall && bit s.su.fmsrc 0) ((begun .loading).loadBegin (fld s.su.fmsrc 6 50 * 64))
  else s.when (go && s.mayRecall) (begun .recalling).recallBegin

/-! ### Steps 6 to 8 (R445, R447, R449) -/

/-- Active engines whose test is not over: neither in service nor retired. -/
def State.untested (s : State) : List Nat :=
  engineIds.filter fun e => s.active e && (engineKind? e).isSome
    && (s.engine e).service != .inService && (s.engine e).service != .retired

/-- Engines still TESTING (R190). -/
def State.testing (s : State) : Nat :=
  (engineIds.filter fun e => s.active e && (s.engine e).service == .testing).length

/-- Step 8 has passed (R449): the pins are sampled, every function starts with its queues DISABLED and its registers at
their reset values, RELEASED rises; `late` when the bound was reached. -/
def State.release (s : State) (numvf : BitVec 8) (bme : BitVec 256) (late : Bool) : State :=
  let n := s.testing
  let s1 := (List.range 256).foldl State.clearPage s
  let s2 : State := { s1 with
    su := { s1.su with
      passed := s1.su.passed ||| 0x80, step := 0, released := true, testlate := late, releasedAt := s.now
      detail := if late then BitVec.ofNat 64 n else s1.su.detail }
    pins := { s1.pins with numvf := numvf, bme := bme }
    ftt := { s1.ftt with wantCommit := false } }
  if s1.ftt.wantCommit then s2.requestCommit else s2

/-- STARTUP_RELEASE. -/
def execStartupRelease (numvf : BitVec 8) (bme : BitVec 256) (s : State) : Host.Outcome State Fault Refusal :=
  s.when (s.su.step == 8 && s.untested.isEmpty) (s.release numvf bme false)

/-- A step that ends with a failure whose SU_DETAIL the spec gives only to the event that names it: the value is free
(log 3). -/
def State.suStopFree (s : State) (code : Nat) : State := let (w, t) := s.drawWord; t.suStop code w.toNat

/-- Step `k` ends at its bound, and the next begins (R447). -/
def State.degrade (s : State) (k : Nat) : State :=
  State.suAdvance { s with su := { s.su with yokedeg := true, step := k + 1, stepAt := s.now } }

/-- A source for step 5 exists. -/
def State.mapSource (s : State) : Bool := (s.fm.boot == .none && s.savedMap?.isSome) || bit s.su.fmsrc 0
/-- Start-up recalls, loads or swaps its map. -/
def State.mapUnderWay (s : State) : Bool := s.fm.swap.isSome || s.fm.boot == .recalling || s.fm.boot == .loading

/-- STARTUP_STEP_TIMEOUT (R445, R447). -/
def execStartupStepTimeout (s : State) : Host.Outcome State Fault Refusal :=
  let t := s.su.stepAt
  match s.su.step with
  | 1 => s.when (!s.su.alignDone && match s.su.pulseAt with | some p => s.since p 8192 | none => false) (s.suStopFree 1)
  | 2 => s.when (s.since t 400000) (s.suStopFree 2)
  | 3 => s.when (s.since t 16000000) (s.suStopFree 4)
  | 4 => s.when (s.since t (if bit s.su.fwsrc 0 then 200000000 else 20000000000)) (s.suStop 8 0)
  | 5 =>
    if s.mapUnderWay then
      s.when (s.since s.fm.busyAt 6000064) (s.suStop 0x0A (s.fm.err.toNat + s.fm.erridx.toNat * 32))
    else if s.mapSource then
      s.when (s.since t 20004000000) (s.suStop 0x0A (s.fm.err.toNat + s.fm.erridx.toNat * 32))
    else s.when (s.since t 20000000000) (s.suStop 9 0)
  | 6 => s.when (s.since t 200000000) (s.degrade 6)
  | 7 => s.when (s.since t (8 * s.period)) (s.degrade 7)
  | 8 => s.when (s.since t 8000000) (s.release s.pins.numvf s.pins.bme true)
  | _ => .next s

/-! ### SU_STAT (R450) -/

/-- ELAPSED: µs since rst_n_i rose, stopped at release. -/
def State.elapsedUs (s : State) : Nat :=
  min (((if s.su.released then s.su.releasedAt else s.now) - s.su.riseAt) / scPerUs) (2 ^ 32 - 1)

/-- SU_STAT as it reads. -/
def State.suStat (s : State) : W64 :=
  let u := s.su
  pack [(0, 8, u.passed.toNat), (8, 4, u.step), (12, 1, b2n u.failed), (13, 1, b2n u.released), (14, 1, b2n u.yokedeg),
    (15, 1, b2n u.testlate), (16, 8, u.code.toNat), (32, 32, s.elapsedUs)]

/-! ### Test access (R60, R61) -/

/-- JTAG_INSTRUCTION: under tst_lock_i only BYPASS and IDCODE act; with tst_mode_i low the instruments report status
only. What an instrument does in manufacturing test is not the HGS's (log 54). -/
def execJtagInstruction (op : JtagOp) (s : State) : Host.Outcome State Fault Refusal :=
  let ok := match op with
    | .bypass | .idcode => true
    | .status => !s.pins.tstLock
    | .startBist | .writeRepair => !s.pins.tstLock && s.pins.tstMode
  .next (if ok then { s with pins := { s.pins with jtag := op } } else s)

end Sys2Proof.Machine
end

