-- ==== Sys2Proof/Machine/BringUp.lean ====
section
/-! DEFINITION. The bring-up aids: dispatch loopback (R455, R456) and the synthetic graph generator (R457, R458). -/
namespace Sys2Proof.Machine

/-! ### Dispatch loopback -/

/-- Engine `e` is BUSY, holds a back-slot descriptor, or is TESTING (R455). -/
def State.loopBusy (s : State) (e : Nat) : Bool :=
  (s.engine e).front != .empty || (s.engine e).back.st != .empty || (s.engine e).service == .testing

/-- Write of SU_LOOP (R455): ignored while an engine of a changed cluster is busy; every engine of a changed cluster has
its incarnation raised and returns under R186. -/
def State.writeLoop (s : State) (v : W64) : State :=
  let changed := (List.range 32).filter fun c => bit v c != s.looped c
  let es := (changed.flatMap clusterEngines).filter fun e => (engineKind? e).isSome
  if es.any s.loopBusy then s
  else
    let s1 : State := { s with su := { s.su with
      loop := v, loopStarts := s.su.loopStarts.filter fun kv => !changed.contains kv.1 } }
    es.foldl (fun t e => (t.raiseInc e).modEngine e fun r => { r with
      token := none, flushed := false, emptyOk := false, testAt := none
      service := if r.service == .retired then .retired else .away }) s1

/-- SU_LOOP_WRITE: a secure requester's. -/
def execSuLoopWrite (req : Req) (value : W64) (s : State) : Host.Outcome State Fault Refusal :=
  s.regWrite req 0x90010 (s.secureOk req) fun t => t.writeLoop value

/-- Task time of the responder: 0 is taken as 1 (R455). -/
def State.loopTime (s : State) : Nat := max 1 (fld s.su.loop 32 16)

/-- The responder's completion record for the task that engine `e` runs (R456): TASK_FAULT for every FAULTN-th start. The
DETAIL of a fault is not stated: free (log 3). -/
def State.loopRecord (s : State) (e : Nat) (t : Task) (seq : BitVec 16) : CplRec × State :=
  let entry := match s.sowing? t.sow with | some w => nEntry (s.node w t.node) | none => 0
  let bad := !t.test && s.su.loopStarts.look 0 (64 + e) == 1
  let (w, s1) := s.drawWord
  (⟨t.sow % 2 ^ 32, t.node, t.sow / 2 ^ 32, e % 16, (s.engine e).inc, seq, b2n bad, false,
    if t.test then 0 else entry ^^^ BitVec.ofNat 64 t.node, s.loopTime, if bad then fld w 0 16 else 0⟩,
   if bad then s1 else s)

/-- The task that engine `e` runs has taken its time. -/
def State.loopDone (s : State) (e : Nat) : Host.Outcome State Fault Refusal :=
  match (s.engine e).front, (s.engine e).started with
  | .running t since, (seq, _) :: _ =>
    let (c, u) := s.loopRecord e t seq
    s.when (s.since since s.loopTime) (u.takeRecord (e / 16) c)
  | _, _ => .next s

/-- The token outstanding at engine `e` is answered 2 sc after it (R26, R169). -/
def State.loopToken (s : State) (e : Nat) : Host.Outcome State Fault Refusal :=
  if !s.since (s.engine e).tokenAt 2 then .next s
  else match (s.engine e).token, (s.engine e).back.st with
    | some 0, .releasing => s.onTokenStarted e
    | some 1, .withdrawing => s.onTokenWithdrawn e
    | some 2, _ => s.onTokenFlushed e
    | some _, _ => s.onTokenEmpty e
    | none, _ => .next s

/-- The preempt request driven to engine `e` is answered (R456). -/
def State.loopPreempt (s : State) (e : Nat) : Host.Outcome State Fault Refusal :=
  match s.requested? e, (s.engine e).front with
  | some p, .running .. =>
    if p.grain = 2 ∧ (match p.driven with | some t => s.since t 2 | none => false) = true then s.onPreemptSaved e else .next s
  | some p, _ => if p.grain = 2 then s.onPreemptIdle e else s.onPreemptAtBoundary e
  | none, _ => .next s

/-- A SEG_INVAL notice is acknowledged as by PRU_EWACK (R366, R456). -/
def State.loopSeg (s : State) (e : Nat) : Host.Outcome State Fault Refusal :=
  match (s.engine e).notice with
  | some n => s.when (n.kind == 3 && n.acked)
      ((s.modSegment n.fn n.seg fun r => { r with unacked := r.unacked.filter (· != e) }).consumeNotice e 3)
  | none => .next s

/-- LOOPBACK_RESPONSE (R456). -/
def execLoopbackResponse (eng : Fin 512) (event : LoopEvent) (s : State) : Host.Outcome State Fault Refusal :=
  if !s.looped (eng / 16) then .next s
  else match event with
    | .descriptorAck => (match (s.engine eng).unacked with
      | some (_, t) => if s.since t 3 then s.onDescriptorAccepted eng else .next s
      | none => .next s)
    | .token => s.loopToken eng
    | .completion => s.loopDone eng
    | .preempt => s.loopPreempt eng
    | .segInval => s.loopSeg eng

/-! ### The synthetic graph generator -/

/-- SU_GENCFG's fields (R457). -/
def genShape (v : W64) : Nat := fld v 16 2
/-- W; a CHAIN has one node to a layer (R458). -/
def genW (v : W64) : Nat := if genShape v = 0 then 1 else fld v 18 12
/-- D. -/
def genD (v : W64) : Nat := fld v 30 12
/-- Out-edges of a node that is not in the last layer. -/
def genF (v : W64) : Nat := match genShape v with
  | 0 => 1
  | 1 => 2
  | _ => fld v 42 4
/-- N′ (R458). -/
def genNodes (v : W64) : Nat := genW v * genD v
/-- E′ (R458). -/
def genEdges (v : W64) : Nat := genF v * genW v * (genD v - 1)

/-- RES of the operand checks, in R458's order. -/
def State.genCheck (s : State) (v : W64) : Nat :=
  match (s.graph? (fld v 0 16)).filter fun g => g.owner == 0 with
  | none => 1
  | some g =>
    if g.st ≠ .opened then 2
    else if genShape v = 3 then (if g.fallow then 3 else 4)
    else if g.fallow || decide (g.n < genNodes v) || decide (g.e < genEdges v) then 3
    else if g.l ≠ 0 ∧ g.l < genD v then 4
    else 0

/-- Targets of `k` random edges into the layer that starts at node `base`, `w` wide, with the xorshift state after
them. -/
def genRandom (base w : Nat) : Nat → W64 → List Nat × W64
  | 0, x => ([], x)
  | k + 1, x =>
    let y := xorshift x
    let (l, z) := genRandom base w k y
    ((base + y.toNat % w) :: l, z)

/-- Targets of node `i` with the xorshift state after them (R458). -/
def genTargets (v : W64) (i : Nat) (x : W64) : List Nat × W64 :=
  let w := genW v
  let l := i / w
  let base := (l + 1) * w
  if genD v ≤ l + 1 then ([], x)
  else match genShape v with
    | 0 => ([i + 1], x)
    | 1 => ([base + i % w, base + (i % w + 1) % w], x)
    | _ => genRandom base w (genF v) x

/-- The targets of nodes `i` and on, `n` of them. -/
def genAll (v : W64) : Nat → Nat → W64 → List (List Nat)
  | 0, _, _ => []
  | n + 1, i, x => let (l, y) := genTargets v i x; l :: genAll v n (i + 1) y

/-- An edge word: TARGET, LAST, PRODUCER (R80, R458). -/
def edgeWord (target : Nat) (first last : Bool) : BitVec 32 :=
  BitVec.ofNat 32 (target % 1048576 + target / 1048576 % 64 * 1048576 + b2n last * 67108864 + b2n first * 134217728)

/-- The edges of one node from slot `o` on. -/
def putEdges (t : Tab (BitVec 32)) (o : Nat) (first : Bool) : List Nat → Tab (BitVec 32)
  | [] => t
  | x :: r => putEdges (t.put 0 o (edgeWord x first r.isEmpty)) (o + 1) false r

/-- A generated node record (R81, R458). -/
def genNode (v entry : W64) (layered : Bool) (i fanin fanout off : Nat) : BitVec 512 :=
  let kind := fld v 46 4
  BitVec.ofNat 512 (wordsNat
    [if kind = 15 then 0 else entry, pack [(0, 16, fanin), (16, 16, fanout), (32, 4, kind)], pack [(0, 23, if fanout = 0 then 0 else off)],
     pack [(48, 12, if layered then i / genW v else 0)], 0, 0, 0, 0])

/-- A NULL node with no edges. -/
def nullNode : BitVec 512 := BitVec.ofNat 512 (wordsNat [0, pack [(32, 4, 15)]])

/-- Nodes and edges of the generated graph, node `i` and on, edge slot `o` and on. -/
def genFill (v entry : W64) (layered : Bool) (fanin : Tab Nat) (g : Graph) : Nat → Nat → List (List Nat) → Graph
  | _, _, [] => g
  | i, o, l :: r =>
    genFill v entry layered fanin { g with
      nodes := g.nodes.put 0 i (genNode v entry layered i (fanin.look 0 i) l.length o)
      edges := putEdges g.edges o true l } (i + 1) (o + l.length) r

/-- The graph as the generator leaves it (R458). -/
def Graph.generated (g : Graph) (v seed entry : W64) : Graph :=
  let all := genAll v (genNodes v) 0 (if seed = 0 then 1 else seed)
  let fanin := all.flatten.foldl (fun (t : Tab Nat) x => t.adj 0 x (· + 1)) []
  let g1 := genFill v entry (decide (g.l ≠ 0) && decide (genD v ≤ g.l)) fanin g 0 0 all
  { g1 with nodes := g1.nodes.putAll 0 (genNodes v) (List.replicate (g.n - genNodes v) nullNode) }

/-- Write of SU_GENCTL: GO starts the generator when it is not BUSY (R457, R458). -/
def State.generatorGo (s : State) : State :=
  if s.su.genbusy then s
  else
    let res := s.genCheck s.su.gencfg
    { s with su := { s.su with genres := BitVec.ofNat 3 res, genbusy := decide (res = 0), genAt := s.now } }

/-- SU_GENCTL_GO. -/
def execSuGenctlGo (req : Req) (s : State) : Host.Outcome State Fault Refusal :=
  s.regWrite req 0x90038 (s.globalOk req) State.generatorGo

/-- Time of a generation: 4 nodes and 16 edges per sc (R458). -/
def State.genTime (s : State) : Nat :=
  match s.graph? (fld s.su.gencfg 0 16) with
  | some g => cdiv g.n 4 + cdiv (genEdges s.su.gencfg) 16
  | none => 0

/-- GENERATION_DONE (R457, R458): the records stand in the graph, which is still OPEN and of function 0. -/
def execGenerationDone (s : State) : Host.Outcome State Fault Refusal :=
  let v := s.su.gencfg
  let s1 : State := { s with su := { s.su with genbusy := false } }
  s.when (s.su.genbusy && s.since s.su.genAt s.genTime)
    (match (s.graph? (fld v 0 16)).filter fun g => g.owner == 0 && g.st == .opened with
     | some g => s1.setGraph (fld v 0 16) (g.generated v s.su.genseed s.su.genentry)
     | none => s1)

end Sys2Proof.Machine
end

