-- ==== Sys2Proof/Machine/GlobalPage.lean ====
section
/-! DEFINITION. The registers of the global page (R19, R43): what each reads as, and what a write does to it. -/
namespace Sys2Proof.Machine

/-- A write as a register sees it: `m` is the register's present value with the written half replaced (for fields that
hold what is written), `a` the written half alone with 0 in the other (for W1C, W1S and WO fields), `low` whether the
low half [31:0] is written (R14, R16; log 16 for 32-bit writes). -/
structure RegVal where
  m   : W64
  a   : W64
  low : Bool

/-- Index of offset `o` in an array of `n` registers of 8 bytes at `base`. -/
def slot? (o base n : Nat) : Option Nat := if base ≤ o ∧ o < base + 8 * n then some ((o - base) / 8) else none

/-- A register at one offset. -/
def reg? {α : Type} (o base : Nat) (v : Unit → α) : Option α := if o = base then some (v ()) else none

/-- The first entry of a page's table that names the offset. -/
def firstReg {α : Type} : List (Option α) → Option α
  | [] => none
  | some v :: _ => some v
  | none :: r => firstReg r

/-! ### Images of the registers -/

/-- GS_FREE, or GS_LARGEST (R71). -/
def poolWord (nodes edges pages : Nat) : W64 := pack [(0, 21, nodes), (21, 24, edges), (45, 14, pages)]

/-- RLA_PLOTSTAT of plot `p` (R145). -/
def State.rlaPlotstat (s : State) (p : Nat) : W64 :=
  let aged := (List.range 3).flatMap fun k => (List.range 32).filter fun j => s.aged p k (j / 16) (j % 16)
  pack [(0, 19, s.readyOcc p), (19, 17, s.delayOcc p),
    (36, 20, min 1048575 (s.rla.pend.filter fun x => x.plot == p).length), (56, 7, aged.length)]

/-- STATE of DCS_ENGSTAT (R190). -/
def State.engState (s : State) (e : Nat) : Nat :=
  let r := s.engine e
  if (engineKind? e).isNone then 0
  else if r.service = .retired then 8
  else if !s.active e then 1
  else match s.domain (e / 16) with
    | .unavailable => 7
    | .asleep => 6
    | .waking _ => 6
    | _ => match r.service with
      | .returning => 4
      | .testing => 5
      | .inService => if r.front = .empty then 2 else 3
      | _ => 9

/-- BACK of DCS_ENGSTAT (R190). -/
def BackState.code : BackState → Nat
  | .empty => 0
  | .writing => 1
  | .held => 2
  | .pending => 3
  | .releasing => 4
  | .withdrawing => 5

/-- DCS_ENGSTAT of engine `e`; an unpopulated ID reads 0 (R8, R190). -/
def State.engstat (s : State) (e : Nat) : W64 :=
  let r := s.engine e
  let asked := match r.preempt with | some x => x.driven.isSome | none => false
  if (engineKind? e).isNone then 0
  else pack [(0, 4, s.engState e), (4, 3, r.back.st.code), (7, 6, s.plotOf e), (13, 9, (s.engCfg e).logical),
    (22, 1, b2n (s.active e)), (23, 8, r.inc.toNat), (31, 16, r.seqx.toNat), (47, 1, b2n (r.token.isSome || asked))]

/-- DCS_RAMPSTAT (R191). -/
def State.rampstat (s : State) : W64 :=
  pack [(0, 8, s.inForce), (8, 8, s.reserves), (16, 8, s.dcs.usedShared + (s.dcs.usedRsv.map (·.2)).sum),
    (24, 10, s.dcs.queue.length)]

/-- FM_STAT.STATE (R393). -/
def FmState.code : FmState → Nat
  | .idle => 0
  | .loading => 1
  | .swapPending => 2
  | .saving => 3
  | .recalling => 4

/-- FM_STAT (R393). -/
def State.fmStat (s : State) : W64 :=
  pack [(0, 3, s.fm.state.code), (3, 1, b2n s.fm.shvalid), (4, 5, s.fm.err.toNat), (9, 13, s.fm.erridx.toNat),
    (22, 16, s.fm.active.gen.toNat), (38, 16, s.fm.shadow.gen.toNat), (54, 8, s.fm.edits.toNat)]

/-- TCS_TICKNOW and TCS_FTICK (R307, R335). -/
def State.ticknow (s : State) : W64 :=
  pack [(0, 48, s.tcs.tick.toNat), (48, 8, s.tcs.tick.toNat % s.fm.active.chip.cycleTicks), (56, 1, b2n s.yoke.joined),
    (57, 1, b2n s.tcs.inHead)]

/-- TCS_YOKESTAT (R337). -/
def State.yokestat (s : State) : W64 :=
  let y := s.yoke
  pack [(0, 2, y.role), (2, 1, b2n y.joined), (3, 8, s.fm.active.chip.chip), (11, 9, y.count), (20, 2, y.hops),
    (22, 7, y.port), (29, 16, s.fm.active.chip.field), (45, 1, b2n y.promoted), (46, 9, y.theta.toNat)]

/-- PRU_SEGBASE, PRU_SEGLIM, PRU_SEGATTR and PRU_SEGCTL of a segment: register `k` of its block (R363). -/
def Seg.word (g : Seg) (k : Nat) : W64 :=
  match k with
  | 0 => pack [(12, 44, g.base.toNat)]
  | 1 => pack [(12, 36, g.limit.toNat)]
  | 2 => pack [(0, 1, b2n g.valid), (1, 1, b2n g.rd), (2, 1, b2n g.wr), (3, 1, b2n g.ex), (4, 1, b2n g.anyplot),
      (5, 6, g.plot.toNat), (11, 1, b2n g.leg), (12, 1, b2n g.wdraw), (13, 1, b2n g.stale), (16, 16, g.epoch.toNat)]
  | _ => 0

/-- STATE of PRU_PLOTSTAT (R373). -/
def PlotState.code : PlotState → Nat
  | .running => 0
  | .preempting => 1
  | .preempted => 2

/-- PRU_PLOTSTAT of plot `p` (R373). -/
def State.pruPlotstat (s : State) (p : Nat) : W64 :=
  let n (f : Nat → Bool) : Nat := (engineIds.filter fun e => s.active e && f e).length
  let r := s.plot p
  pack [(0, 2, r.st.code), (2, 9, n fun e => s.plotOf e == p),
    (11, 9, n fun e => (s.engine e).lent && (s.engCfg e).home == p),
    (20, 9, n fun e => (s.engine e).lent && (s.engCfg e).lend == p),
    (29, 10, (r.saved.filter fun x => !x.begun).length), (39, 2, s.throttle p), (41, 1, b2n r.move.isSome)]

/-- PRU_REGSTAT of plot `p` (R346). -/
def State.regstat (s : State) (p : Nat) : W64 :=
  pack [(0, 12, (s.rates p).1), (12, 12, (s.rates p).2), (24, 23, (((s.plot p).tokens / 64) % (2 ^ 23 : Int)).toNat),
    (47, 2, s.throttle p)]

/-- FTT_STAT (R424). -/
def State.fttStat (s : State) : W64 :=
  let n (f : Nat → Bool) : Nat := (engineIds.filter f).length
  let banks (k : Nat) : Nat := (bankIds.filter fun b => (s.bankOf b).st == k).length
  let committing := (match s.nv.job with | some j => j.isCommit | none => false) || s.nv.next.any NvJob.isCommit
  pack [(0, 1, b2n s.ftt.fatal), (1, 1, b2n s.ftt.unsaved), (2, 1, b2n committing), (3, 9, n s.retiredEng),
    (12, 9, n fun e => (engineKind? e).isSome && !s.active e && !s.retiredEng e), (21, 2, banks 1), (23, 7, banks 2),
    (30, 32, s.ftt.repgen.toNat)]

/-- FTT_FNSTAT of function `n` (R415). -/
def State.fnstatWord (s : State) (n : Nat) : W64 :=
  let f := s.ftt.fnstat.look ⟨none, 0⟩ n
  pack [(0, 1, b2n (s.inReset n)), (1, 1, b2n (s.enabledFn n)), (2, 1, b2n f.faulted.isSome), (3, 3, f.cause.toNat)]

/-- FTT_ENGREP of engine `e` (R424). -/
def State.engrep (s : State) (e : Nat) : W64 :=
  let r := s.engine e
  pack [(0, 2, r.repState.toNat), (2, 9, r.spare.getD 0), (11, 1, b2n r.spare.isSome), (12, 9, r.serves.getD 0),
    (21, 1, b2n r.serves.isSome), (22, 8, min 255 r.tests), (30, 8, min 255 r.ceCount)]

/-- FTT_BANKREP of physical bank `b` (R424). -/
def State.bankrep (s : State) (b : Nat) : W64 :=
  let r := s.bankOf b
  pack [(0, 2, r.st), (2, 6, r.logical), (8, 1, b2n r.logv), (9, 8, min 255 r.tests), (17, 8, min 255 r.ces)]

/-- SU_DETAIL (R450). -/
def State.suDetail (s : State) : W64 := s.su.detail

/-! ### Reading -/

/-- What a register of the global page reads as; none at a reserved offset. WO registers read 0 (R16). -/
def State.globalWord? (s : State) (o : Nat) : Option W64 := firstReg [
  reg? o 0x4000 fun _ => poolWord (s.poolFree 0 nodePool) (s.poolFree 1 edgePool) (s.poolFree 2 pagePool),
  reg? o 0x4008 fun _ => poolWord (largestRun (s.usedRuns 0) nodePool) (largestRun (s.usedRuns 1) edgePool)
    (largestRun (s.usedRuns 2) pagePool),
  (slot? o 0x4800 256).map fun n => s.gs.quota.look 0 n,
  (slot? o 0x5000 256).map fun n => pack [(0, 10, s.shadowQuota n), (10, 10, s.shadowUsed n)],
  reg? o 0x5800 fun _ => pack [(0, 10, s.shadowFree)],
  (slot? o 0x6000 64).map fun p => s.rlaPlotstat p,
  reg? o 0x6200 fun _ => s.dlyNow.zeroExtend 64,
  (slot? o 0x7000 512).map fun e => s.engstat e,
  reg? o 0x8000 fun _ => s.rampstat,
  reg? o 0x9000 fun _ => s.fm.src,
  reg? o 0x9008 fun _ => 0,
  reg? o 0x9010 fun _ => s.fmStat,
  (slot? o 0x10000 4096).map fun b => s.sm.acl.look 0 b,
  (slot? o 0x18000 4096).map fun e => s.sheafCfg e,
  (slot? o 0x20000 4096).map fun e => (s.sheaf e).stat,
  (slot? o 0x28000 256).map fun n => s.stu.quota.look 0 n,
  reg? o 0x28800 fun _ => pack [(0, 17, 65536 - s.stu.seqs.length), (17, 11, 1024 - s.stu.models.length)],
  reg? o 0x2C000 fun _ => s.ticknow,
  reg? o 0x2C008 fun _ => pack [(0, 28, s.now - s.tcs.start), (28, 28, s.tcs.len)],
  reg? o 0x2C010 fun _ => s.yokestat,
  (slot? o 0x30000 16384).map fun q => pack [(0, 6, (s.queue q).plot)],
  (slot? o 0x50000 16384).map fun i => (s.segment (i / 64) (i / 4 % 16)).word (i % 4),
  (slot? o 0x70000 64).map fun p => s.pruPlotstat p,
  (slot? o 0x70200 64).map fun p => s.regstat p,
  reg? o 0x80000 fun _ => s.fttStat,
  reg? o 0x80008 fun _ => 0,
  reg? o 0x80010 fun _ => s.ftt.log.stat true s.now,
  (slot? o 0x80018 4).map fun k => s.ftt.log.data k,
  reg? o 0x80038 fun _ => s.ftt.log.slots 64,
  reg? o 0x80040 fun _ => 0,
  (slot? o 0x80048 4).map fun k => recWord s.ftt.log.taken k,
  reg? o 0x80068 fun _ => s.ftt.fatalInfo,
  (slot? o 0x81000 256).map fun n => s.fnstatWord n,
  (slot? o 0x82000 512).map fun e => s.engrep e,
  (slot? o 0x83000 66).map fun b => s.bankrep b,
  reg? o 0x84000 fun _ => s.tr.ctrl,
  (slot? o 0x84008 4).map fun k => BitVec.ofNat 64 (fld s.tr.fnmask (64 * k) 64),
  reg? o 0x84028 fun _ => s.tr.plotmask,
  reg? o 0x84030 fun _ => s.tr.sbase,
  reg? o 0x84038 fun _ => pack [(0, 6, s.tr.ssize)],
  reg? o 0x84040 fun _ => pack [(0, 32, s.tr.wptr.toNat), (32, 32, s.tr.rptr.toNat)],
  reg? o 0x84048 fun _ => s.tr.stat s.now,
  reg? o 0x84050 fun _ => pack [(0, 32, s.tr.bwptr.toNat)],
  reg? o 0x85000 fun _ => s.hv.ctrl,
  reg? o 0x85008 fun _ => s.hv.stat s.now,
  reg? o 0x85010 fun _ => pack [(0, 48, s.hv.tick.toNat)],
  reg? o 0x90000 fun _ => s.suStat,
  reg? o 0x90008 fun _ => s.suDetail,
  reg? o 0x90010 fun _ => s.su.loop,
  reg? o 0x90020 fun _ => s.su.gencfg,
  reg? o 0x90028 fun _ => s.su.genseed,
  reg? o 0x90030 fun _ => s.su.genentry,
  reg? o 0x90038 fun _ => pack [(1, 1, b2n s.su.genbusy), (2, 3, s.su.genres.toNat)]]

/-- What a read of the low half, the high half or both of a register of the global page does besides answering: the RC
fields with a bit in what is read are cleared (R16, R407, R432, R442; log 110). -/
def State.afterGlobalRead (s : State) (o : Nat) (low high : Bool) : State :=
  match o with
  | 0x80010 => s.modLog fun q => q.clearedBy true low high s.now
  | 0x84048 => if low || high then s.readTrStat.2 else s
  | 0x85008 => if high then s.readHvStat.2 else s
  | _ => s

/-! ### Writing -/

/-- Writes register `k` of segment `i`'s block (R363): base, limit and attributes only while VALID and WDRAW are 0. -/
def State.writeSeg (s : State) (fn g k : Nat) (v : RegVal) : State :=
  let x := s.segment fn g
  let free := !x.valid && !x.wdraw
  match k with
  | 0 => if free then s.modSegment fn g fun r => { r with base := BitVec.ofNat 44 (fld v.m 12 44) } else s
  | 1 => if free then s.modSegment fn g fun r => { r with limit := BitVec.ofNat 36 (fld v.m 12 36) } else s
  | 2 =>
    if free then s.modSegment fn g fun r => { r with
      rd := bit v.m 1, wr := bit v.m 2, ex := bit v.m 3, anyplot := bit v.m 4, plot := BitVec.ofNat 6 (fld v.m 5 6)
      leg := bit v.m 11 } else s
  | _ =>
    let s1 := if bit v.a 0 then s.installSeg fn g else s
    if bit v.a 1 then s1.withdrawSeg fn g else s1

/-- Replaces 64 bits of TR_FNMASK (R432). -/
def State.writeFnmask (s : State) (k : Nat) (v : W64) : State :=
  { s with tr := { s.tr with fnmask := BitVec.ofNat 256 (wordsNat ((List.range 4).map fun j =>
    if j = k then v else BitVec.ofNat 64 (fld s.tr.fnmask (64 * j) 64))) } }

/-- Writes a generator register; ignored while BUSY is 1 (R457). -/
def State.writeGen (s : State) (f : StartUp → StartUp) : State := if s.su.genbusy then s else { s with su := f s.su }

/-- What a write to a register of the global page with no row of its own does (R16); offsets whose registers are RO, and
reserved ones, take nothing. BLOCKS above 512 is kept as written, which R110 leaves open. DESIGN CHOICE (log 15). -/
def State.writeGlobal (s : State) (o : Nat) (v : RegVal) : State := (firstReg [
  (slot? o 0x4800 256).map fun n =>
    { s with gs := { s.gs with quota := s.gs.quota.put 0 n (pack [(0, 44, fld v.m 0 44)]) } },
  (slot? o 0x5000 256).map fun n => { s with sow := { s.sow with quota := s.sow.quota.put 0 n (fld v.m 0 10) } },
  reg? o 0x9000 fun _ => { s with fm := { s.fm with src := pack [(6, 50, fld v.m 6 50)] } },
  (slot? o 0x10000 4096).map fun b => { s with sm := { s.sm with acl := s.sm.acl.put 0 b (pack [(0, 18, fld v.m 0 18)]) } },
  (slot? o 0x18000 4096).map fun e => s.writeEntcfg e v.m,
  (slot? o 0x28000 256).map fun n => { s with stu := { s.stu with quota := s.stu.quota.put 0 n (pack [(0, 28, fld v.m 0 28)]) } },
  (slot? o 0x30000 16384).map fun q => s.bindQueue q (fld v.m 0 6),
  (slot? o 0x50000 16384).map fun i => s.writeSeg (i / 64) (i / 4 % 16) (i % 4) v,
  reg? o 0x80008 fun _ => if bit v.a 8 then s.resetBegin (fld v.a 0 8) 2 false else s,
  reg? o 0x80010 fun _ => if bit v.a 11 then s.modLog FaultQ.pop else s,
  reg? o 0x80040 fun _ => if v.low then s.modLog fun q => q.take 63 (fld v.a 0 6) s.now else s,
  (slot? o 0x81000 256).map fun n => { s with ftt := { s.ftt with
    fnstat := s.ftt.fnstat.adj ⟨none, 0⟩ n fun f => { f with faulted := if bit v.a 2 then wiped f.faulted s.now else f.faulted } } },
  reg? o 0x84000 fun _ => s.writeTrCtrl v.m,
  (slot? o 0x84008 4).map fun k => s.writeFnmask k v.m,
  reg? o 0x84028 fun _ => { s with tr := { s.tr with plotmask := v.m } },
  reg? o 0x84030 fun _ => s.writeTrSbase v.m,
  reg? o 0x84038 fun _ => s.writeTrSsize v.m,
  reg? o 0x84040 fun _ => { s with tr := { s.tr with rptr := BitVec.ofNat 32 (fld v.m 32 32) } },
  reg? o 0x85000 fun _ => s.writeHvCtrl (pack [(0, 17, fld v.m 0 17), (17, 1, fld v.a 17 1)]),
  reg? o 0x85008 fun _ => { s with hv := { s.hv with overwritten := if bit v.a 33 then wiped s.hv.overwritten s.now else s.hv.overwritten } },
  reg? o 0x90020 fun _ => s.writeGen fun u => { u with gencfg := pack [(0, 50, fld v.m 0 50)] },
  reg? o 0x90028 fun _ => s.writeGen fun u => { u with genseed := v.m },
  reg? o 0x90030 fun _ => s.writeGen fun u => { u with genentry := v.m },
  reg? o 0x90038 fun _ => if bit v.a 0 then s.generatorGo else s]).getD s

end Sys2Proof.Machine
end

