-- ==== Sys2Proof/Machine/FunctionPage.lean ====
section
/-! DEFINITION. The registers of a function page (R19, R43) that no engine-only rule covers: what each reads as, and what
a write does to it. -/
namespace Sys2Proof.Machine

/-- STATE of HCF_QSTAT (R195). -/
def QState.code : QState → Nat
  | .disabled => 0
  | .idle => 1
  | .running => 2
  | .stalled => 3
  | .halted => 4

/-- The queue runs with its head packet not yet fetched: it shows as STALLED with WAIT FETCH (R195). -/
def Queue.awaitsFetch (r : Queue) : Bool := r.st == .running && r.win.isEmpty && r.head == .none

/-- HCF_QSTAT (R195). -/
def Queue.stat (r : Queue) : W64 :=
  let st := if r.awaitsFetch then 3 else r.st.code
  let wait := if r.awaitsFetch then 1 else if r.st = .stalled then r.wait else 0
  pack [(0, 3, st), (8, 8, if r.st = .halted then r.code.toNat else 0), (16, 4, wait),
    (32, 20, if r.inbuf then r.bpos else 0), (52, 1, b2n r.inbuf)]

/-- HCF_QLAST (R195). -/
def Queue.lastWord (r : Queue) : W64 := pack [(0, 32, (r.last.getD 0).toNat), (32, 1, b2n r.last.isSome)]

/-- Register `k` of a queue's block (R195); HCF_QDB and HCF_QCTRL read 0. -/
def Queue.word (r : Queue) (k : Nat) : W64 :=
  match k with
  | 0 => pack [(12, 36, r.off.toNat), (60, 4, r.seg.toNat)]
  | 1 => pack [(0, 5, r.size), (8, 1, b2n r.enable)]
  | 2 => pack [(0, 32, r.limit)]
  | 4 => pack [(0, 32, r.rptr.toNat), (32, 32, r.wptr.toNat)]
  | 5 => r.stat
  | 6 => r.lastWord
  | _ => 0

/-- The graph that GS_GQSEL of function `n` names, when the function owns it (R128). -/
def State.selectedGraph? (s : State) (n : Nat) : Option (Nat × Graph) :=
  let h := (s.gs.gqsel.look 0 n).toNat
  ((s.graph? h).filter fun g => g.owner == n).map fun g => (h, g)

/-- GS_GINFO (R128). -/
def State.ginfo (s : State) (n : Nat) : W64 :=
  match s.selectedGraph? n with
  | none => 0
  | some (h, g) =>
    let caps (b : Bool) : Nat := ((s.liveOf h).filter fun w => w.bankB == b).length
    pack [(0, 2, match g.st with | .opened => 1 | .sealing => 2 | .sealed => 3), (2, 1, b2n g.curB), (3, 4, caps false),
      (7, 4, caps true), (11, 1, b2n g.torn.isSome), (12, 1, b2n !(s.drainers h).isEmpty),
      (13, 4, min 15 (s.launchers h).length), (17, 4, g.warm.length), (21, 1, 1)]

/-- GS_GTORN (R128). -/
def State.gtorn (s : State) (n : Nat) : W64 :=
  match s.selectedGraph? n with
  | none => 0
  | some (_, g) => match g.torn with
    | some (a, k) => pack [(0, 19, a), (19, 20, k)]
    | none => 0

/-- The sequence entry that STU_SEQSEL of function `n` names, when the function owns it (R304). -/
def State.selectedSeq? (s : State) (n : Nat) : Option Seq' := s.seq? n (s.stu.seqsel.look 0 n).toNat

/-- STU_SEQINFO (R304). -/
def State.seqInfo (s : State) (n : Nat) : W64 :=
  match s.selectedSeq? n with
  | none => 0
  | some e => pack [(0, 3, e.st.code), (3, 2, e.level), (5, 1, b2n e.reason), (6, 1, b2n e.evictp), (7, 1, b2n e.suspp),
      (8, 10, e.model), (18, 23, e.len), (41, 1, 1)]

/-- STU_SEQLEN (R304). -/
def State.seqLen (s : State) (n : Nat) : W64 :=
  match s.selectedSeq? n with
  | none => 0
  | some e => pack [(0, 23, e.prompt), (23, 23, e.maxlen)]

/-- PRU_SAVEA and PRU_SAVECFG of plot `p` as page `n` shows them: 0 in a page that is not the OWNER's (R355). -/
def State.saveWord (s : State) (n p k : Nat) : W64 :=
  if (s.plotCfg p).owner ≠ n then 0 else if k = 0 then (s.plot p).saveA else (s.plot p).saveCfg

/-- What a register of function page `n` reads as, at page offset `o`; none at a reserved offset. The registers that only
engines read (R241, R269, R345, R364) read 0 here. -/
def State.pageWord? (s : State) (n o : Nat) : Option W64 := firstReg [
  reg? o 0x400 fun _ => s.gs.sealres.look 0 n,
  reg? o 0x408 fun _ => s.gs.sealloc.look 0 n,
  reg? o 0x410 fun _ => s.gs.gqsel.look 0 n,
  reg? o 0x418 fun _ => s.ginfo n,
  reg? o 0x420 fun _ => s.gtorn n,
  (slot? o 0x2000 512).map fun i => (s.queue (n * 64 + i / 8)).word (i % 8),
  (slot? o 0x3000 256).map fun i => (s.queue (n * 64 + i / 4)).decl.look 0 (i % 4),
  (slot? o 0x3800 4).map fun _ => 0,
  reg? o 0x3820 fun _ => s.rxOf n,
  reg? o 0x3828 fun _ => pack [(0, 6, s.fullCredits n)],
  (slot? o 0x3900 2).map fun _ => 0,
  reg? o 0x4000 fun _ => s.stu.seqsel.look 0 n,
  reg? o 0x4008 fun _ => s.seqInfo n,
  reg? o 0x4010 fun _ => s.seqLen n,
  reg? o 0x4100 fun _ => s.ticknow,
  (slot? o 0x4200 64).map fun i => (s.segment n (i / 4)).word (i % 4),
  (slot? o 0x4400 32).map fun _ => 0,
  (slot? o 0x4500 2).map fun _ => 0,
  (slot? o 0x4600 128).map fun i => s.saveWord n (i / 2) (i % 2),
  reg? o 0x5000 fun _ => (s.faultQ n).stat false s.now,
  (slot? o 0x5008 4).map fun k => (s.faultQ n).data k,
  reg? o 0x5028 fun _ => (s.faultQ n).slots 32,
  reg? o 0x5030 fun _ => 0,
  (slot? o 0x5038 4).map fun k => recWord (s.faultQ n).taken k]

/-- What a read of the low half, the high half or both of a register of page `n` does besides answering: the RC fields of
FTT_FQSTAT (R404). -/
def State.afterPageRead (s : State) (n o : Nat) (low high : Bool) : State :=
  if o = 0x5000 then s.modFaultQ n fun q => q.clearedBy false low high s.now else s

/-- Writes register `k` of queue `q`'s block (R193, R195 to R197). -/
def State.writeQueueReg (s : State) (q k : Nat) (v : RegVal) : State :=
  match k with
  | 0 => s.modQueue q fun r => if r.enable then r else { r with
      off := BitVec.ofNat 36 (fld v.m 12 36), seg := BitVec.ofNat 4 (fld v.m 60 4) }
  | 1 => s.writeQcfg q v.m
  | 2 => s.modQueue q fun r => { r with limit := max 1 (min 3600000000 (fld v.m 0 32)) }
  | 3 => if v.low then s.doorbell q (v.a.truncate 32) else s
  | 4 => if v.low then s.writeQptr q (v.a.truncate 32) else s
  | 7 => s.writeQctrl q v.a
  | _ => s

/-- Writes SM_QDECL register `k` of queue `q`: ignored while ENABLE is 1 (R237). -/
def State.writeQdecl (s : State) (q k : Nat) (v : W64) : State :=
  s.modQueue q fun r => if r.enable then r else { r with
    decl := r.decl.put 0 k (pack [(0, 37, fld v 0 37), (63, 1, if k = 0 then fld v 63 1 else 0)]) }

/-- Writes a save register of plot `p` through page `n`: the OWNER's page, and not while the area is in use (R355). -/
def State.writeSave (s : State) (n p k : Nat) (v : W64) : State :=
  if (s.plotCfg p).owner ≠ n ∨ s.saveLocked p = true then s
  else s.modPlot p fun r =>
    if k = 0 then { r with saveA := pack [(16, 32, fld v 16 32), (60, 4, fld v 60 4)] }
    else { r with saveCfg := pack [(0, 41, fld v 0 41)] }

/-- What a write to a register of page `n` does (R16), engine-only registers apart. -/
def State.writePage (s : State) (n o : Nat) (v : RegVal) : State := (firstReg [
  reg? o 0x410 fun _ => { s with gs := { s.gs with gqsel := s.gs.gqsel.put 0 n (pack [(0, 16, fld v.m 0 16)]) } },
  (slot? o 0x2000 512).map fun i => s.writeQueueReg (n * 64 + i / 8) (i % 8) v,
  (slot? o 0x3000 256).map fun i => s.writeQdecl (n * 64 + i / 4) (i % 4) v.m,
  reg? o 0x3820 fun _ => s.writeRx n v.m,
  reg? o 0x3828 fun _ => { s with mrs := { s.mrs with credit := s.mrs.credit.put 16 n (max 1 (min 32 (fld v.m 0 6))) } },
  reg? o 0x4000 fun _ => { s with stu := { s.stu with seqsel := s.stu.seqsel.put 0 n (pack [(0, 16, fld v.m 0 16)]) } },
  (slot? o 0x4600 128).map fun i => s.writeSave n (i / 2) (i % 2) v.m,
  reg? o 0x5000 fun _ => if bit v.a 7 then s.modFaultQ n FaultQ.pop else s,
  reg? o 0x5030 fun _ => if v.low then s.modFaultQ n (fun q => q.take 31 (fld v.a 0 5) s.now) else s]).getD s

end Sys2Proof.Machine
end

