-- ==== Sys2Proof/Machine/Registers.lean ====
section
/-! DEFINITION. REGISTER_WRITE: one access at the mesh target, wherever in the window it falls (R14 to R21, R42 to R47),
and WRITE_BURST_ABORT. A register with a row of its own answers here as its own command does. -/
namespace Sys2Proof

open Machine

/-! ### Halves (R14; log 16) -/

/-- The offset of the 8-byte register that an access addresses. -/
def Access.base (x : Access) : Nat := x.offset.val / 8 * 8

/-- The access is of a 64-bit word. -/
def Access.wide (x : Access) : Bool := x.width == .word64

/-- The access addresses the upper half of its register. -/
def Access.upper (x : Access) : Bool := !x.wide && x.offset.val % 8 == 4

/-- The access takes in the low half of its register, and the high half. -/
def Access.hasLow (x : Access) : Bool := !x.upper
/-- The high half. -/
def Access.hasHigh (x : Access) : Bool := x.wide || x.upper

/-- One aligned 32-bit or 64-bit word; no other width is accepted (R14, R42). -/
def Access.aligned (x : Access) : Bool :=
  x.width != .other && x.offset.val % (if x.wide then 8 else 4) == 0

/-- Read data: the addressed half of a register in the low 32 bits. -/
def Access.shown (x : Access) (v : W64) : W64 :=
  if x.wide then v else pack [(0, 32, if x.upper then fld v 32 32 else fld v 0 32)]

/-- A write of the access to a register that now reads `now`. -/
def Access.regVal (x : Access) (now : W64) : RegVal :=
  if x.wide then ⟨x.value, x.value, true⟩
  else
    let h := fld x.value 0 32
    if x.upper then ⟨pack [(0, 32, fld now 0 32), (32, 32, h)], pack [(32, 32, h)], false⟩
    else ⟨pack [(0, 32, h), (32, 32, fld now 32 32)], pack [(0, 32, h)], true⟩

/-- An outcome whose read data is shown as the access asks. -/
def Access.reply (x : Access) (o : Host.Outcome State Fault Refusal) : Host.Outcome State Fault Refusal :=
  match o with
  | .next t => .next { t with mt := { t.mt with rdata := x.shown t.mt.rdata } }
  | r => r

end Sys2Proof

namespace Sys2Proof.Machine

/-! ### Reserved offsets (R20, R43) -/

/-- Any requester reaches a reserved offset, once it is let in at all (R43, R49, R448), engines excepted (R44). -/
def State.reservedAccess (s : State) (x : Access) : Host.Outcome State Fault Refusal :=
  s.access x.req x.offset.val (s.admitted x.req) x.write fun t => (0, t)

/-! ### The pages -/

/-- FM_CTRL (R393): its command; 0 and 5 to 7 have no effect. -/
def State.fmCtrlWrite (s : State) (req : Req) (v : RegVal) : Host.Outcome State Fault Refusal :=
  match fld v.a 0 3 with
  | 1 => execFmLoad req s
  | 2 => execFmSwap req (bit v.a 3) (BitVec.ofNat 48 (fld v.a 4 48)) s
  | 3 => execFmSave req s
  | 4 => execFmRecall req s
  | _ => s.regWrite req 0x9008 (s.globalOk req) id

/-- SU_STAT and SU_DETAIL are read by function 0 or a secure requester, before release too (R448, R450). -/
def State.suReadOk (s : State) (req : Req) : Bool :=
  (req.fn.val == 0 || req.sec) && req.src != .engine && !s.inReset req.fn.val

/-- An access to the global page (R43). -/
def State.globalAccess (s : State) (x : Access) : Host.Outcome State Fault Refusal :=
  let o := x.base
  match s.globalWord? o with
  | none => s.reservedAccess x
  | some now =>
    if !x.write then
      let ok := if o = 0x90000 ∨ o = 0x90008 then s.suReadOk x.req else s.globalOk x.req
      s.access x.req x.offset.val ok false fun t => (x.shown now, t.afterGlobalRead o x.hasLow x.hasHigh)
    else
      let v := x.regVal now
      if o = 0x9008 then s.fmCtrlWrite x.req v
      else if o = 0x90010 then s.regWrite x.req x.offset.val (s.secureOk x.req) fun t => t.writeLoop v.m
      else s.regWrite x.req x.offset.val (s.globalOk x.req) fun t => t.writeGlobal o v

/-- An access to the secure page (R43, R451). -/
def State.secureAccess (s : State) (x : Access) : Host.Outcome State Fault Refusal :=
  let o := x.base
  if o ≠ 0x100000 ∧ o ≠ 0x100008 then s.reservedAccess x
  else
    let now := if o = 0x100000 then s.su.fwsrc else s.su.fmsrc
    if x.write then
      s.regWrite x.req x.offset.val (s.secureOk x.req) fun t =>
        if o = 0x100000 then t.writeFwsrc (x.regVal now).m else t.writeFmsrc (x.regVal now).m
    else s.access x.req x.offset.val (s.secureOk x.req) false fun t => (x.shown now, t)

/-- An access to SHF_EOP, by its operation (R263, R264). -/
def State.shfEop (s : State) (req : Req) (page : Fin 256) (v : W64) : Host.Outcome State Fault Refusal :=
  match fld v 12 3 with
  | 1 => execSheafAdd req page v s
  | 2 => execSheafAddRaw req page v s
  | 3 => execSheafDrain req page v s
  | 4 => execSheafDrainRaw req page v s
  | _ => execSheafClear req page v s

/-- SM_ERES (R241): the reading engine's own operation; any other requester that may reach the page reads 0. -/
def State.readEres (s : State) (req : Req) (page : Fin 256) : Host.Outcome State Fault Refusal :=
  s.access req (pageBase page + 0x3808) (s.pageOk req page || s.engineReads req page) false fun t =>
    (if req.src = .engine then (t.engine req.eng).eres.encode else 0, t)

/-- The registers of a page with an acceptance check of their own (R44): reads. -/
def State.ownRead? (s : State) (req : Req) (page : Fin 256) (o : Nat) (low high : Bool) : Option (Host.Outcome State Fault Refusal) := firstReg [
  reg? o 0x3808 fun _ => s.readEres req page,
  reg? o 0x3908 fun _ => s.readShfEres req page low high,
  reg? o 0x4500 fun _ => execPruEgrant req page s,
  (slot? o 0x4400 32).map fun i => execPruEsegFill req page ⟨i / 2 % 16, Nat.mod_lt _ (by decide)⟩ (i % 2 == 1) s]

/-- The registers of a page with an acceptance check of their own (R44): writes. A write of their upper half alone starts
nothing (log 16). -/
def State.ownWrite? (s : State) (req : Req) (page : Fin 256) (o : Nat) (v : RegVal) :
    Option (Host.Outcome State Fault Refusal) :=
  let idle (r : Nat) (ok : Bool) : Host.Outcome State Fault Refusal := s.regWrite req (pageBase page + r) ok id
  firstReg [
    reg? o 0x3800 fun _ => s.regWrite req (pageBase page + 0x3800) (s.engineOk req page) fun t =>
      if v.low then t.smEop req.eng page v.a else t,
    reg? o 0x3810 fun _ => if v.low then execMrsEsend req page v.a s else idle 0x3810 (s.engineOk req page),
    reg? o 0x3818 fun _ => if v.low then execMrsEcredit req page v.a s else idle 0x3818 (s.engineOk req page),
    reg? o 0x3900 fun _ => if v.low then s.shfEop req page v.a else idle 0x3900 (s.engineOk req page),
    reg? o 0x4508 fun _ => execPruEwack req page v.a s]

/-- An access to function page `page` at page offset `o` (R43, R44). -/
def State.pageAccess (s : State) (x : Access) (page : Fin 256) (o : Nat) : Host.Outcome State Fault Refusal :=
  let n := page.val
  let req := x.req
  let now := s.pageWord? n o
  if x.write then
    let v := x.regVal (now.getD 0)
    match s.ownWrite? req page o v with
    | some r => r
    | none => s.regWrite req x.offset.val
        (if now.isSome then s.pageOk req n else s.admitted req && s.enabledFn n) fun t => t.writePage n o v
  else
    match s.ownRead? req page o x.hasLow x.hasHigh with
    | some r => x.reply r
    | none =>
      let ok := if req.src = .engine then decide (o = 0x4100) && s.engineOk req n
        else if now.isSome then s.pageOk req n else s.admitted req && s.enabledFn n
      s.access req x.offset.val ok false fun t => (x.shown (now.getD 0), t.afterPageRead n o x.hasLow x.hasHigh)

/-! ### The apertures (R375, R435, R437) -/

/-- An access to host page `c` of the mailbox aperture at `r`: 64-bit words alone (R375). -/
def State.mbxAccess (s : State) (x : Access) (c r : Nat) : Host.Outcome State Fault Refusal :=
  s.access x.req x.offset.val (x.wide && s.mbxOk x.req c false) x.write fun t =>
    if x.write then (0, t.writeMbx x.req c r false x.value) else t.readMbx c r false

/-- An access of the firmware to the firmware side of a mailbox (R376, R388): aligned 64-bit words; any other traps in the core
and reaches nothing here. -/
def State.firmwareAccess (s : State) (x : Access) : Host.Outcome State Fault Refusal :=
  let o := x.offset.val
  let c := (o - 0x2000000) / 0x100
  if 0x2000000 ≤ o ∧ o < 0x2010200 ∧ x.aligned = true ∧ x.wide = true then
    .next (if x.write then (s.writeMbx x.req c (o % 0x100) true x.value).respond 0 0
      else (s.readMbx c (o % 0x100) true).2.respond 0 (s.readMbx c (o % 0x100) true).1)
  else .next s

/-- Words of the trace buffer (R435) or of the harvest shadows (R437): reads by function 0 or a secure requester. -/
def State.wordAccess (s : State) (x : Access) (v : W64) : Host.Outcome State Fault Refusal :=
  s.access x.req x.offset.val (!x.write && s.globalOk x.req) x.write fun t => (x.shown v, t)

/-- Word `i` of the trace buffer. -/
def State.traceWord (s : State) (i : Nat) : W64 := recWord (s.tr.buf.look 0 (i / 4)) (i % 4)

/-- A reserved part of the window (R19, R20). -/
def reservedPart (o : Nat) : Bool :=
  (decide (0x200000 ≤ o) && decide (o < 0x1000000)) || (decide (0x2102000 ≤ o) && decide (o < 0x2200000))
    || (decide (0x2214000 ≤ o) && decide (o < 0x2300000)) || decide (0x2340000 ≤ o)

/-- What offset `o` of the harvest aperture or the trace aperture reads; any other reads 0 (R20, R435, R437). -/
def State.apertureWord (s : State) (o : Nat) : W64 :=
  if 0x2200000 ≤ o ∧ o < 0x2214000 then s.hv.shadow.look 0 ((o - 0x2200000) / 8)
  else if 0x2300000 ≤ o ∧ o < 0x2340000 then s.traceWord ((o - 0x2300000) / 8)
  else 0

/-- A burst of `n` + 1 whole beats from the beat that holds the offset: a read of the harvest or the trace aperture, or of a
reserved part; refused anywhere else (R42, R435, R437). -/
def State.beatAccess (s : State) (x : Access) (n : Nat) : Host.Outcome State Fault Refusal :=
  let o := x.offset.val / 64 * 64
  if reservedPart o then s.reservedAccess x
  else if 0x2200000 ≤ o ∧ x.write = false ∧ s.globalOk x.req = true then
    let t := s.respond 0 (s.apertureWord o)
    .next { t with mt := { t.mt with rbeats := (List.range (8 * (n + 1))).map fun i => s.apertureWord (o + 8 * i) } }
  else .next (s.refuse x.req x.offset.val)

/-- An access of one word (R42, R43). -/
def State.wordAt (s : State) (x : Access) : Host.Outcome State Fault Refusal :=
  let o := x.base
  if !x.aligned then .next (s.refuse x.req x.offset.val)
  else if reservedPart o then s.reservedAccess x
  else if o < 0x100000 then s.globalAccess x
  else if o < 0x200000 then s.secureAccess x
  else if o < 0x2000000 then
    s.pageAccess x ⟨(o - 0x1000000) / 0x10000 % 256, Nat.mod_lt _ (by decide)⟩ (o % 0x10000)
  else if o < 0x2102000 then s.mbxAccess x ((o - 0x2000000) / 0x1000) (o % 0x1000)
  else s.wordAccess x (s.apertureWord o)

/-- One access that is committed (R42, R43). -/
def State.oneAccess (s : State) (x : Access) : Host.Outcome State Fault Refusal :=
  match x.width with
  | .beats n => s.beatAccess x n
  | _ => s.wordAt x

/-! ### Bursts (R21, R42, R46) -/

/-- The beats of a requester's write burst that has no commit word yet. -/
def State.openBeats (s : State) (req : Req) : List Access := s.mt.bursts.filter fun x => x.req == req

/-- Its beats are dropped. -/
def State.dropBeats (s : State) (req : Req) : State :=
  { s with mt := { s.mt with bursts := s.mt.bursts.filter fun x => x.req != req } }

/-- A write burst of more than one beat is committed: nothing in the window that is written takes one (R42, R375, R435,
R437), so it is refused whole, or ignored where every beat lies in a reserved part (R20). -/
def State.commitBurst (s : State) (x : Access) : Host.Outcome State Fault Refusal :=
  let t := s.dropBeats x.req
  if (s.openBeats x.req).all (fun y => reservedPart y.base) && reservedPart x.base then t.reservedAccess x
  else .next (t.refuse x.req x.offset.val)

/-- REGISTER_WRITE (R16, R42, R45, R46): a beat that does not commit its burst waits and has no response. -/
def execRegisterWrite (acc : Access) (s : State) : Host.Outcome State Fault Refusal :=
  if acc.mapped then s.firmwareAccess acc
  else if acc.write && !acc.commit then .next { s with mt := { s.mt with bursts := s.mt.bursts ++ [acc] } }
  else if acc.write && !(s.openBeats acc.req).isEmpty then s.commitBurst acc
  else s.oneAccess acc

/-- WRITE_BURST_ABORT (R46): the burst is discarded whole and gets no response. -/
def execWriteBurstAbort (req : Req) (s : State) : Host.Outcome State Fault Refusal := .next (s.dropBeats req)

end Sys2Proof.Machine
end

