-- ==== Sys2Proof/Machine/Dispatch.lean ====
section
/-! DEFINITION. One arm per command: a direct call of its meaning. -/
namespace Sys2Proof.Machine

/-- The effect of a command on everything but the queue of commands (README of the block's cut). -/
def exec (i : Instr) (s : State) : Host.Outcome State Fault Refusal :=
  match i with
  | .blockReset => Sys2Proof.Machine.execBlockReset s
  | .alignmentPulse markersPass => Sys2Proof.Machine.execAlignmentPulse markersPass s
  | .alignTimeout crossing => Sys2Proof.Machine.execAlignTimeout crossing s
  | .startupFuseRead failed => Sys2Proof.Machine.execStartupFuseRead failed s
  | .startupBist badBanks rows => Sys2Proof.Machine.execStartupBist badBanks rows s
  | .suFwsrcWrite req value => Sys2Proof.Machine.execSuFwsrcWrite req value s
  | .suFmsrcWrite req value => Sys2Proof.Machine.execSuFmsrcWrite req value s
  | .firmwareBoot code => Sys2Proof.Machine.execFirmwareBoot code s
  | .firmwareReply len word => Sys2Proof.Machine.execFirmwareReply len word s
  | .startupFieldMap load => Sys2Proof.Machine.execStartupFieldMap load s
  | .startupStepTimeout => Sys2Proof.Machine.execStartupStepTimeout s
  | .startupRelease numvf bme => Sys2Proof.Machine.execStartupRelease numvf bme s
  | .registerWrite acc => Sys2Proof.Machine.execRegisterWrite acc s
  | .writeBurstAbort req => Sys2Proof.Machine.execWriteBurstAbort req s
  | .flrRequest fn => Sys2Proof.Machine.execFlrRequest fn s
  | .vfDisable numvf => Sys2Proof.Machine.execVfDisable numvf s
  | .busMasterEnableChange fn enable => Sys2Proof.Machine.execBusMasterEnableChange fn enable s
  | .fttFnrstGo req value => Sys2Proof.Machine.execFttFnrstGo req value s
  | .fnResetEngineTimeout fn eng => Sys2Proof.Machine.execFnResetEngineTimeout fn eng s
  | .fnResetComplete fn => Sys2Proof.Machine.execFnResetComplete fn s
  | .linkUp port => Sys2Proof.Machine.execLinkUp port s
  | .partnerDepart port => Sys2Proof.Machine.execPartnerDepart port s
  | .helloSend => Sys2Proof.Machine.execHelloSend s
  | .hello port frame => Sys2Proof.Machine.execHello port frame s
  | .helloSilenceTimeout port => Sys2Proof.Machine.execHelloSilenceTimeout port s
  | .reservedFrame port type subtype => Sys2Proof.Machine.execReservedFrame port type subtype s
  | .wakeAck cluster => Sys2Proof.Machine.execWakeAck cluster s
  | .wakeTimeout cluster => Sys2Proof.Machine.execWakeTimeout cluster s
  | .sleepAck cluster => Sys2Proof.Machine.execSleepAck cluster s
  | .sleepTimeout cluster => Sys2Proof.Machine.execSleepTimeout cluster s
  | .thermalChange stack level => Sys2Proof.Machine.execThermalChange stack level s
  | .rampWindowEnd pmBudget => Sys2Proof.Machine.execRampWindowEnd pmBudget s
  | .startQueueAdmit => Sys2Proof.Machine.execStartQueueAdmit s
  | .domainWakeRequest plot kind => Sys2Proof.Machine.execDomainWakeRequest plot kind s
  | .domainSleepRequest cluster => Sys2Proof.Machine.execDomainSleepRequest cluster s
  | .jtagInstruction op => Sys2Proof.Machine.execJtagInstruction op s
  | .nvOpDone err => Sys2Proof.Machine.execNvOpDone err s
  | .nvOpTimeout => Sys2Proof.Machine.execNvOpTimeout s
  | .meshResponse id resp data => Sys2Proof.Machine.execMeshResponse id resp data s
  | .meshRetry id => Sys2Proof.Machine.execMeshRetry id s
  | .meshTimeout id => Sys2Proof.Machine.execMeshTimeout id s
  | .descriptorWrite cluster => Sys2Proof.Machine.execDescriptorWrite cluster s
  | .descriptorAccepted eng => Sys2Proof.Machine.execDescriptorAccepted eng s
  | .descriptorAckTimeout eng => Sys2Proof.Machine.execDescriptorAckTimeout eng s
  | .tokenStarted eng => Sys2Proof.Machine.execTokenStarted eng s
  | .tokenWithdrawn eng => Sys2Proof.Machine.execTokenWithdrawn eng s
  | .tokenEmpty eng => Sys2Proof.Machine.execTokenEmpty eng s
  | .tokenFlushed eng => Sys2Proof.Machine.execTokenFlushed eng s
  | .preemptIdle eng => Sys2Proof.Machine.execPreemptIdle eng s
  | .preemptAtBoundary eng => Sys2Proof.Machine.execPreemptAtBoundary eng s
  | .preemptSaved eng => Sys2Proof.Machine.execPreemptSaved eng s
  | .preemptSaveFailed eng => Sys2Proof.Machine.execPreemptSaveFailed eng s
  | .preemptNoresp eng => Sys2Proof.Machine.execPreemptNoresp eng s
  | .engineReset eng => Sys2Proof.Machine.execEngineReset eng s
  | .engineDown eng => Sys2Proof.Machine.execEngineDown eng s
  | .engineReturn eng => Sys2Proof.Machine.execEngineReturn eng s
  | .completionRecord cluster record => Sys2Proof.Machine.execCompletionRecord cluster record s
  | .edgeLineRead => Sys2Proof.Machine.execEdgeLineRead s
  | .decrement bank => Sys2Proof.Machine.execDecrement bank s
  | .fallowDecrement => Sys2Proof.Machine.execFallowDecrement s
  | .oneLeftNotice => Sys2Proof.Machine.execOneLeftNotice s
  | .producerLookahead => Sys2Proof.Machine.execProducerLookahead s
  | .heldRelease eng => Sys2Proof.Machine.execHeldRelease eng s
  | .mispredictWithdraw eng => Sys2Proof.Machine.execMispredictWithdraw eng s
  | .decision plot kind => Sys2Proof.Machine.execDecision plot kind s
  | .savedTaskRestore eng => Sys2Proof.Machine.execSavedTaskRestore eng s
  | .pendingMove => Sys2Proof.Machine.execPendingMove s
  | .deadEntrySweep => Sys2Proof.Machine.execDeadEntrySweep s
  | .delayExpiry => Sys2Proof.Machine.execDelayExpiry s
  | .layerDigestEvict fn id layer => Sys2Proof.Machine.execLayerDigestEvict fn id layer s
  | .bucketRefill => Sys2Proof.Machine.execBucketRefill s
  | .pruEgrant req page => Sys2Proof.Machine.execPruEgrant req page s
  | .commandFetch q => Sys2Proof.Machine.execCommandFetch q s
  | .hcfQdb req q value => Sys2Proof.Machine.execHcfQdb req q value s
  | .hcfQptrWrite req q value => Sys2Proof.Machine.execHcfQptrWrite req q value s
  | .queueEnable req q value => Sys2Proof.Machine.execQueueEnable req q value s
  | .queueDisable req q value => Sys2Proof.Machine.execQueueDisable req q value s
  | .halt req q value => Sys2Proof.Machine.execHalt req q value s
  | .resume req q => Sys2Proof.Machine.execResume req q s
  | .skip req q => Sys2Proof.Machine.execSkip req q s
  | .queueTimeout q => Sys2Proof.Machine.execQueueTimeout q s
  | .nop q => Sys2Proof.Machine.execNop q s
  | .buffer q => Sys2Proof.Machine.execBuffer q s
  | .streamSync q => Sys2Proof.Machine.execStreamSync q s
  | .fence q => Sys2Proof.Machine.execFence q s
  | .graphAlloc q handle nodeBase edgeBase pageBase => Sys2Proof.Machine.execGraphAlloc q handle nodeBase edgeBase pageBase s
  | .graphLoad q => Sys2Proof.Machine.execGraphLoad q s
  | .graphSeal q => Sys2Proof.Machine.execGraphSeal q s
  | .furrowCheckStart fallow => Sys2Proof.Machine.execFurrowCheckStart fallow s
  | .furrowCheckEnd fallow graph => Sys2Proof.Machine.execFurrowCheckEnd fallow graph s
  | .graphUnseal q => Sys2Proof.Machine.execGraphUnseal q s
  | .graphFree q => Sys2Proof.Machine.execGraphFree q s
  | .zeroingEnd => Sys2Proof.Machine.execZeroingEnd s
  | .launchGraph q => Sys2Proof.Machine.execLaunchGraph q s
  | .launchProceed q => Sys2Proof.Machine.execLaunchProceed q s
  | .rootInsertion => Sys2Proof.Machine.execRootInsertion s
  | .fallowFaninCopy fn id => Sys2Proof.Machine.execFallowFaninCopy fn id s
  | .fallowPageFetch handle page => Sys2Proof.Machine.execFallowPageFetch handle page s
  | .fallowPageFetchDone handle page => Sys2Proof.Machine.execFallowPageFetchDone handle page s
  | .fallowPageSpillDone handle page => Sys2Proof.Machine.execFallowPageSpillDone handle page s
  | .shadowRefillDone handle => Sys2Proof.Machine.execShadowRefillDone handle s
  | .patchParamInline q => Sys2Proof.Machine.execPatchParamInline q s
  | .patchParamPointer q => Sys2Proof.Machine.execPatchParamPointer q s
  | .patchResume q => Sys2Proof.Machine.execPatchResume q s
  | .patchComplete q => Sys2Proof.Machine.execPatchComplete q s
  | .swapBank q => Sys2Proof.Machine.execSwapBank q s
  | .swapBankEffect q => Sys2Proof.Machine.execSwapBankEffect q s
  | .sowingEnding fn id => Sys2Proof.Machine.execSowingEnding fn id s
  | .sowingRetire fn id => Sys2Proof.Machine.execSowingRetire fn id s
  | .endAction fn id => Sys2Proof.Machine.execEndAction fn id s
  | .signalWrite q => Sys2Proof.Machine.execSignalWrite q s
  | .semRead q => Sys2Proof.Machine.execSemRead q s
  | .semSet q => Sys2Proof.Machine.execSemSet q s
  | .semAdd q => Sys2Proof.Machine.execSemAdd q s
  | .semMax q => Sys2Proof.Machine.execSemMax q s
  | .semCas q => Sys2Proof.Machine.execSemCas q s
  | .semTryAcquire q => Sys2Proof.Machine.execSemTryAcquire q s
  | .semWaitGe q => Sys2Proof.Machine.execSemWaitGe q s
  | .semWaitEq q => Sys2Proof.Machine.execSemWaitEq q s
  | .semAcquire q => Sys2Proof.Machine.execSemAcquire q s
  | .headlandStart => Sys2Proof.Machine.execHeadlandStart s
  | .waitCycleBreak => Sys2Proof.Machine.execWaitCycleBreak s
  | .mrsEsend req page value => Sys2Proof.Machine.execMrsEsend req page value s
  | .msgSend eng => Sys2Proof.Machine.execMsgSend eng s
  | .msgDelivered eng => Sys2Proof.Machine.execMsgDelivered eng s
  | .msgFrame port frame => Sys2Proof.Machine.execMsgFrame port frame s
  | .credFrame port frame => Sys2Proof.Machine.execCredFrame port frame s
  | .mrsEcredit req page value => Sys2Proof.Machine.execMrsEcredit req page value s
  | .mrsRxWrite req page value => Sys2Proof.Machine.execMrsRxWrite req page value s
  | .sheafClear req page value => Sys2Proof.Machine.execSheafClear req page value s
  | .sheafAdd req page value => Sys2Proof.Machine.execSheafAdd req page value s
  | .sheafAddRaw req page value => Sys2Proof.Machine.execSheafAddRaw req page value s
  | .sheafDrain req page value => Sys2Proof.Machine.execSheafDrain req page value s
  | .sheafDrainRaw req page value => Sys2Proof.Machine.execSheafDrainRaw req page value s
  | .sheafApply entry => Sys2Proof.Machine.execSheafApply entry s
  | .sheafOpComplete entry => Sys2Proof.Machine.execSheafOpComplete entry s
  | .shfEntcfgWrite req entry value => Sys2Proof.Machine.execShfEntcfgWrite req entry value s
  | .shfEres req page => Sys2Proof.Machine.execShfEres req page s
  | .stuModel q model => Sys2Proof.Machine.execStuModel q model s
  | .stuModelFree q => Sys2Proof.Machine.execStuModelFree q s
  | .stuAdmit q seq => Sys2Proof.Machine.execStuAdmit q seq s
  | .stuStep q => Sys2Proof.Machine.execStuStep q s
  | .stuCompose => Sys2Proof.Machine.execStuCompose s
  | .stepDetRoots fn id => Sys2Proof.Machine.execStepDetRoots fn id s
  | .stepCommit fn id => Sys2Proof.Machine.execStepCommit fn id s
  | .stuEvict q => Sys2Proof.Machine.execStuEvict q s
  | .stuParkSuspend q => Sys2Proof.Machine.execStuParkSuspend q s
  | .stuParkResume q => Sys2Proof.Machine.execStuParkResume q s
  | .stuMove q => Sys2Proof.Machine.execStuMove q s
  | .tickEdge => Sys2Proof.Machine.execTickEdge s
  | .cyclicLaunch entry => Sys2Proof.Machine.execCyclicLaunch entry s
  | .cyclicStep entry => Sys2Proof.Machine.execCyclicStep entry s
  | .cyclicSem entry => Sys2Proof.Machine.execCyclicSem entry s
  | .tickOverrun fn id => Sys2Proof.Machine.execTickOverrun fn id s
  | .yokeJoinStart => Sys2Proof.Machine.execYokeJoinStart s
  | .join port frame => Sys2Proof.Machine.execJoin port frame s
  | .calReqSend => Sys2Proof.Machine.execCalReqSend s
  | .calReq port t0 => Sys2Proof.Machine.execCalReq port t0 s
  | .calRsp port t0 t1 t2 => Sys2Proof.Machine.execCalRsp port t0 t1 t2 s
  | .tick port number sendPhase => Sys2Proof.Machine.execTick port number sendPhase s
  | .status port joined masterSeen hops => Sys2Proof.Machine.execStatus port joined masterSeen hops s
  | .yokePromote => Sys2Proof.Machine.execYokePromote s
  | .yokeBarrier q => Sys2Proof.Machine.execYokeBarrier q s
  | .arrive port fn barrier chips arrivals => Sys2Proof.Machine.execArrive port fn barrier chips arrivals s
  | .release port fn barrier relTick reloff abort => Sys2Proof.Machine.execRelease port fn barrier relTick reloff abort s
  | .barrierRetire q => Sys2Proof.Machine.execBarrierRetire q s
  | .tickWait q => Sys2Proof.Machine.execTickWait q s
  | .tickWaitRetire q => Sys2Proof.Machine.execTickWaitRetire q s
  | .digest entry firing endStatus value => Sys2Proof.Machine.execDigest entry firing endStatus value s
  | .mirrorMissing => Sys2Proof.Machine.execMirrorMissing s
  | .plotPreempt q => Sys2Proof.Machine.execPlotPreempt q s
  | .escalateDeadline plot => Sys2Proof.Machine.execEscalateDeadline plot s
  | .plotResume q => Sys2Proof.Machine.execPlotResume q s
  | .plotLend q => Sys2Proof.Machine.execPlotLend q s
  | .plotReclaim q => Sys2Proof.Machine.execPlotReclaim q s
  | .noticeAck eng => Sys2Proof.Machine.execNoticeAck eng s
  | .segWithdraw q => Sys2Proof.Machine.execSegWithdraw q s
  | .pruSegctlWithdraw req fn seg => Sys2Proof.Machine.execPruSegctlWithdraw req fn seg s
  | .pruSegctlInstall req fn seg => Sys2Proof.Machine.execPruSegctlInstall req fn seg s
  | .pruEsegFill req page seg limit => Sys2Proof.Machine.execPruEsegFill req page seg limit s
  | .pruEwack req page value => Sys2Proof.Machine.execPruEwack req page value s
  | .segWithdrawSignal fn seg => Sys2Proof.Machine.execSegWithdrawSignal fn seg s
  | .segInvalTimeout eng => Sys2Proof.Machine.execSegInvalTimeout eng s
  | .engineSelfTest eng => Sys2Proof.Machine.execEngineSelfTest eng s
  | .selfTestTimeout eng => Sys2Proof.Machine.execSelfTestTimeout eng s
  | .gsBankCopyDone bank => Sys2Proof.Machine.execGsBankCopyDone bank s
  | .gsBankTestDone bank pass => Sys2Proof.Machine.execGsBankTestDone bank pass s
  | .patrolScrub found corrected => Sys2Proof.Machine.execPatrolScrub found corrected s
  | .eccUncorrectable site word => Sys2Proof.Machine.execEccUncorrectable site word s
  | .ce mem word => Sys2Proof.Machine.execCe mem word s
  | .repairCommitRetry => Sys2Proof.Machine.execRepairCommitRetry s
  | .fttFqstatPop req page => Sys2Proof.Machine.execFttFqstatPop req page s
  | .fttFqstatRead req page => Sys2Proof.Machine.execFttFqstatRead req page s
  | .fttGltake req page slot => Sys2Proof.Machine.execFttGltake req page slot s
  | .fttElstatPop req => Sys2Proof.Machine.execFttElstatPop req s
  | .fttElstatRead req => Sys2Proof.Machine.execFttElstatRead req s
  | .fttElgltake req slot => Sys2Proof.Machine.execFttElgltake req slot s
  | .mbxDbin req ch firmware bits => Sys2Proof.Machine.execMbxDbin req ch firmware bits s
  | .mbxDboutClear req ch firmware bits => Sys2Proof.Machine.execMbxDboutClear req ch firmware bits s
  | .mbxDbmaskWrite req ch firmware mask => Sys2Proof.Machine.execMbxDbmaskWrite req ch firmware mask s
  | .mbxTx req ch firmware word => Sys2Proof.Machine.execMbxTx req ch firmware word s
  | .mbxRx req ch firmware => Sys2Proof.Machine.execMbxRx req ch firmware s
  | .txflush req ch firmware => Sys2Proof.Machine.execTxflush req ch firmware s
  | .rxflush req ch firmware => Sys2Proof.Machine.execRxflush req ch firmware s
  | .mbxLockClaim req ch firmware tag => Sys2Proof.Machine.execMbxLockClaim req ch firmware tag s
  | .mbxLockRelease req ch firmware tag => Sys2Proof.Machine.execMbxLockRelease req ch firmware tag s
  | .mbxLockBroken ch => Sys2Proof.Machine.execMbxLockBroken ch s
  | .fmLoad req => Sys2Proof.Machine.execFmLoad req s
  | .fmLoadDone => Sys2Proof.Machine.execFmLoadDone s
  | .fmSwap req atv tick => Sys2Proof.Machine.execFmSwap req atv tick s
  | .fmSave req => Sys2Proof.Machine.execFmSave req s
  | .fmRecall req => Sys2Proof.Machine.execFmRecall req s
  | .coreCall q => Sys2Proof.Machine.execCoreCall q s
  | .coreCallStart q => Sys2Proof.Machine.execCoreCallStart q s
  | .ecallExit core a0 => Sys2Proof.Machine.execEcallExit core a0 s
  | .ecallLoad core address => Sys2Proof.Machine.execEcallLoad core address s
  | .ecallStore core address data => Sys2Proof.Machine.execEcallStore core address data s
  | .ecallSem core index op operand => Sys2Proof.Machine.execEcallSem core index op operand s
  | .ecallNow core => Sys2Proof.Machine.execEcallNow core s
  | .coreTrap core => Sys2Proof.Machine.execCoreTrap core s
  | .coreBudget core => Sys2Proof.Machine.execCoreBudget core s
  | .harvest q => Sys2Proof.Machine.execHarvest q s
  | .hvDone req => Sys2Proof.Machine.execHvDone req s
  | .hvStatRead req => Sys2Proof.Machine.execHvStatRead req s
  | .trCtrlWrite req value => Sys2Proof.Machine.execTrCtrlWrite req value s
  | .traceStreamBurst => Sys2Proof.Machine.execTraceStreamBurst s
  | .trStatRead req => Sys2Proof.Machine.execTrStatRead req s
  | .suLoopWrite req value => Sys2Proof.Machine.execSuLoopWrite req value s
  | .loopbackResponse eng event => Sys2Proof.Machine.execLoopbackResponse eng event s
  | .suGenctlGo req => Sys2Proof.Machine.execSuGenctlGo req s
  | .generationDone => Sys2Proof.Machine.execGenerationDone s
  | .vfEnable numvf => Sys2Proof.Machine.execVfEnable numvf s
  | .clkRatio counted => Sys2Proof.Machine.execClkRatio counted s

end Sys2Proof.Machine
end

