-- ==== Sys2Proof/WellFormed.lean ====
section
/-! DEFINITION. Which commands can be sent at all: operands of a frame or a transfer fit the fields that carry them (R53,
R322, R252), and operands that the HGS chooses lie in the store it chooses from (R67, R93). -/
namespace Sys2Proof

/-- A number that one 64-bit word of a frame carries. -/
def isWord (n : Nat) : Bool := decide (n < 2 ^ 64)

/-- A timestamp's phase is one word (R322). -/
def Stamp.wf (x : Stamp) : Bool := isWord x.phase

/-- Every number of a JOIN frame is one word (R322). -/
def JoinFrame.wf (x : JoinFrame) : Bool :=
  isWord x.chips && isWord x.tickPeriod && isWord x.headland && isWord x.cycleTicks && isWord x.hops

/-- A message frame carries LEN bytes of payload, 8 to 256 and a multiple of 8 (R247, R252). -/
def MsgFrame.wf (x : MsgFrame) : Bool :=
  decide (8 ≤ x.len.toNat) && decide (x.len.toNat ≤ 256) && decide (8 * x.payload.length = x.len.toNat)

/-- A write of 32 bits carries 32 bits, and a read is one beat that commits (R42, R46). -/
def Access.wf (x : Access) : Bool :=
  (x.width != .word32 || !x.write || decide (x.value.toNat < 2 ^ 32)) && (x.write || x.commit)

/-- Well-formed commands. -/
def Instr.wf : Instr → Bool
  | .blockReset => true
  | .alignmentPulse _ => true
  | .alignTimeout _ => true
  | .startupFuseRead _ => true
  | .startupBist _ rows => rows.all fun r => decide (r.mem.toNat ≤ 0x60)
  | .suFwsrcWrite _ _ => true
  | .suFmsrcWrite _ _ => true
  | .firmwareBoot _ => true
  | .firmwareReply _ _ => true
  | .startupFieldMap _ => true
  | .startupStepTimeout => true
  | .startupRelease _ _ => true
  | .registerWrite acc => acc.wf
  | .writeBurstAbort _ => true
  | .flrRequest _ => true
  | .vfDisable _ => true
  | .busMasterEnableChange _ _ => true
  | .fttFnrstGo _ _ => true
  | .fnResetEngineTimeout _ _ => true
  | .fnResetComplete _ => true
  | .linkUp _ => true
  | .partnerDepart _ => true
  | .helloSend => true
  | .hello _ _ => true
  | .helloSilenceTimeout _ => true
  | .reservedFrame _ type subtype => decide (type.toNat < 1 ∨ 4 < type.toNat) || (decide (type.toNat = 2) && decide (subtype.toNat < 1 ∨ 8 < subtype.toNat))
  | .wakeAck _ => true
  | .wakeTimeout _ => true
  | .sleepAck _ => true
  | .sleepTimeout _ => true
  | .thermalChange _ _ => true
  | .rampWindowEnd _ => true
  | .startQueueAdmit => true
  | .domainWakeRequest _ _ => true
  | .domainSleepRequest _ => true
  | .jtagInstruction _ => true
  | .nvOpDone _ => true
  | .nvOpTimeout => true
  | .meshResponse _ _ data => decide (data.length ≤ 2 ^ 26)
  | .meshRetry _ => true
  | .meshTimeout _ => true
  | .descriptorWrite _ => true
  | .descriptorAccepted _ => true
  | .descriptorAckTimeout _ => true
  | .tokenStarted _ => true
  | .tokenWithdrawn _ => true
  | .tokenEmpty _ => true
  | .tokenFlushed _ => true
  | .preemptIdle _ => true
  | .preemptAtBoundary _ => true
  | .preemptSaved _ => true
  | .preemptSaveFailed _ => true
  | .preemptNoresp _ => true
  | .engineReset _ => true
  | .engineDown _ => true
  | .engineReturn _ => true
  | .completionRecord _ _ => true
  | .edgeLineRead => true
  | .decrement _ => true
  | .fallowDecrement => true
  | .oneLeftNotice => true
  | .producerLookahead => true
  | .heldRelease _ => true
  | .mispredictWithdraw _ => true
  | .decision _ _ => true
  | .savedTaskRestore _ => true
  | .pendingMove => true
  | .deadEntrySweep => true
  | .delayExpiry => true
  | .layerDigestEvict _ _ _ => true
  | .bucketRefill => true
  | .pruEgrant _ _ => true
  | .commandFetch _ => true
  | .hcfQdb _ _ _ => true
  | .hcfQptrWrite _ _ _ => true
  | .queueEnable _ _ _ => true
  | .queueDisable _ _ _ => true
  | .halt _ _ _ => true
  | .resume _ _ => true
  | .skip _ _ => true
  | .queueTimeout _ => true
  | .nop _ => true
  | .buffer _ => true
  | .streamSync _ => true
  | .fence _ => true
  | .graphAlloc _ _ n e p => decide (n ≤ 1048576) && decide (e ≤ 8388608) && decide (p ≤ 8192)
  | .graphLoad _ => true
  | .graphSeal _ => true
  | .furrowCheckStart _ => true
  | .furrowCheckEnd _ _ => true
  | .graphUnseal _ => true
  | .graphFree _ => true
  | .zeroingEnd => true
  | .launchGraph _ => true
  | .launchProceed _ => true
  | .rootInsertion => true
  | .fallowFaninCopy _ _ => true
  | .fallowPageFetch _ p => decide (p < 16384)
  | .fallowPageFetchDone _ p => decide (p < 16384)
  | .fallowPageSpillDone _ p => decide (p < 16384)
  | .shadowRefillDone _ => true
  | .patchParamInline _ => true
  | .patchParamPointer _ => true
  | .patchResume _ => true
  | .patchComplete _ => true
  | .swapBank _ => true
  | .swapBankEffect _ => true
  | .sowingEnding _ _ => true
  | .sowingRetire _ _ => true
  | .endAction _ _ => true
  | .signalWrite _ => true
  | .semRead _ => true
  | .semSet _ => true
  | .semAdd _ => true
  | .semMax _ => true
  | .semCas _ => true
  | .semTryAcquire _ => true
  | .semWaitGe _ => true
  | .semWaitEq _ => true
  | .semAcquire _ => true
  | .headlandStart => true
  | .waitCycleBreak => true
  | .mrsEsend _ _ _ => true
  | .msgSend _ => true
  | .msgDelivered _ => true
  | .msgFrame _ f => f.wf
  | .credFrame _ _ => true
  | .mrsEcredit _ _ _ => true
  | .mrsRxWrite _ _ _ => true
  | .sheafClear _ _ _ => true
  | .sheafAdd _ _ _ => true
  | .sheafAddRaw _ _ _ => true
  | .sheafDrain _ _ _ => true
  | .sheafDrainRaw _ _ _ => true
  | .sheafApply _ => true
  | .sheafOpComplete _ => true
  | .shfEntcfgWrite _ _ _ => true
  | .shfEres _ _ => true
  | .stuModel _ _ => true
  | .stuModelFree _ => true
  | .stuAdmit _ _ => true
  | .stuStep _ => true
  | .stuCompose => true
  | .stepDetRoots _ _ => true
  | .stepCommit _ _ => true
  | .stuEvict _ => true
  | .stuParkSuspend _ => true
  | .stuParkResume _ => true
  | .stuMove _ => true
  | .tickEdge => true
  | .cyclicLaunch _ => true
  | .cyclicStep _ => true
  | .cyclicSem _ => true
  | .tickOverrun _ _ => true
  | .yokeJoinStart => true
  | .join _ f => f.wf
  | .calReqSend => true
  | .calReq _ a => a.wf
  | .calRsp _ a b c => a.wf && b.wf && c.wf
  | .tick _ _ p => isWord p
  | .status _ j _ h => isWord j && isWord h
  | .yokePromote => true
  | .yokeBarrier _ => true
  | .arrive _ _ _ c a => isWord c && isWord a
  | .release _ _ _ _ r _ => isWord r
  | .barrierRetire _ => true
  | .tickWait _ => true
  | .tickWaitRetire _ => true
  | .digest _ _ _ _ => true
  | .mirrorMissing => true
  | .plotPreempt _ => true
  | .escalateDeadline _ => true
  | .plotResume _ => true
  | .plotLend _ => true
  | .plotReclaim _ => true
  | .noticeAck _ => true
  | .segWithdraw _ => true
  | .pruSegctlWithdraw _ _ _ => true
  | .pruSegctlInstall _ _ _ => true
  | .pruEsegFill _ _ _ _ => true
  | .pruEwack _ _ _ => true
  | .segWithdrawSignal _ _ => true
  | .segInvalTimeout _ => true
  | .engineSelfTest _ => true
  | .selfTestTimeout _ => true
  | .gsBankCopyDone _ => true
  | .gsBankTestDone _ _ => true
  | .patrolScrub _ _ => true
  | .eccUncorrectable _ _ => true
  | .ce _ _ => true
  | .repairCommitRetry => true
  | .fttFqstatPop _ _ => true
  | .fttFqstatRead _ _ => true
  | .fttGltake _ _ _ => true
  | .fttElstatPop _ => true
  | .fttElstatRead _ => true
  | .fttElgltake _ _ => true
  | .mbxDbin _ _ _ _ => true
  | .mbxDboutClear _ _ _ _ => true
  | .mbxDbmaskWrite _ _ _ _ => true
  | .mbxTx _ _ _ _ => true
  | .mbxRx _ _ _ => true
  | .txflush _ _ _ => true
  | .rxflush _ _ _ => true
  | .mbxLockClaim _ _ _ _ => true
  | .mbxLockRelease _ _ _ _ => true
  | .mbxLockBroken _ => true
  | .fmLoad _ => true
  | .fmLoadDone => true
  | .fmSwap _ _ _ => true
  | .fmSave _ => true
  | .fmRecall _ => true
  | .coreCall _ => true
  | .coreCallStart _ => true
  | .ecallExit _ _ => true
  | .ecallLoad _ _ => true
  | .ecallStore _ _ _ => true
  | .ecallSem _ _ _ _ => true
  | .ecallNow _ => true
  | .coreTrap _ => true
  | .coreBudget _ => true
  | .harvest _ => true
  | .hvDone _ => true
  | .hvStatRead _ => true
  | .trCtrlWrite _ _ => true
  | .traceStreamBurst => true
  | .trStatRead _ => true
  | .suLoopWrite _ _ => true
  | .loopbackResponse _ _ => true
  | .suGenctlGo _ => true
  | .generationDone => true
  | .vfEnable _ => true
  | .clkRatio c => decide (c < 2 ^ 32)

end Sys2Proof
end

