-- ==== Sys2Proof/Safety.lean ====
section
/-! DEFINITION. The terms the claims are stated in: which units of the block a command may touch, when a queue's head
command may execute, how it ends, and which tables are in canonical form. -/
namespace Sys2Proof.Machine

/-- The parts of the state, one per field. -/
inductive Part where
  | pending | now | free | inSc | su | pins | mt | mesh | fm | gs | sow | de | rla | eng | cc | dcs | hcf | sm | mrs | link | shf
  | stu | tcs | yoke | pru | mdu | ccx | ftt | nv | tr | hv
  deriving DecidableEq, Repr

/-- Part `p` has one value in `s` and `t`. -/
def State.same (s t : State) : Part → Prop
  | .pending => t.pending = s.pending
  | .now => t.now = s.now
  | .free => t.free = s.free
  | .inSc => t.inSc = s.inSc
  | .su => t.su = s.su
  | .pins => t.pins = s.pins
  | .mt => t.mt = s.mt
  | .mesh => t.mesh = s.mesh
  | .fm => t.fm = s.fm
  | .gs => t.gs = s.gs
  | .sow => t.sow = s.sow
  | .de => t.de = s.de
  | .rla => t.rla = s.rla
  | .eng => t.eng = s.eng
  | .cc => t.cc = s.cc
  | .dcs => t.dcs = s.dcs
  | .hcf => t.hcf = s.hcf
  | .sm => t.sm = s.sm
  | .mrs => t.mrs = s.mrs
  | .link => t.link = s.link
  | .shf => t.shf = s.shf
  | .stu => t.stu = s.stu
  | .tcs => t.tcs = s.tcs
  | .yoke => t.yoke = s.yoke
  | .pru => t.pru = s.pru
  | .mdu => t.mdu = s.mdu
  | .ccx => t.ccx = s.ccx
  | .ftt => t.ftt = s.ftt
  | .nv => t.nv = s.nv
  | .tr => t.tr = s.tr
  | .hv => t.hv = s.hv

/-- The frame of a command: `t` differs from `s` in the parts of `ps` at most. -/
def State.only (s t : State) (ps : List Part) : Prop := ∀ p : Part, p ∉ ps → s.same t p

/-- What a result record and a fault record touch: the mesh, the harvest counters, the fault unit, the mailboxes that
ring for it, and the trace events of the sc. -/
def reporting : List Part := [.mesh, .hv, .ftt, .mdu, .inSc]

/-- Packet `p` is the head of queue `q`, it passes validation (R211), and the queue begins it: the block is not stopped, no
command has begun in this sc, and the queue's turn has come among those with an executable head (R205, R207). -/
abbrev State.heads (s : State) (q : Nat) (p : BitVec 512) : Prop :=
  s.alive = true ∧ s.headPacket? q = some p ∧ s.inSc.began = false ∧ s.nextServed = some q ∧ s.validate q p = 0

/-- Every queue but `q` is as it was. -/
def State.otherQueues (s t : State) (q : Nat) : Prop := ∀ r, r ≠ q → t.queue r = s.queue r

/-- Queue `q` has gone past its head packet (R203, R206) and waits for nothing. -/
def State.movedOn (s t : State) (q : Nat) : Prop :=
  t.queue q = ((s.queue q).advance).settle s.now ∧ s.otherQueues t q

/-- Engine `e` alone may differ among the engines. -/
def State.otherEngines (s t : State) (e : Nat) : Prop := ∀ f, f ≠ e → t.engine f = s.engine f

/-- An engine's record without its preempt request, its notices and a move between plots. -/
def Engine.core (r : Engine) : Engine :=
  { r with preempt := none, notice := none, noticeQ := [], nseq := 0, moving := none, lent := false }

/-- Mailbox channel `c` alone may differ among the channels. -/
def State.otherChannels (s t : State) (c : Nat) : Prop := ∀ d, d ≠ c → t.channel d = s.channel d

/-- From `s` to `t` the block asked for one master transfer with this purpose, function, direction, address, size and
data: it is the last of those on the mesh, or of those that wait for the mesh, bus mastering or a bucket (R38, R51, R344). -/
def State.asks (s t : State) (u : Purpose) (fn : Nat) (write : Bool) (addr bytes : Nat) (data : Words) : Prop :=
  ∃ x : Xfer, x.purpose = u ∧ x.fn = fn ∧ x.write = write ∧ x.addr = addr ∧ x.bytes = bytes ∧ x.data = data
    ∧ ((t.mesh.out = s.mesh.out ++ [x] ∧ t.mesh.waiting = s.mesh.waiting)
      ∨ (t.mesh.out = s.mesh.out ∧ t.mesh.waiting = s.mesh.waiting ++ [x]))

/-- The block is stopped: in the FATAL state (R413) or by a failed start-up (R446). -/
def State.stopped (s : State) : Prop := s.ftt.fatal = true ∨ s.su.failed = true

/-- The parts that only the block's own work changes: graphs, sowings, counters, ready lists, the drill, queues,
semaphores, sequences, messages' credit tables, the tick, the yoke, links, field maps and the persistent store. -/
def workParts : List Part :=
  [.fm, .gs, .sow, .de, .rla, .dcs, .hcf, .sm, .link, .stu, .tcs, .yoke, .nv]

/-- The tables whose unlisted entries have one fixed value are in canonical form, so equal contents are equal data. -/
def State.tidy (s : State) : Prop :=
  Tab.wf (0 : BitVec 32) s.sm.vals = true ∧ Tab.wf Queue.reset s.hcf.queues = true
    ∧ Tab.wf Engine.reset s.eng = true ∧ Tab.wf Channel.reset s.mdu.chans = true ∧ Tab.wf FaultQ.reset s.ftt.queues = true

/-- The command that executes head packet `p` of queue `q` (R199, R200, R281, R328, R348). The HGS's choices that
GRAPH_ALLOC, STU_MODEL and STU_ADMIT take as operands are 0 here. A packet of an unknown opcode is taken by NOP's row. -/
def commandOf (q : Fin 16384) (p : BitVec 512) : Instr :=
  match opcode p with
  | 0x01 => .buffer q
  | 0x02 => .streamSync q
  | 0x03 => .fence q
  | 0x08 => .graphAlloc q 0 0 0 0
  | 0x09 => .graphLoad q
  | 0x0A => .graphSeal q
  | 0x0B => .graphUnseal q
  | 0x0C => .graphFree q
  | 0x10 => .launchGraph q
  | 0x11 => if pf p 0 34 1 = 0 then .patchParamInline q else .patchParamPointer q
  | 0x13 => .swapBank q
  | 0x18 => match pf p 2 18 4 with
    | 1 => .semSet q
    | 2 => .semAdd q
    | 3 => .semMax q
    | 4 => .semCas q
    | 5 => .semTryAcquire q
    | 6 => .semWaitGe q
    | 7 => .semWaitEq q
    | 8 => .semAcquire q
    | _ => .semRead q
  | 0x19 => .signalWrite q
  | 0x20 => .segWithdraw q
  | 0x21 => .harvest q
  | 0x22 => .coreCall q
  | 0x30 => .stuModel q 0
  | 0x31 => .stuModelFree q
  | 0x32 => .stuAdmit q 0
  | 0x33 => .stuStep q
  | 0x34 => .stuEvict q
  | 0x35 => if pf p 0 48 1 = 0 then .stuParkSuspend q else .stuParkResume q
  | 0x36 => .stuMove q
  | 0x40 => .plotPreempt q
  | 0x41 => .plotResume q
  | 0x42 => .plotLend q
  | 0x43 => .plotReclaim q
  | 0x50 => .yokeBarrier q
  | 0x51 => .tickWait q
  | _ => .nop q

/-- What a launch of graph `g` by queue `q` gives (R10, R108): the function's next ID, an ACTIVE sowing that captures the
graph's current bank, and nothing done to any other sowing. -/
def State.launched (s t : State) (q h : Nat) (g : Graph) : Prop :=
  let n := fnOfQueue q
  let id := s.nextSowId n
  ∃ w, t.sowing? (sowKey n id) = some w ∧ w.fn = n ∧ w.id = id ∧ w.graph = h ∧ w.bankB = g.curB
    ∧ w.plot = (s.queue q).plot ∧ w.queue = q ∧ w.st = .active ∧ w.code = 0 ∧ w.done = 0 ∧ w.lost = 0 ∧ w.digest = 0
    ∧ w.ctr = [] ∧ w.startAt = s.now ∧ (t.queue q).last = some id ∧ t.nextSowId n = id + 1
    ∧ t.sow.lastId.look none n = some id ∧ (∀ m, m ≠ n → t.nextSowId m = s.nextSowId m)
    ∧ (∀ j, j ≠ sowKey n id → t.sowing? j = s.sowing? j) ∧ s.otherQueues t q

/-- What an engine-port claim needs: the block is not stopped and the loopback responder does not answer the cluster
(R456). -/
def State.enginePort (s : State) (e : Nat) : Prop := s.alive = true ∧ s.looped (e / 16) = false

end Sys2Proof.Machine
end

