-- ==== Sys2Proof/Certificates/Slice0/Obligations.lean ====
section
/-! DEFINITION. The statements about the HGS. Each says what a family of commands does, its frame (what it leaves alone), and
that it answers a next state. A statement whose docstring names log entries rests, where they say, on choices of the model's;
that an effect comes with its command and not at a given sc is log 1. -/
open Sys2Proof Sys2Proof.Machine

/-- A step takes the command at the front of the queue and runs it on the state with the queue's rest; on an empty queue one sc
ends and the next begins, which is the model's choice (log 1): the clock moves on by one, and in a block that takes no step of
its own that is all. The model's own choices in it: log 1, 80. -/
def Obligations.StepsRunTheFrontCommand : Prop :=
  (∀ (s : State) (c : Instr) (r : List Instr), s.pending = c :: r → step s = exec c { s with pending := r })
  ∧ (∀ s : State, s.pending = [] → step s = .next s.nextSc ∧ s.nextSc.now = s.now + 1 ∧ s.nextSc.pending = []
      ∧ (s.alive = false → s.nextSc = { s with now := s.now + 1 }))

/-- Whatever the state and the command, the block answers a next state, and the queue of waiting commands is as it was: no
command stops the model (no fault, no refusal), and none adds to or drops from the queue. The model's own choices in it:
log 12. -/
def Obligations.EveryCommandAnswers : Prop :=
  (∀ (c : Instr) (s : State), ∃ t, exec c s = .next t ∧ t.pending = s.pending)
  ∧ (∀ (s : State) (c : Instr) (r : List Instr), s.pending = c :: r → ∃ t, step s = .next t ∧ t.pending = r)

/-- R195, R196, R249, R252, R336, R413, R432: after reset every queue is DISABLED with SIZE 6 and LIMIT 1,000,000, RPTR and
WPTR 0; every ring has 16 records and every pair 16 credits; the tick is 2,000,000 sc long; the trace's ring has 2^20 B; no
graph, sowing or sequence exists; nothing waits on the mesh; start-up is at step 1 and no function is released; FATALINFO
is not valid; the tables of semaphores, queues, engines, channels and fault queues are in canonical form. R23, R64, R413, R445: BLOCK_RESET leaves every register at its reset value,
whatever the block was doing, start-up at step 1 and outputs low; the input pins' levels, FTT_FATALINFO and the rewritable
store stand, but for the word or sector of an operation that was in progress. The model's own choices in it: log 2, 4, 6,
91. -/
def Obligations.ResetLeaves : Prop :=
  (let s := State.reset
   (∀ q, (s.queue q).st = .disabled ∧ (s.queue q).size = 6 ∧ (s.queue q).limit = 1000000 ∧ (s.queue q).rptr = 0
     ∧ (s.queue q).wptr = 0 ∧ (s.queue q).enable = false)
   ∧ (∀ n, fld (s.rxOf n) 48 4 = 4 ∧ bit (s.rxOf n) 52 = false ∧ s.fullCredits n = 16)
   ∧ s.tcs.len = 2000000 ∧ s.tr.ssize = 20 ∧ s.tr.enable = false
   ∧ (∀ h, s.graph? h = none) ∧ (∀ k, s.sowing? k = none) ∧ (∀ n i, s.seq? n i = none) ∧ (∀ m, s.semVal m = 0)
   ∧ s.mesh.out = [] ∧ s.mesh.waiting = [] ∧ s.pending = [] ∧ s.su.step = 1 ∧ s.su.released = false
   ∧ s.ftt.fatal = false ∧ bit s.ftt.fatalInfo 40 = false ∧ s.alive = true ∧ s.tidy)
  ∧ (∀ s : State, ∃ t, exec .blockReset s = .next t ∧ State.reset.only t [.pending, .free, .pins, .ftt, .nv]
     ∧ t.pending = s.pending ∧ t.ftt = { FaultUnit.reset with fatalInfo := s.ftt.fatalInfo }
     ∧ t.pins = { s.pins with flrDone := [], flrHeld := [], descOut := [], tokOut := [], preOut := [], linkOut := [] }
     ∧ t.nv = { Persistent.reset with words := t.nv.words } ∧ t.alive = true
     ∧ (s.nv.ops = [] ∨ s.nv.issued = none → t.nv.words = s.nv.words)
     ∧ (∀ a n r, s.nv.ops = .read a n :: r → t.nv.words = s.nv.words)
     ∧ (∀ a w r i, s.nv.ops = .program a w :: r → i ≠ a → t.nvWord i = s.nvWord i)
     ∧ (∀ k r i, s.nv.ops = .erase k :: r → i / 512 ≠ k → t.nvWord i = s.nvWord i))

/-- R413: in the FATAL state no step but a fall of rst_n_i has any effect on the block's work: graphs, sowings, counters,
lists, the drill, queues, semaphores, sequences, the tick, the yoke, links, field maps and the persistent store stay as
they are, and the state and FTT_FATALINFO stay too. The model's own choices in it: log 12. -/
def Obligations.FatalFreezesTheBlock : Prop :=
  ∀ s t : State, s.ftt.fatal = true → s.pending.head? ≠ some .blockReset → step s = .next t →
    t.ftt.fatal = true ∧ t.ftt.fatalInfo = s.ftt.fatalInfo ∧ ∀ p ∈ workParts, s.same t p

/-- R413: an invariant of every step, whatever the command: while the block is in the FATAL state FTT_FATALINFO is valid. And
FTT_FATALINFO, once valid, stays so, over rst_n_i too. -/
def Obligations.FatalInfoStaysValid : Prop :=
  ∀ s t : State, step s = .next t →
    ((s.ftt.fatal = true → bit s.ftt.fatalInfo 40 = true) → t.ftt.fatal = true → bit t.ftt.fatalInfo 40 = true)
    ∧ (bit s.ftt.fatalInfo 40 = true → bit t.ftt.fatalInfo 40 = true)

/-- R66: a command that names a handle which is free, or which another function owns, fails with BAD_HANDLE and has no other
effect: GRAPH_LOAD, GRAPH_SEAL, GRAPH_UNSEAL, GRAPH_FREE, LAUNCH_GRAPH, both forms of PATCH_PARAM, SWAP_BANK and STU_MODEL.
(A LAUNCH_GRAPH whose end action's semaphore its queue does not declare fails before that with SEM_UNDECLARED.) -/
def Obligations.HandlesBelongToTheirFunction : Prop :=
  ∀ (s : State) (q : Fin 16384) (p : BitVec 512), s.heads q p →
    opcode p ∈ [0x09, 0x0A, 0x0B, 0x0C, 0x10, 0x11, 0x13, 0x30] →
    (opcode p = 0x10 → (endActOf p).semv = true → s.declared q (endActOf p).sem = true) →
    (∀ g, s.graph? (handleOf p) = some g → g.owner ≠ fnOfQueue q) →
    exec (commandOf q p) s = .next ((s.serve q).retire q stBadHandle 0)

/-- R203, R204, R206: a command that retires moves its queue's head by one packet: in the ring RPTR, in a buffer BPOS, and RPTR
with the buffer's last packet. Nothing but the queue, the mesh and the records of a failed result write changes. R201,
R204: the result record is asked for at retirement, 16 B at QoS 3 to RADDR with OPCODE, STATUS, QUEUE, INDEX and VALUE; it is
issued at once where nothing stands against it, and waits behind an earlier result record of its queue. The model's own
choices in it: log 1, 18. -/
def Obligations.RetirementMovesTheHead : Prop :=
  (∀ (s : State) (q st : Nat) (v : W64) (p : BitVec 512),
     s.headPacket? q = some p → haltsQueue st = false → (halterr p = true → st = 0) → (s.queue q).haltAfter = none →
     let t := s.retire q st v
     t.queue q = ((s.queue q).advance).settle s.now ∧ s.otherQueues t q ∧ s.only t (.hcf :: reporting)
       ∧ ((s.queue q).inbuf = false → (t.queue q).rptr = (s.queue q).rptr + 1 ∧ (t.queue q).inbuf = false
           ∧ (t.queue q).win = (s.queue q).win.tail)
       ∧ ((s.queue q).inbuf = true → (s.queue q).bpos + 1 < pf (s.queue q).buf 0 32 21 →
           (t.queue q).rptr = (s.queue q).rptr ∧ (t.queue q).inbuf = true ∧ (t.queue q).bpos = (s.queue q).bpos + 1)
       ∧ ((s.queue q).inbuf = true → pf (s.queue q).buf 0 32 21 ≤ (s.queue q).bpos + 1 →
           (t.queue q).rptr = (s.queue q).rptr + 1 ∧ (t.queue q).inbuf = false ∧ (t.queue q).bpos = 0))
  ∧ (∀ (s : State) (q st a : Nat) (v : W64) (p : BitVec 512),
     s.headPacket? q = some p → haltsQueue st = false → (halterr p = true → st = 0) → rrec p = true →
     ((s.queue q).inbuf = true → (s.queue q).bpos + 1 < pf (s.queue q).buf 0 32 21) → (s.queue q).haltAfter = none →
     s.translate (fnOfQueue q) (pw p 1) 16 .write (some (s.queue q).plot) false = .ok a →
     let t := s.retire q st v
     ∃ x : Xfer, x.purpose = .result q ∧ x.addr = a ∧ x.bytes = 16 ∧ x.write = true ∧ x.qos = 3 ∧ x.fn = fnOfQueue q
       ∧ x.data = [pack [(0, 8, opcode p), (8, 8, st), (16, 14, q), (32, 32, (s.queue q).rptr.toNat)], v]
       ∧ ((t.mesh.out = s.mesh.out ++ [x] ∧ t.mesh.waiting = s.mesh.waiting)
         ∨ (t.mesh.out = s.mesh.out ∧ t.mesh.waiting = s.mesh.waiting ++ [x]))
       ∧ (s.su.alignDone = true → s.mesh.out.length < 512 → s.pins.bme.getLsbD (fnOfQueue q) = true →
           s.mesh.waiting = [] → (∀ y ∈ s.mesh.out, y.purpose ≠ .result q) → t.mesh.out = s.mesh.out ++ [x])
       ∧ ((∃ y ∈ s.mesh.out ++ s.mesh.waiting, y.purpose = .result q) → t.mesh.waiting = s.mesh.waiting ++ [x]))

/-- R203, R197: a status that halts leaves RPTR and BPOS on the command, discards the window, shows the status as CODE, and
puts one record naming the queue, RPTR, BPOS and the status behind those of the function's fault queue. R199, R203, R211:
whatever its opcode, a head packet whose turn has come (R207) and that fails validation has none of its effect: its queue
halts with BAD_COMMAND, SEG_FAULT or SEG_STALE and the head stays on it. The model's own choices in it: log 32, 86. -/
def Obligations.HaltingLeavesTheHead : Prop :=
  (∀ (s : State) (q st : Nat) (v : W64) (p : BitVec 512),
     s.headPacket? q = some p → (haltsQueue st = true ∨ (halterr p = true ∧ st ≠ 0)) → rrec p = false →
     (s.queue q).haltAfter = none →
     (s.faultQ (fnOfQueue q)).recs.length < 64 → (s.faultQ (fnOfQueue q)).quiet (0x200 + st) s.now = true →
     (s.faultQ (fnOfQueue q)).freshAt ≠ s.now →
     let t := s.retire q st v
     (t.queue q).st = .halted ∧ (t.queue q).code = BitVec.ofNat 8 st ∧ (t.queue q).rptr = (s.queue q).rptr
       ∧ (t.queue q).bpos = (s.queue q).bpos ∧ (t.queue q).inbuf = (s.queue q).inbuf ∧ (t.queue q).win = []
       ∧ s.otherQueues t q ∧ s.only t (.hcf :: reporting)
       ∧ (t.faultQ (fnOfQueue q)).recs = (s.faultQ (fnOfQueue q)).recs
           ++ [s.recordOf { code := 0x200 + st, fn := some (fnOfQueue q), queue := some q,
                            arg := pack [(0, 32, (s.queue q).rptr.toNat), (32, 20, (s.queue q).bpos),
                              (52, 1, b2n (s.queue q).inbuf), (56, 8, opcode p)] }])
  ∧ (∀ (s : State) (q : Fin 16384) (p : BitVec 512),
     s.alive = true → s.headPacket? q = some p → s.inSc.began = false → s.nextServed = some q.val →
     s.validate q p ≠ 0 → (s.queue q).haltAfter = none →
     (s.validate q p = stBadCommand ∨ s.validate q p = stSegFault ∨ s.validate q p = stSegStale)
       ∧ ∃ t, exec (commandOf q p) s = .next t ∧ (t.queue q).st = .halted
           ∧ (t.queue q).code = BitVec.ofNat 8 (s.validate q p) ∧ (t.queue q).rptr = (s.queue q).rptr
           ∧ (t.queue q).bpos = (s.queue q).bpos ∧ s.otherQueues t q ∧ s.only t (.hcf :: reporting))

/-- R199 (NOP), R206 (BUFFER), R210 (STREAM_SYNC): NOP retires at once with OK; BUFFER enters its packets with RPTR left on it,
and inside a buffer fails with BAD_COMMAND; STREAM_SYNC discards the window behind it and retires. R213: FENCE. SOWING
retires at once with OK when the sowing is not live and not later than the last ID, fails with NOT_LAUNCHED when it is
later or the function has been assigned none, and waits while its end action is not complete; PRIOR waits while a sowing of
the queue is left and else retires with the earliest failure as VALUE; NOWAIT fails with FENCE_PENDING in place of a wait.
The model's own choices in it: log 62. -/
def Obligations.FrontEndCommandsComplete : Prop :=
  (∀ (s : State) (q : Fin 16384) (p : BitVec 512), s.heads q p →
     (opcode p = 0x00 → exec (.nop q) s = .next ((s.serve q).retire q 0 0))
     ∧ (opcode p = 0x01 → (s.queue q).inbuf = false →
         ∃ t, exec (.buffer q) s = .next t ∧ (t.queue q).inbuf = true ∧ (t.queue q).bpos = 0 ∧ (t.queue q).buf = p
           ∧ (t.queue q).rptr = (s.queue q).rptr ∧ (t.queue q).st = (s.queue q).st ∧ s.otherQueues t q
           ∧ s.only t [.hcf, .inSc])
     ∧ (opcode p = 0x01 → (s.queue q).inbuf = true →
         exec (.buffer q) s = .next ((s.serve q).retire q stBadCommand 0))
     ∧ (opcode p = 0x02 → ∃ u, exec (.streamSync q) s = .next (u.retire q 0 0) ∧ (u.queue q).win.length = 1
           ∧ (u.queue q).drop = (s.queue q).fetching ∧ (u.queue q).rptr = (s.queue q).rptr ∧ s.otherQueues u q
           ∧ s.only u [.hcf, .inSc]))
  ∧ (∀ (s : State) (q : Fin 16384) (p : BitVec 512), s.heads q p → opcode p = 0x03 →
     let k := sowKey (fnOfQueue q) (BitVec.ofNat 32 (pf p 2 0 32))
     let waits (t : State) : Prop := (t.queue q).st = .stalled ∧ (t.queue q).wait = 6
       ∧ (t.queue q).rptr = (s.queue q).rptr ∧ s.otherQueues t q ∧ s.only t [.hcf, .inSc]
     let ends (st : Nat) : Prop := exec (.fence q) s = .next ((s.serve q).retire q st 0)
     (pf p 0 32 2 = 1 → s.sow.lastId.look none (fnOfQueue q) = none → ends 0x14)
     ∧ (∀ l, pf p 0 32 2 = 1 → s.sow.lastId.look none (fnOfQueue q) = some l →
         (idLater (BitVec.ofNat 32 (pf p 2 0 32)) l = true → ends 0x14)
         ∧ (idLater (BitVec.ofNat 32 (pf p 2 0 32)) l = false →
             (s.sowing? k = none → ends 0)
             ∧ (s.sowing? k ≠ none → nowait p = true → ends 0x15)
             ∧ (s.sowing? k ≠ none → nowait p = false → ∃ t, exec (.fence q) s = .next t ∧ waits t)))
     ∧ (pf p 0 32 2 = 0 → s.fencedPrior q = true →
         (nowait p = true → ends 0x15)
         ∧ (nowait p = false → ∃ t, exec (.fence q) s = .next t ∧ waits t))
     ∧ (pf p 0 32 2 = 0 → s.fencedPrior q = false →
         ∃ u, exec (.fence q) s = .next (u.retire q 0 (match (s.queue q).failed with
             | some f => f.2.zeroExtend 64 | none => 0))
           ∧ (u.queue q).failed = none ∧ (u.queue q).rptr = (s.queue q).rptr ∧ s.otherQueues u q
           ∧ s.only u [.hcf, .inSc]))

/-- R193, R195, R196, R197: a doorbell moves WPTR, and an IDLE queue then runs with its timer restarted; one beyond the ring or
behind the old WPTR is ignored with DOORBELL_BAD; on a DISABLED queue and for the current WPTR nothing happens. HCF_QPTR is
taken while ENABLE is 0. Setting ENABLE clamps SIZE, and the queue is IDLE, or HALTED with SEG_FAULT where its ring does
not lie in its segment; clearing it halts and disables. HALT stops a queue that has nothing under way; RESUME of a HALTED
queue executes its head again, SKIP the packet after it. R219: the timer restarts where a queue leaves IDLE, it stops where a
queue halts, and RESUME lets it run on. R350: a queue that is enabled while its plot is not RUNNING is held. The model's own
choices in it: log 32, 85. -/
def Obligations.QueueRegistersAct : Prop :=
  ∀ (s : State) (req : Req) (q : Fin 16384), s.ftt.fatal = false → s.pageOk req (fnOfQueue q) = true →
    let r := s.queue q
    let n := fnOfQueue q
    let z (value : W64) := max 6 (min 20 (fld value 0 5))
    let ring (size : Nat) : Trans :=
      s.translate n (pack [(12, 36, r.off.toNat), (60, 4, r.seg.toNat)]) (64 * 2 ^ size) .read (some r.plot) true
    let gives (c : Instr) (x : Queue) : Prop := ∃ t, exec c s = .next t ∧ t.queue q = x ∧ s.otherQueues t q
      ∧ t.mt.resp = 0 ∧ t.mt.rdata = 0 ∧ s.only t [.mt, .hcf]
    (∀ v, (r.st = .disabled ∨ v = r.wptr) → exec (.hcfQdb req q v) s = .next (s.respond 0 0))
    ∧ (∀ v, r.st ≠ .disabled → s.inReset n = false → v ≠ r.wptr →
        ((v - r.rptr).toNat ≤ 2 ^ r.size → (v - r.wptr).toNat ≤ 2 ^ r.size →
          (r.st ≠ .idle → gives (.hcfQdb req q v) { r with wptr := v })
          ∧ (r.st = .idle → r.held = false → v ≠ r.rptr → gives (.hcfQdb req q v)
              { r with wptr := v, st := .running, code := 0, wait := 0, timer := some s.now, spent := 0, armed := r.limit,
                       head := .none }))
        ∧ (2 ^ r.size < (v - r.rptr).toNat ∨ 2 ^ r.size < (v - r.wptr).toNat →
          (s.faultQ n).recs.length < 64 → (s.faultQ n).quiet 0x301 s.now = true → (s.faultQ n).freshAt ≠ s.now →
          ∃ t, exec (.hcfQdb req q v) s = .next t ∧ t.mt.resp = 0 ∧ s.only t (.mt :: reporting)
            ∧ (t.faultQ n).recs = (s.faultQ n).recs
                ++ [s.recordOf { code := 0x301, fn := some n, queue := some q.val, arg := v.zeroExtend 64 }]))
    ∧ (∀ v, (r.enable = true → gives (.hcfQptrWrite req q v) r)
        ∧ (r.enable = false →
            gives (.hcfQptrWrite req q v) { r with rptr := v, wptr := v, bpos := 0, inbuf := false, win := [] }))
    ∧ (∀ v, (r.enable = true → exec (.queueEnable req q v) s = .next (s.respond 0 0))
        ∧ (r.enable = false → r.st = .disabled →
            (∀ a, ring (z v) = .ok a → r.rptr = r.wptr → r.inbuf = false → gives (.queueEnable req q v)
              { r with size := z v, enable := true, held := s.holdsQueue q r.plot, st := .idle, code := 0, wait := 0,
                       timer := none, spent := 0, armed := r.limit, head := .none })
            ∧ ((∀ a, ring (z v) ≠ .ok a) → ∃ t, exec (.queueEnable req q v) s = .next t ∧ (t.queue q).st = .halted
                ∧ (t.queue q).code = BitVec.ofNat 8 stSegFault ∧ (t.queue q).enable = true ∧ (t.queue q).size = z v
                ∧ s.otherQueues t q ∧ s.only t (.mt :: .hcf :: reporting))))
    ∧ (∀ v, (r.enable = false → gives (.queueDisable req q v) { r with size := z v })
        ∧ (r.enable = true → r.head.underway = false → ∃ t, exec (.queueDisable req q v) s = .next t
            ∧ (t.queue q).st = .disabled ∧ (t.queue q).enable = false ∧ (t.queue q).code = 0 ∧ (t.queue q).win = []
            ∧ (t.queue q).timer = none ∧ t.mt.resp = 0))
    ∧ (∀ v, ((r.st = .disabled ∨ r.st = .halted) → exec (.halt req q v) s = .next (s.respond 0 0))
        ∧ (r.st ≠ .disabled → r.st ≠ .halted → r.head.underway = false → (∀ w ∈ s.sm.waiters, w.who ≠ .queue q) →
            ∃ t, exec (.halt req q v) s = .next t ∧ (t.queue q).st = .halted ∧ (t.queue q).code = 0
              ∧ (t.queue q).rptr = r.rptr ∧ (t.queue q).bpos = r.bpos ∧ (t.queue q).win = [] ∧ (t.queue q).head = .none
              ∧ s.otherQueues t q ∧ s.only t [.mt, .hcf, .gs, .ccx, .hv, .pru])
        ∧ (r.st ≠ .disabled → r.st ≠ .halted → r.head.underway = true → r.haltAfter = none →
            gives (.halt req q v) { r with haltAfter := some ⟨0, false, none⟩ }))
    ∧ (r.st ≠ .halted → gives (.resume req q) r ∧ gives (.skip req q) r)
    ∧ (r.st = .halted → r.held = false →
        let runs (x : Queue) : Queue :=
          { x with st := .running, code := 0, wait := 0, timer := some (r.timer.getD s.now), head := .none }
        (r.rptr ≠ r.wptr → gives (.resume req q) (runs r))
        ∧ (r.rptr = r.wptr → r.inbuf = false →
            gives (.resume req q) { r with st := .idle, code := 0, wait := 0, timer := none, head := .none })
        ∧ (r.inbuf = true → r.bpos + 1 < pf r.buf 0 32 21 → gives (.skip req q)
            (runs { r with bpos := r.bpos + 1, win := r.win.tail }))
        ∧ (r.inbuf = false → r.rptr ≠ r.wptr → r.rptr + 1 ≠ r.wptr → gives (.skip req q)
            (runs { r with rptr := r.rptr + 1, win := r.win.tail })))

/-- R192, R208, R212, R219, R220: a queue whose window has room reads its next packet, 64 B; where the address does not
translate, the queue halts when that packet is its head. A timer that has run for LIMIT µs, the LIMIT of its last restart,
halts the queue with TIMEOUT; the timer, which has fired, begins anew. The model's own choices in it: log 1, 53, 62, 85. -/
def Obligations.QueuesFetchAndTimeOut : Prop :=
  ∀ (s : State) (q : Fin 16384), s.alive = true →
    let r := s.queue q
    let n := fnOfQueue q
    (∀ pos, r.nextFetch = some pos → (r.st = .running ∨ r.st = .stalled) → r.held = false → r.fetching = false →
      r.win.length < 64 → s.inReset n = false →
      (∀ p, s.translate n (r.fetchAddr pos) 64 .read (some r.plot) true = .ok p →
        ∃ t, exec (.commandFetch q) s = .next t ∧ t.queue q = { r with fetching := true } ∧ s.otherQueues t q
          ∧ s.asks t (.fetch q pos.1 pos.2.1 pos.2.2) n false p 64 [] ∧ s.only t [.hcf, .mesh])
      ∧ ((∀ p, s.translate n (r.fetchAddr pos) 64 .read (some r.plot) true ≠ .ok p) →
        (r.win = [] → r.head = .none → ∃ t, exec (.commandFetch q) s = .next t ∧ (t.queue q).st = .halted
          ∧ ((t.queue q).code = BitVec.ofNat 8 stSegFault ∨ (t.queue q).code = BitVec.ofNat 8 stSegStale)
          ∧ (t.queue q).rptr = r.rptr ∧ s.otherQueues t q ∧ s.only t (.hcf :: reporting))
        ∧ (r.win ≠ [] → exec (.commandFetch q) s = .next s)))
    ∧ (∀ a, r.timer = some a → r.armed * 2000 ≤ r.spent + (s.now - a) → s.timedSowings q = [] →
        r.head.underway = false → (∀ w ∈ s.sm.waiters, w.who ≠ .queue q) →
        (s.faultQ n).recs.length < 64 → (s.faultQ n).quiet 0x218 s.now = true → (s.faultQ n).freshAt ≠ s.now →
        ∃ t, exec (.queueTimeout q) s = .next t ∧ (t.queue q).st = .halted ∧ (t.queue q).code = BitVec.ofNat 8 stTimeout
          ∧ (t.queue q).rptr = r.rptr ∧ (t.queue q).timer = none ∧ (t.queue q).spent = 0 ∧ s.otherQueues t q
          ∧ (t.faultQ n).recs = (s.faultQ n).recs
              ++ [s.recordOf { s.haltReport q stTimeout none 0 with fn := some n }]
          ∧ s.only t (.hcf :: .gs :: .ccx :: .pru :: reporting))

/-- R231, R232: the nine operations, on a semaphore nobody waits on. Each acts on the one semaphore and returns its value
before it acted as VALUE; ADD beyond the range and a short TRY_ACQUIRE change nothing and end with their status; a wait
that is not satisfied joins the waiters and stalls its queue with WAIT SEM. R228, R238: an operation of a function that
SM_BLKACL does not admit ends with SEM_ACCESS, whether declared or not; an undeclared signal that is admitted ends with
SEM_UNDECLARED; neither changes a semaphore. The model's own choices in it: log 18. -/
def Obligations.SemaphoreCommands : Prop :=
  (∀ (s : State) (q : Fin 16384) (p : BitVec 512), s.heads q p → opcode p = 0x18 →
     let m := pf p 2 0 18
     let op := pf p 2 18 4
     let v0 := BitVec.ofNat 32 (pf p 2 32 32)
     let v1 := BitVec.ofNat 32 (pf p 3 0 32)
     let v := s.semVal m
     s.semCheck (fnOfQueue q) q m op = 0 → (∀ w ∈ s.sm.waiters, w.sem ≠ m) →
     let ends (o : Host.Outcome State Fault Refusal) (st : Nat) (n : BitVec 32) : Prop :=
       ∃ u, o = .next (u.retire q st (v.signExtend 64)) ∧ u.semVal m = n ∧ (∀ k, k ≠ m → u.semVal k = s.semVal k)
         ∧ u.sm.waiters = s.sm.waiters ∧ u.sm.acl = s.sm.acl ∧ s.otherQueues u q
         ∧ u.queue q = s.queue q ∧ s.only u [.sm, .hcf, .inSc, .hv]
     let waits (o : Host.Outcome State Fault Refusal) : Prop :=
       ∃ t, o = .next t ∧ (t.queue q).st = .stalled ∧ (t.queue q).wait = 7 ∧ (t.queue q).rptr = (s.queue q).rptr
         ∧ t.sm.vals = s.sm.vals ∧ t.sm.waiters = s.sm.waiters ++ [⟨m, op, v0, .queue q, s.now⟩]
         ∧ s.otherQueues t q ∧ s.only t [.sm, .hcf, .inSc, .hv]
     (op = 0 → ends (exec (.semRead q) s) 0 v)
     ∧ (op = 1 → ends (exec (.semSet q) s) 0 v0)
     ∧ (op = 2 → -2147483648 ≤ v.toInt + v0.toInt → v.toInt + v0.toInt ≤ 2147483647 →
         ends (exec (.semAdd q) s) 0 (v + v0))
     ∧ (op = 2 → (v.toInt + v0.toInt < -2147483648 ∨ 2147483647 < v.toInt + v0.toInt) →
         ends (exec (.semAdd q) s) 0x21 v)
     ∧ (op = 3 → ends (exec (.semMax q) s) 0 (if v.toInt < v0.toInt then v0 else v))
     ∧ (op = 4 → ends (exec (.semCas q) s) 0 (if v = v0 then v1 else v))
     ∧ (op = 5 → v0.toInt ≤ v.toInt → ends (exec (.semTryAcquire q) s) 0 (v - v0))
     ∧ (op = 5 → v.toInt < v0.toInt → ends (exec (.semTryAcquire q) s) 0x22 v)
     ∧ (op = 6 → v0.toInt ≤ v.toInt → ends (exec (.semWaitGe q) s) 0 v)
     ∧ (op = 6 → v.toInt < v0.toInt → waits (exec (.semWaitGe q) s))
     ∧ (op = 7 → v = v0 → ends (exec (.semWaitEq q) s) 0 v)
     ∧ (op = 7 → v ≠ v0 → waits (exec (.semWaitEq q) s))
     ∧ (op = 8 → v0.toInt ≤ v.toInt → ends (exec (.semAcquire q) s) 0 (v - v0))
     ∧ (op = 8 → v.toInt < v0.toInt → waits (exec (.semAcquire q) s)))
  ∧ (∀ (s : State) (q : Fin 16384) (p : BitVec 512), s.heads q p → opcode p = 0x18 →
     let m := pf p 2 0 18
     let a := s.sm.acl.look 0 (m / 64)
     let n := fnOfQueue q
     (fld a 0 8 ≠ n → ¬(bit a 16 = true ∧ fld a 8 8 = n) → bit a 17 = false →
         exec (commandOf q p) s = .next ((s.serve q).retire q 0x20 0))
     ∧ ((fld a 0 8 = n ∨ (bit a 16 = true ∧ fld a 8 8 = n) ∨ bit a 17 = true) → 1 ≤ pf p 2 18 4 → pf p 2 18 4 ≤ 5 →
         (∀ k, k < 4 → declares ((s.queue q).decl.look 0 k) m = false) →
         exec (commandOf q p) s = .next ((s.serve q).retire q 0x16 0)))

/-- R233: waiters are evaluated in order of arrival. An ACQUIRE that the value left by the earlier waiters does not satisfy
blocks every later ACQUIRE on the semaphore; those and waiters on other semaphores stay, in their order. R231, R233: what
one evaluation of the waiters takes from the semaphore is exactly what its satisfied ACQUIREs asked for; a satisfied
WAIT_GE or WAIT_EQ takes nothing. R233, R236: an operation that changes a semaphore is followed by the evaluation of its
waiters, before anything else: the value and the waiters left are those of the pass from the new value, and other
semaphores are as they were. The model's own choices in it: log 17. -/
def Obligations.SemaphoreWaitsInOrder : Prop :=
  (∀ (m : Nat) (pre post : List SemWait) (w : SemWait) (v : BitVec 32),
     w.sem = m → w.op = 8 → (semPass m pre v false).2.2.toInt < w.val0.toInt →
     let acq (x : SemWait) : Bool := x.sem == m && x.op == 8
     (∃ l, (semPass m (pre ++ w :: post) v false).1.filter acq = l ++ (w :: post).filter acq)
       ∧ (semPass m (pre ++ w :: post) v false).1.filter (fun x => x.sem != m)
           = (pre ++ w :: post).filter (fun x => x.sem != m)
       ∧ (semPass m (pre ++ w :: post) v false).1.Sublist (pre ++ w :: post))
  ∧ (∀ (m : Nat) (ws : List SemWait) (v : BitVec 32) (blocked : Bool),
     (∀ w ∈ ws, w.op = 6 ∨ w.op = 7 ∨ w.op = 8) →
     (semPass m ws v blocked).2.2
         + (((semPass m ws v blocked).2.1.filter fun x => x.1.op == 8).map fun x => x.1.val0).sum = v
       ∧ ∀ x ∈ (semPass m ws v blocked).2.1, x.1.sem = m ∧ x.1 ∈ ws ∧ (x.1.op = 7 → x.2 = x.1.val0)
           ∧ (x.1.op ≠ 7 → x.1.val0.toInt ≤ x.2.toInt))
  ∧ (∀ (s : State) (q : Fin 16384) (p : BitVec 512), s.heads q p → opcode p = 0x18 → pf p 2 18 4 = 1 →
     let m := pf p 2 0 18
     let v0 := BitVec.ofNat 32 (pf p 2 32 32)
     s.semCheck (fnOfQueue q) q m 1 = 0 → s.semVal m ≠ v0 →
     ∃ t, exec (.semSet q) s = .next t ∧ t.semVal m = (semPass m s.sm.waiters v0 false).2.2
       ∧ t.sm.waiters = (semPass m s.sm.waiters v0 false).1 ∧ (∀ k, k ≠ m → t.semVal k = s.semVal k)
       ∧ (∀ r w, r ≠ q.val → s.sm.waiters = [w] → w.sem = m → w.op = 6 → w.who = .queue r →
           w.val0.toInt ≤ v0.toInt → s.headPacket? r ≠ none → (s.queue r).haltAfter = none →
           t.queue r = ((s.queue r).advance).settle s.now))

/-- R244: of a circle the victim is a member, of class BE when any member is, and no member of that choice began its wait
later, nor at the same sc with a higher queue number. R245, R246: the walk ends its snapshot; a circle whose victim is no
longer on the same wait is left alone, and otherwise the victim's wait ends with CYCLE_BROKEN, its queue halts, and no
semaphore changes while nobody else waits on it. The model's own choices in it: log 19. -/
def Obligations.WaitCyclesAreBroken : Prop :=
  (∀ (s : State) (c : List Snap) (v : Snap), s.victim c = some v →
     v ∈ c ∧ (s.waitsBe v.1 = true ∨ ∀ a ∈ c, s.waitsBe a.1 = false)
       ∧ ∀ a ∈ c, s.waitsBe a.1 = s.waitsBe v.1 → a.2.2.1 < v.2.2.1 ∨ (a.2.2.1 = v.2.2.1 ∧ a.1 ≤ v.1))
  ∧ (∀ (s : State) (c : List Snap) (v : Snap), s.alive = true → s.sm.snapshot = some [c] → s.victim c = some v →
     (s.sameWait v = false → exec .waitCycleBreak s = .next { s with sm := { s.sm with snapshot := none } })
     ∧ (s.sameWait v = true → s.headPacket? v.1 ≠ none → (s.queue v.1).haltAfter = none →
         (∀ w ∈ s.sm.waiters, w.sem = v.2.1 → w.who = .queue v.1) →
         (∀ w ∈ s.sm.waiters, w.who = .queue v.1 → w.sem = v.2.1) →
         ∃ t, exec .waitCycleBreak s = .next t ∧ t.sm.snapshot = none ∧ (∀ k, t.semVal k = s.semVal k)
           ∧ (t.queue v.1).st = .halted ∧ (t.queue v.1).code = 0x17 ∧ (t.queue v.1).rptr = (s.queue v.1).rptr
           ∧ (∀ w ∈ t.sm.waiters, w.who ≠ .queue v.1) ∧ s.otherQueues t v.1))

/-- R221, R222: CORE_CALL waits for a sandbox behind those that wait already, or with NOWAIT fails with CORE_BUSY; the first of
them takes a free sandbox and its image is read; the program starts with pc = ENTRY, ra and sp at 0x0001_8000, a0 to a3 the
arguments, a4 the function, a5 the queue, every other register 0. A program that runs executes the instruction at its pc, and
one that stands at an end, a service or a trap stays there. R222 to R225: how a fall-back program ends. EXIT, a trap
and the spent budget each end the CORE_CALL with OK and a0, CORE_TRAP, or CORE_BUDGET once every store is acknowledged, and
free the sandbox; until then the end is held. R224: the services. LOAD and STORE of an 8-byte aligned address that
translates issue one 8-byte transfer of the program's function; NOW answers RLA_DLYNOW in a0; SEM of an operation that does
not wait, admitted and declared, acts on the semaphore and answers the old value, sign-extended, in a0. STORE and SEM
follow the acknowledgement of every earlier store. The model's own choices in it: log 49, 66, 79, 80. -/
def Obligations.ProgramsRunInSandboxes : Prop :=
  ((∀ (s : State) (q : Fin 16384) (p : BitVec 512), s.heads q p → opcode p = 0x22 →
     let busy := s.freeSandbox? = none ∨ s.ccx.waiting ≠ []
     (nowait p = true → busy → exec (.coreCall q) s = .next ((s.serve q).retire q 0x1A 0))
     ∧ ((nowait p = false ∨ ¬busy) → ∃ t, exec (.coreCall q) s = .next t ∧ t.ccx.waiting = s.ccx.waiting ++ [q.val]
         ∧ t.ccx.progs = s.ccx.progs ∧ (t.queue q).st = .stalled ∧ (t.queue q).wait = 9
         ∧ (t.queue q).rptr = (s.queue q).rptr ∧ s.otherQueues t q ∧ s.only t [.ccx, .hcf, .inSc]))
   ∧ (∀ (s : State) (q : Fin 16384) (p : BitVec 512) (c a : Nat) (rest : List Nat),
     s.alive = true → s.freeSandbox? = some c → s.headPacket? q = some p → s.ccx.waiting = q.val :: rest →
     s.translate (fnOfQueue q) (pw p 2) (pf p 3 0 17) .read (some (s.queue q).plot) false = .ok a →
     ∃ t r, exec (.coreCallStart q) s = .next t ∧ t.ccx.waiting = rest ∧ t.prog? c = some r
       ∧ r.q = q.val ∧ r.fn = fnOfQueue q ∧ r.budget = pf p 0 32 14 ∧ r.start = none
       ∧ r.pc = BitVec.ofNat 64 (pf p 3 32 16) ∧ r.regs.look 0 1 = 0x18000 ∧ r.regs.look 0 2 = 0x18000
       ∧ r.regs.look 0 10 = pw p 4 ∧ r.regs.look 0 11 = pw p 5 ∧ r.regs.look 0 12 = pw p 6
       ∧ r.regs.look 0 13 = pw p 7 ∧ r.regs.look 0 14 = BitVec.ofNat 64 (fnOfQueue q)
       ∧ r.regs.look 0 15 = BitVec.ofNat 64 q.val
       ∧ (∀ x, x ≠ 1 → x ≠ 2 → (x < 10 ∨ 15 < x) → r.regs.look 0 x = 0)
       ∧ s.asks t (.coreImage q c) (fnOfQueue q) false a (pf p 3 0 17) []
       ∧ (∀ d, d ≠ c → t.prog? d = s.prog? d) ∧ s.otherQueues t q ∧ s.only t [.ccx, .hcf, .mesh]))
  ∧ (∀ (s : State) (core : Fin 3) (r : Program), s.alive = true → s.prog? core = some r →
     let ends (o : Host.Outcome State Fault Refusal) (st : Nat) (v : W64) : Prop :=
       (r.stores = 0 → ∃ u, o = .next (u.retire r.q st v) ∧ u.prog? core = none ∧ (∀ d, d ≠ core.val → u.prog? d = s.prog? d)
         ∧ u.ccx.waiting = s.ccx.waiting ∧ s.only u [.ccx])
       ∧ (r.stores ≠ 0 → ∃ t, o = .next t ∧ t.prog? core = some { r with exiting := some (st, v), loading := false }
         ∧ (∀ d, d ≠ core.val → t.prog? d = s.prog? d) ∧ s.only t [.ccx])
     (r.runs = true → (r.atExit = true ∨ r.calls 0 = true) → ends (exec (.ecallExit core (r.reg 10)) s) 0 (r.reg 10))
     ∧ (r.runs = true → r.traps = true → ends (exec (.coreTrap core) s) 0x1B 0)
     ∧ (∀ t0, r.start = some t0 → r.exiting = none → t0 + r.budget * 2000 ≤ s.now →
         ends (exec (.coreBudget core) s) 0x1C 0)
     ∧ (∀ i len x, r.runs = true → r.fetch = some (i, len) → (∀ a, i ≠ .counter a) → r.apply i len 0 = some x →
         (s.runProgram core).prog? core = some x ∧ (∀ d, d ≠ core.val → (s.runProgram core).prog? d = s.prog? d)
           ∧ s.only (s.runProgram core) [.ccx])
     ∧ ((r.runs = false ∨ ∀ w, r.turn w = none) → s.runProgram core = s))
  ∧ (∀ (s : State) (core : Fin 3) (r : Program), s.alive = true → s.prog? core = some r → r.runs = true →
     (∀ a, r.calls 1 = true → fld (r.reg 10) 0 3 = 0 →
       s.translate r.fn (r.reg 10) 8 .read (some (s.queue r.q).plot) false = .ok a →
       ∃ t, exec (.ecallLoad core (r.reg 10)) s = .next t
         ∧ t.prog? core = some { r with pc := r.pc + 4, loading := true }
         ∧ s.asks t (.coreLoad core) r.fn false a 8 []
         ∧ s.only t [.ccx, .mesh])
     ∧ (∀ a, r.calls 2 = true → r.stores = 0 → fld (r.reg 10) 0 3 = 0 →
       s.translate r.fn (r.reg 10) 8 .write (some (s.queue r.q).plot) false = .ok a →
       ∃ t, exec (.ecallStore core (r.reg 10) (r.reg 11)) s = .next t
         ∧ t.prog? core = some { r with pc := r.pc + 4, stores := 1 }
         ∧ s.asks t (.coreStore core) r.fn true a 8 [r.reg 11]
         ∧ s.only t [.ccx, .mesh])
     ∧ (r.calls 4 = true → ∃ t, exec (.ecallNow core) s = .next t
         ∧ t.prog? core = some { r with pc := r.pc + 4, regs := r.regs.put 0 10 (s.dlyNow.zeroExtend 64) }
         ∧ (∀ d, d ≠ core.val → t.prog? d = s.prog? d) ∧ s.only t [.ccx])
     ∧ (∀ index op operand : W64, r.calls 3 = true → r.reg 10 = index → r.reg 11 = op → r.reg 12 = operand →
       r.stores = 0 → index.toNat < 262144 → op.toNat ≤ 5 →
       (op.toNat = 5 → 1 ≤ (operand.truncate 32 : BitVec 32).toInt) →
       s.semCheck r.fn r.q index.toNat op.toNat = 0 → (∀ w ∈ s.sm.waiters, w.sem ≠ index.toNat) →
       ∃ t v1, exec (.ecallSem core index op operand) s = .next t
         ∧ t.prog? core
             = some { r with pc := r.pc + 4, regs := r.regs.put 0 10 ((s.semVal index.toNat).signExtend 64) }
         ∧ t.semVal index.toNat
             = (semEffect op.toNat (s.semVal index.toNat) (operand.truncate 32) v1 false).2
         ∧ (∀ k, k ≠ index.toNat → t.semVal k = s.semVal k) ∧ s.only t [.ccx, .sm, .hv, .free])
     ∧ (∀ index op operand : W64, r.calls 3 = true → r.reg 10 = index → r.reg 11 = op → r.reg 12 = operand →
       r.stores = 0 → 6 ≤ op.toNat →
       ∃ u, exec (.ecallSem core index op operand) s = .next (u.retire r.q 0x1B 0) ∧ u.prog? core = none
         ∧ s.only u [.ccx]))

/-- R67, R68, R70: GRAPH_ALLOC. The quota is checked before the space; an allocation gives the function an OPEN graph of the
packet's sizes at the chosen handle, with both banks, nodes and edges 0, and touches no other graph. R68: zeroing 256 B per
sc ends with the freed graph's storage free, and the next freed graph is taken up. R66, R72, R74: GRAPH_LOAD. The handle,
the state and the range are checked in that order; a load into an OPEN graph issues one read of the records, and the
command runs until it ends. The model's own choices in it: log 25, 33. -/
def Obligations.GraphsAreAllocatedAndLoaded : Prop :=
  (∀ (s : State) (q : Fin 16384) (handle : BitVec 16) (nb eb pb : Nat) (p : BitVec 512),
     s.heads q p → opcode p = 0x08 →
     let r := (newGraph q p nb eb pb).runs
     r = (if pf p 2 27 1 = 1 then (pf p 3 24 9 * 4096, pf p 3 24 9 * 65536, 2 * pf p 2 28 13)
          else (pf p 2 0 27, pf p 3 0 24, 2 * pf p 2 28 13))
     ∧ (s.withinQuota (fnOfQueue q) r.1 r.2.1 r.2.2 = false →
         exec (.graphAlloc q handle nb eb pb) s = .next ((s.serve q).retire q stQuota 0))
     ∧ (s.withinQuota (fnOfQueue q) r.1 r.2.1 r.2.2 = true →
         (hasRun (s.usedRuns 0) 1048576 r.1 = false ∨ hasRun (s.usedRuns 1) 8388608 r.2.1 = false
           ∨ hasRun (s.usedRuns 2) 8192 r.2.2 = false) →
         exec (.graphAlloc q handle nb eb pb) s = .next ((s.serve q).retire q stNoSpace 0))
     ∧ (s.withinQuota (fnOfQueue q) r.1 r.2.1 r.2.2 = true → hasRun (s.usedRuns 0) 1048576 r.1 = true →
         hasRun (s.usedRuns 1) 8388608 r.2.1 = true → hasRun (s.usedRuns 2) 8192 r.2.2 = true →
         s.gs.graphs.length + s.gs.zeroing.length < 65536 → s.handleFree handle.toNat = true →
         runFree (s.usedRuns 0) 1048576 nb r.1 = true → runFree (s.usedRuns 1) 8388608 eb r.2.1 = true →
         runFree (s.usedRuns 2) 8192 pb r.2.2 = true →
         ∃ u g, exec (.graphAlloc q handle nb eb pb) s = .next (u.retire q 0 (handle.zeroExtend 64))
           ∧ u.graph? handle.toNat = some g ∧ g.owner = fnOfQueue q ∧ g.st = .opened ∧ g.nodeBase = nb
           ∧ g.edgeBase = eb ∧ g.pageBase = pb ∧ g.l = pf p 2 41 13 ∧ g.curB = false ∧ g.torn = none
           ∧ (∀ i, g.nodes.look 0 i = 0 ∧ g.edges.look 0 i = 0 ∧ g.bankA.look 0 i = 0 ∧ g.bankB.look 0 i = 0)
           ∧ (∀ j, j ≠ handle.toNat → u.graph? j = s.graph? j) ∧ u.hcf.queues = s.hcf.queues
           ∧ s.only u [.gs, .hcf, .inSc]))
  ∧ (∀ (s : State) (z : Zeroing) (r : List Zeroing), s.alive = true → s.gs.zeroing = z :: r →
     z.start + cdiv (z.nodes * 64 + z.edges * 4 + z.pages * 4096) 256 ≤ s.now →
     ∃ t, exec .zeroingEnd s = .next t ∧ t.gs.zeroing.length = r.length
       ∧ t.gs.zeroing.map (·.handle) = r.map (·.handle) ∧ t.gs.graphs = s.gs.graphs
       ∧ (∀ y l, r = y :: l → t.gs.zeroing = { y with start := s.now } :: l) ∧ s.only t [.gs])
  ∧ (∀ (s : State) (q : Fin 16384) (p : BitVec 512), s.heads q p → opcode p = 0x09 →
     let ends (st : Nat) : Prop := exec (.graphLoad q) s = .next ((s.serve q).retire q st 0)
     (s.owned? q (handleOf p) = none → ends stBadHandle)
     ∧ ∀ g, s.owned? q (handleOf p) = some g →
       (g.st = .sealing → ends stGraphBusy)
       ∧ (g.st = .sealed → ends stGraphSealed)
       ∧ (g.st = .opened → g.runLen (pf p 0 32 2) < pf p 3 0 23 + pf p 3 32 24 → ends 0x10)
       ∧ (∀ a, g.st = .opened → pf p 3 0 23 + pf p 3 32 24 ≤ g.runLen (pf p 0 32 2) →
           s.translate (fnOfQueue q) (pw p 2) (pf p 3 32 24 * recordBytes (pf p 0 32 2)) .read
             (some (s.queue q).plot) false = .ok a →
           ∃ t, exec (.graphLoad q) s = .next t ∧ (t.queue q).head = .load ∧ (t.queue q).rptr = (s.queue q).rptr
             ∧ s.asks t (.loadSrc q) (fnOfQueue q) false a (pf p 3 32 24 * recordBytes (pf p 0 32 2)) []
             ∧ s.otherQueues t q ∧ s.only t [.hcf, .inSc, .mesh]))

/-- R72, R89: GRAPH_SEAL of an OPEN graph makes it SEALING and queues its check while the command waits with SEAL; of a SEALED
one it retires at once; of a SEALING one it fails with GRAPH_BUSY. R89: each engine takes up one check at a time, the next
of its round-robin over functions. R97: the fallow engine begins with a read of the image's header; its check is settled with
the outcome of the two passes when the last of the workspace has been written, and with FALLOW_FAULT when a transfer of it
fails. R86 to R90: a check ends with the graph SEALED on status 0 and OPEN otherwise, ECC_FAIL when an uncorrectable error
struck the graph meanwhile; the status and the node go to GS_SEALRES and GS_SEALLOC of the function and to the waiting command,
which retires with OK or SEAL_FAIL. R76, R78, R79, R86: no graph passes the furrow check with a node record that sets a
reserved bit, mixes kinds, or names a layer or a slot the graph does not have. The model's own choices in it: log 1, 113,
114. -/
def Obligations.SealingChecksTheGraph : Prop :=
  (∀ (s : State) (q : Fin 16384) (p : BitVec 512), s.heads q p → opcode p = 0x0A →
     let ends (st : Nat) : Prop := exec (.graphSeal q) s = .next ((s.serve q).retire q st 0)
     let c := Check.make q (handleOf p) (fnOfQueue q)
     (s.owned? q (handleOf p) = none → ends stBadHandle)
     ∧ ∀ g, s.owned? q (handleOf p) = some g →
       (g.st = .sealing → ends stGraphBusy)
       ∧ (g.st = .sealed → ends 0)
       ∧ (g.st = .opened → ∃ t, exec (.graphSeal q) s = .next t
           ∧ t.graph? (handleOf p) = some { g with st := .sealing }
           ∧ (∀ j, j ≠ handleOf p → t.graph? j = s.graph? j)
           ∧ t.gs.waitFal = (if g.fallow then s.gs.waitFal ++ [c] else s.gs.waitFal)
           ∧ t.gs.waitRes = (if g.fallow then s.gs.waitRes else s.gs.waitRes ++ [c])
           ∧ (t.queue q).st = .stalled ∧ (t.queue q).wait = 5 ∧ (t.queue q).rptr = (s.queue q).rptr
           ∧ s.otherQueues t q ∧ s.only t [.gs, .hcf, .inSc]))
  ∧ (∀ (s : State) (c : Check), s.alive = true →
     (nextCheck s.gs.waitRes s.gs.lastRes = some c → s.gs.runRes = none →
       exec (.furrowCheckStart false) s = .next { s with gs := { s.gs with
         waitRes := s.gs.waitRes.erase c, runRes := some { c with start := s.now }, lastRes := c.fn } }
       ∧ c ∈ s.gs.waitRes ∧ s.gs.waitRes.find? (fun d => d.fn == c.fn) = some c)
     ∧ (∀ g a, nextCheck s.gs.waitFal s.gs.lastFal = some c → s.gs.runFal = none → s.graph? c.handle = some g →
       s.translate c.fn g.image 64 .read (some (s.queue c.q).plot) false = .ok a →
       (∃ t, exec (.furrowCheckStart true) s = .next t ∧ t.gs.waitFal = s.gs.waitFal.erase c ∧ t.gs.lastFal = c.fn
         ∧ t.gs.runFal = some { c with start := s.now, phase := .reads 0 } ∧ t.gs.graphs = s.gs.graphs
         ∧ s.asks t (.check c.handle) c.fn false a 64 [] ∧ s.only t [.gs, .mesh])
       ∧ c ∈ s.gs.waitFal ∧ s.gs.waitFal.find? (fun d => d.fn == c.fn) = some c))
  ∧ (∀ (s : State) (c : Check) (g : Machine.Graph), s.gs.runFal = some c → s.graph? c.handle = some g →
     (c.phase = .writes 3 →
       s.checkAnswered c.handle [] true = s.setCheck { c with phase := .over (c.graph g).furrow })
     ∧ (∀ k ws, (c.phase = .reads k ∨ c.phase = .writes k) →
       s.checkAnswered c.handle ws false = s.setCheck { c with phase := .over ⟨0, 0x0C, none⟩ }))
  ∧ (∀ (s : State) (c : Check) (g : Machine.Graph) (fallow : Bool) (h : BitVec 16) (x : Flaw), s.alive = true →
     (if fallow then s.gs.runFal else s.gs.runRes) = some c → h.toNat = c.handle → s.graph? c.handle = some g →
     (fallow = false → c.start + (256 + 2 * cdiv g.n 4 + 2 * cdiv g.e 16) ≤ s.now) → (s.queue c.q).head = .seal →
     (if c.ecc then x = ⟨0, 0x0D, none⟩ else if fallow then c.phase = .over x else x = g.furrow) →
     ∃ u, exec (.furrowCheckEnd fallow h) s = .next
         (u.retire c.q (if x.status = 0 then 0 else stSealFail) (pack [(0, 8, x.status), (8, 26, x.node)]))
       ∧ (∃ g', u.graph? c.handle = some g' ∧ g'.st = (if x.status = 0 then .sealed else .opened)
           ∧ g'.nodes = g.nodes ∧ g'.edges = g.edges ∧ g'.owner = g.owner ∧ g'.n = g.n)
       ∧ (∀ j, j ≠ c.handle → u.graph? j = s.graph? j)
       ∧ u.gs.sealres.look 0 c.fn = pack [(0, 16, c.handle), (16, 8, x.status), (24, 1, 1)]
       ∧ u.gs.sealloc.look 0 c.fn = pack [(0, 26, x.node), (26, 23, x.edge.getD 0), (49, 1, b2n x.edge.isSome)]
       ∧ (if fallow then u.gs.runFal else u.gs.runRes) = none
       ∧ s.only u (if fallow then [.gs, .mesh] else [.gs]))
  ∧ (∀ (g : Machine.Graph) (i : Nat), g.furrow.status = 0 → i < g.n →
     nodeReserved (g.nodes.look 0 i) = false ∧ kindMismatch (g.nodes.look 0 i) = false
       ∧ layerBad g.l (g.nodes.look 0 i) = false
       ∧ (nPslotv (g.nodes.look 0 i) = true → nPslot (g.nodes.look 0 i) < g.p * 128))

/-- R72, R73, R91, R107: GRAPH_UNSEAL and GRAPH_FREE. A foreign or free handle fails with BAD_HANDLE, a SEALING graph with
GRAPH_BUSY. With a live sowing the command fails with NOWAIT, and else waits with GRAPH. Without one, UNSEAL makes the
graph OPEN with no warm shadow, and FREE frees the handle and queues its storage for zeroing behind what was freed earlier.
Launches that wait for such a graph fail. The model's own choices in it: log 44, 112. -/
def Obligations.UnsealAndFree : Prop :=
  ∀ (s : State) (q : Fin 16384) (p : BitVec 512) (free : Bool), s.heads q p →
    opcode p = (if free then 0x0C else 0x0B) →
    let c : Instr := if free then .graphFree q else .graphUnseal q
    let h := handleOf p
    let ends (st : Nat) : Prop := exec c s = .next ((s.serve q).retire q st 0)
    let changes (u : State) (g : Machine.Graph) : Prop :=
      (∃ tn, u.graph? h = some { g with turn := tn }) ∧ (∀ j, j ≠ h → u.graph? j = s.graph? j)
    (s.owned? q h = none → ends stBadHandle)
    ∧ ∀ g, s.owned? q h = some g →
      (g.st = .sealing → ends stGraphBusy)
      ∧ (g.st = .sealed → s.liveOf h ≠ [] → nowait p = true → ends stGraphBusy)
      ∧ (g.st = .sealed → s.liveOf h ≠ [] → nowait p = false → Tab.rising s.hcf.queues = true →
          ∃ t, exec c s = .next t
          ∧ (t.queue q).st = .stalled ∧ (t.queue q).wait = 4 ∧ (t.queue q).rptr = (s.queue q).rptr
          ∧ changes t g ∧ t.sow = s.sow
          ∧ (s.launchers h = [] → t.gs = s.gs ∧ s.otherQueues t q ∧ s.only t [.hcf, .inSc]))
      ∧ ((g.st = .opened ∨ (g.st = .sealed ∧ s.liveOf h = [])) →
          (free = false → ∃ u, exec (.graphUnseal q) s = .next (u.retire q 0 0)
            ∧ changes u { g with st := .opened, warm := [] } ∧ s.only u (.gs :: .hcf :: reporting)
            ∧ (s.launchers h = [] → u.hcf.queues = s.hcf.queues ∧ s.only u [.gs, .hcf, .inSc]))
          ∧ (free = true → ∃ u a b, exec (.graphFree q) s = .next (u.retire q 0 0) ∧ u.graph? h = none
            ∧ (∀ j, j ≠ h → u.graph? j = s.graph? j) ∧ s.gs.zeroing = a ++ b
            ∧ u.gs.zeroing = a ++ ⟨h, s.now, g.owner, g.runs.1, g.runs.2.1, g.runs.2.2, g.nodeBase, g.edgeBase,
                g.pageBase, s.now⟩ :: b
            ∧ ((∀ y ∈ s.gs.zeroing, y.freed < s.now) → b = [])
            ∧ s.only u (.gs :: .hcf :: reporting)
            ∧ (s.graphUsers h = [] → u.hcf.queues = s.hcf.queues ∧ s.only u [.gs, .hcf, .inSc])))

/-- R106, R108: a launch that nothing holds proceeds, at once or when it has waited, and its command then waits for its roots.
R109, R143, R146: root insertion puts the root of a sowing into the ready list of its plot, kind, class and group with the
current tick, and with the last root the launch command retires with the sowing's ID as VALUE. R10: whatever launches, the
sowing takes the function's next ID, which then counts up by 1, and no other function's counter moves. ID a is later than
ID b when (a - b) mod 2^32 lies in 1 to 2^31 - 1. R105, R106, R212: the checks of a launch in their order. An undeclared
end semaphore, a graph the function does not own, an unsealed graph, one that is being freed or unsealed, and a shadow
beyond the quota each fail; with NOWAIT the live limit and a missing shadow fail; what cannot proceed otherwise waits with
LAUNCH and consumes no ID. R147: a node that enters a list goes behind those that are in it, but for those of its own sc that
stand after it in the order of that sc. The model's own choices in it: log 6, 44, 112, 116. -/
def Obligations.LaunchProceeds : Prop :=
  ((∀ (s : State) (q : Fin 16384) (p : BitVec 512) (g : Machine.Graph), s.heads q p → opcode p = 0x10 →
     ((endActOf p).semv = true → s.declared q (endActOf p).sem = true) → s.owned? q (handleOf p) = some g →
     g.st = .sealed → s.drainers (handleOf p) = [] → g.eccBlock = false → g.blocks ≤ s.shadowQuota (fnOfQueue q) →
     s.launchHold q (handleOf p) g true = .none →
     ∃ t, exec (.launchGraph q) s = .next t ∧ s.launched t q (handleOf p) g
       ∧ (t.queue q).head = .rooting (sowKey (fnOfQueue q) (s.nextSowId (fnOfQueue q)))
       ∧ (t.queue q).rptr = (s.queue q).rptr ∧ s.only t [.gs, .sow, .hcf, .hv, .inSc])
   ∧ (∀ (s : State) (q : Fin 16384) (p : BitVec 512) (g : Machine.Graph), s.alive = true → s.headPacket? q = some p →
     (s.queue q).head = .launch false → (s.queue q).held = false → s.owned? q (handleOf p) = some g →
     g.st = .sealed → s.drainers (handleOf p) = [] → g.eccBlock = false →
     s.launchHold q (handleOf p) g true = .none →
     ∃ t, exec (.launchProceed q) s = .next t ∧ s.launched t q (handleOf p) g
       ∧ (t.queue q).head = .rooting (sowKey (fnOfQueue q) (s.nextSowId (fnOfQueue q)))
       ∧ (t.queue q).rptr = (s.queue q).rptr ∧ s.only t [.gs, .sow, .hcf, .hv, .inSc]))
  ∧ (∀ (s : State) (k i t0 : Nat) (w : Sowing) (g : Machine.Graph), s.alive = true → s.sow.live = [(k, w)] →
     w.st = .active → w.rootsDone = false → w.fanin = .done → w.rootsAt = some t0 → t0 ≤ s.now → w.step = none →
     s.graph? w.graph = some g → g.fallow = false → w.nextRoot ≤ i → i < g.n →
     (∀ j, w.nextRoot ≤ j → j < g.n → (nFanin (g.nodes.look 0 j) = 0 ↔ j = i)) →
     nDlyv (g.nodes.look 0 i) = false → nKind (g.nodes.look 0 i) ≠ 15 → s.mayReady w.plot = true →
     g.inTransfer i = false → s.hasKind w.plot (nKind (g.nodes.look 0 i)) = true →
     (s.queue w.queue).head = .rooting k →
     let n := g.nodes.look 0 i
     let l := listKey w.plot (nKind n) (s.classOf w n) (nGroup n)
     ∃ t w', exec .rootInsertion s = .next t ∧ t.list l = insertReady ⟨k, i, s.tcs.tick, false, s.now, 0⟩ (s.list l)
       ∧ (∀ j, j ≠ l → t.list j = s.list j) ∧ t.sowing? k = some w' ∧ w'.rootsDone = true ∧ w'.st = .active
       ∧ (w'.ctr.look? i).map (·.st) = some .passed
       ∧ (s.headPacket? w.queue ≠ none → (s.queue w.queue).haltAfter = none →
           t.queue w.queue = ((s.queue w.queue).advance).settle s.now))
  ∧ (∀ (x : Ready) (l : List Ready), ∃ a b, l = a ++ b ∧ insertReady x l = a ++ x :: b
       ∧ (∀ y ∈ a, y.at' ≠ x.at' ∨ y.rank ≤ x.rank) ∧ (∀ y, b.head? = some y → y.at' = x.at' ∧ x.rank < y.rank))
  ∧ ((∀ (s : State) (q h : Nat) (g : Machine.Graph) (a : LaunchArgs),
     let n := fnOfQueue q
     let t := (s.proceed q h g a).2
     t.nextSowId n = s.nextSowId n + 1 ∧ (∀ m, m ≠ n → t.nextSowId m = s.nextSowId m)
       ∧ ∃ w, t.sowing? (sowKey n (s.nextSowId n)) = some w ∧ w.fn = n ∧ w.id = s.nextSowId n)
   ∧ (∀ a b : BitVec 32, idLater a b = true ↔ 1 ≤ (a.toNat + 2 ^ 32 - b.toNat) % 2 ^ 32
       ∧ (a.toNat + 2 ^ 32 - b.toNat) % 2 ^ 32 ≤ 2 ^ 31 - 1))
  ∧ (∀ (s : State) (q : Fin 16384) (p : BitVec 512), s.heads q p → opcode p = 0x10 →
     let h := handleOf p
     let semOk := (endActOf p).semv = true → s.declared q (endActOf p).sem = true
     let hold (g : Machine.Graph) : Hold := s.launchHold q h g true
     let ends (st : Nat) : Prop := exec (.launchGraph q) s = .next ((s.serve q).retire q st 0)
     let leaves (st : Nat) : Prop := exec (.launchGraph q) s = .next (((s.serve q).leaveTurn q h).retire q st 0)
     (¬semOk → ends stSemUndeclared)
     ∧ (semOk → s.owned? q h = none → ends stBadHandle)
     ∧ ∀ g, semOk → s.owned? q h = some g →
       (g.st ≠ .sealed → ends stGraphUnsealed)
       ∧ (g.st = .sealed → s.drainers h ≠ [] → ends stGraphBusy)
       ∧ (g.st = .sealed → s.drainers h = [] → g.eccBlock = false → s.shadowQuota (fnOfQueue q) < g.blocks → ends 0x0B)
       ∧ (g.st = .sealed → s.drainers h = [] → g.eccBlock = false → g.blocks ≤ s.shadowQuota (fnOfQueue q) →
           (g.limit ≤ (s.liveOf h).length → nowait p = true → leaves 0x0C)
           ∧ (hold g = .shadow → nowait p = true → leaves 0x0D)
           ∧ (hold g ≠ .none → (nowait p = false ∨ (hold g ≠ .limit ∧ hold g ≠ .shadow)) →
               ∃ t, exec (.launchGraph q) s = .next t
               ∧ (t.queue q).st = .stalled ∧ (t.queue q).wait = 2 ∧ (t.queue q).rptr = (s.queue q).rptr
               ∧ t.sow = s.sow ∧ s.otherQueues t q ∧ s.only t [.gs, .hcf, .inSc])))

/-- R111: a refilling warm shadow is full 64 counters per sc after the retirement that gave it, and not before. R104, R111,
R113, R114: a sowing whose nodes are over and of which nothing runs becomes ENDING; one sc later at the earliest it becomes
RETIRED, counts what was never dispatched, and leaves its shadow warm and refilling. The model's own choices in it: log 63,
109. -/
def Obligations.SowingEndsAndRetires : Prop :=
  (∀ (s : State) (handle : BitVec 16) (g : Machine.Graph) (x : Warm), s.alive = true →
     s.graph? handle.toNat = some g → g.warm.find? (·.refilling) = some x →
     (x.since + cdiv g.shadowSize 64 ≤ s.now → ∃ t, exec (.shadowRefillDone handle) s = .next t
       ∧ t.graph? handle.toNat = some { g with warm := refillFirst g.warm }
       ∧ (g.warm.filter (·.refilling)).length = ((refillFirst g.warm).filter (·.refilling)).length + 1
       ∧ (∀ j, j ≠ handle.toNat → t.graph? j = s.graph? j) ∧ s.only t [.gs])
     ∧ (s.now < x.since + cdiv g.shadowSize 64 → exec (.shadowRefillDone handle) s = .next s))
  ∧ ((∀ (s : State) (fn : Fin 256) (id : BitVec 32) (w : Sowing), s.alive = true → s.sowing? (sowKey fn id) = some w →
     s.nodesOver w = true → s.idleSowing (sowKey fn id) = true →
     ∃ t, exec (.sowingEnding fn id) s = .next t
       ∧ t.sowing? (sowKey fn id) = some { w with st := .ending, endedAt := s.now }
       ∧ (∀ j, j ≠ sowKey fn id → t.sowing? j = s.sowing? j) ∧ s.only t [.sow, .stu])
   ∧ (∀ (s : State) (fn : Fin 256) (id : BitVec 32) (w : Sowing) (g : Machine.Graph), s.alive = true →
     s.sowing? (sowKey fn id) = some w → w.st = .ending → w.endedAt + 1 ≤ s.now → w.committed = true → w.cyc = none →
     s.graph? w.graph = some g → s.drainers w.graph = [] → g.eccBlock = false →
     ∃ t w', exec (.sowingRetire fn id) s = .next t ∧ t.sowing? (sowKey fn id) = some w' ∧ w'.st = .retired
       ∧ w'.never = g.n - w.done - w.lost ∧ w'.code = w.code ∧ w'.done = w.done ∧ w'.lost = w.lost
       ∧ w'.digest = w.digest ∧ (∀ j, j ≠ sowKey fn id → t.sowing? j = s.sowing? j)
       ∧ t.graph? w.graph = some { g with warm := g.warm ++ [⟨w.blocks, true, s.now⟩] }
       ∧ (∀ j, j ≠ w.graph → t.graph? j = s.graph? j) ∧ s.only t [.gs, .sow, .hv, .inSc]))

/-- R118 to R122: PATCH_PARAM. The handle, the state and the range are checked; a bank that is current or captured is refused
or waited for; else the write begins, with the packet's record at once or with one read of COUNT records. R120, R121: a
patch that waited begins its write once its turn and its bank are free. R122, R123: a patch write of COUNT records from
SLOT ends with those slots of its bank written and no other slot, the other bank, the nodes and the edges as they were; a
torn mark it covers goes; the command retires with the bank. R119, R121, R123, R124: SWAP_BANK holds the graph's order, and
4 sc later exchanges the banks and retires with the bank made current; a torn bank fails with BANK_TORN, and a swap whose
turn has not come waits. A swap behind a command that leaves the order takes its turn. The model's own choices in it: log 30,
44, 112. -/
def Obligations.PatchesAndSwapsChangeBanks : Prop :=
  (∀ (s : State) (q : Fin 16384) (p : BitVec 512), s.heads q p → opcode p = 0x11 →
     let c : Instr := if pf p 0 34 1 = 0 then .patchParamInline q else .patchParamPointer q
     let h := handleOf p
     let ends (st : Nat) : Prop := exec c s = .next ((s.serve q).retire q st 0)
     let leaves (g : Machine.Graph) (st : Nat) : Prop :=
       let u := ((s.serve q).leaveTurn q h).retire q st 0
       exec c s = .next (u.nextTurn h) ∧ ((∀ x ∈ g.turn, x.1 = q.val) → u.nextTurn h = u)
     (s.owned? q h = none → ends stBadHandle)
     ∧ ∀ g, s.owned? q h = some g →
       (g.st = .sealing → exec c s = .next (((s.serve q).leaveTurn q h).retire q stGraphBusy 0))
       ∧ (g.st ≠ .sealing → g.p * 128 < pf p 2 0 19 + pf p 2 20 20 → ends 0x10)
       ∧ (g.st ≠ .sealing → pf p 2 0 19 + pf p 2 20 20 ≤ g.p * 128 → g.turnFree q = true →
           let b := g.target (pf p 0 32 2)
           (pf p 0 32 2 ≠ 0 → b = g.curB → leaves g 0x0F)
           ∧ ((pf p 0 32 2 = 0 ∨ b ≠ g.curB) → s.captured h b = true → nowait p = true → leaves g 0x0E)
           ∧ ((pf p 0 32 2 = 0 ∨ b ≠ g.curB) → s.captured h b = true → nowait p = false →
               ∃ t, exec c s = .next t ∧ (t.queue q).st = .stalled ∧ (t.queue q).wait = 3
                 ∧ (t.queue q).head = .patchWait (some b) ∧ s.only t (.gs :: .hcf :: reporting)
                 ∧ ((∀ x ∈ g.turn, x.1 = q.val) → s.otherQueues t q ∧ s.only t [.gs, .hcf, .inSc]))
           ∧ ((pf p 0 32 2 = 0 ∨ b ≠ g.curB) → s.captured h b = false → pf p 0 34 1 = 0 →
               ∃ t g', exec c s = .next t ∧ t.graph? h = some g' ∧ g'.writer = some q.val ∧ g'.bankA = g.bankA
                 ∧ g'.bankB = g.bankB ∧ (t.queue q).head = .patch b s.now (some [pw p 4, pw p 5, pw p 6, pw p 7])
                 ∧ s.otherQueues t q ∧ s.only t [.gs, .hcf, .inSc])
           ∧ (∀ a, (pf p 0 32 2 = 0 ∨ b ≠ g.curB) → s.captured h b = false → pf p 0 34 1 = 1 →
               s.translate (fnOfQueue q) (pw p 3) (pf p 2 20 20 * 32) .read (some (s.queue q).plot) false = .ok a →
               ∃ t g', exec c s = .next t ∧ t.graph? h = some g' ∧ g'.writer = some q.val ∧ g'.bankA = g.bankA
                 ∧ g'.bankB = g.bankB ∧ (t.queue q).head = .patch b s.now none
                 ∧ s.asks t (.patchSrc q) (fnOfQueue q) false a (pf p 2 20 20 * 32) []
                 ∧ s.otherQueues t q ∧ s.only t [.gs, .hcf, .inSc, .mesh])))
  ∧ (∀ (s : State) (q : Fin 16384) (p : BitVec 512) (g : Machine.Graph) (bank : Option Bool), s.alive = true →
     s.headPacket? q = some p → s.owned? q (handleOf p) = some g → (s.queue q).head = .patchWait bank →
     (s.queue q).held = false → opcode p = 0x11 → pf p 0 34 1 = 0 → g.turnFree q = true → g.st ≠ .sealing →
     pf p 2 0 19 + pf p 2 20 20 ≤ g.p * 128 → (∀ b, bank = some b → s.captured (handleOf p) b = false) →
     (pf p 0 32 2 = 0 ∨ g.target (pf p 0 32 2) ≠ g.curB) → s.captured (handleOf p) (g.target (pf p 0 32 2)) = false →
     ∃ t g', exec (.patchResume q) s = .next t ∧ t.graph? (handleOf p) = some g' ∧ g'.writer = some q.val
       ∧ g'.bankA = g.bankA ∧ g'.bankB = g.bankB ∧ (t.queue q).st = .running ∧ (t.queue q).wait = 0
       ∧ (t.queue q).head = .patch (g.target (pf p 0 32 2)) s.now (some [pw p 4, pw p 5, pw p 6, pw p 7])
       ∧ s.otherQueues t q ∧ s.only t [.gs, .hcf])
  ∧ (∀ (s : State) (q : Fin 16384) (p : BitVec 512) (g : Machine.Graph) (b : Bool) (t0 : Nat) (ws : Words),
     s.alive = true → s.headPacket? q = some p → s.graph? (handleOf p) = some g →
     (s.queue q).head = .patch b t0 (some ws) → (pf p 0 34 1 = 1 ∨ t0 + 8 ≤ s.now) → g.turn = [] →
     let a := pf p 2 0 19
     let n := pf p 2 20 20
     ∃ u g', exec (.patchComplete q) s = .next (u.retire q 0 (BitVec.ofNat 64 (b2n b)))
       ∧ u.graph? (handleOf p) = some g' ∧ g'.writer = none ∧ g'.nodes = g.nodes ∧ g'.edges = g.edges
       ∧ g'.curB = g.curB ∧ (if b then g'.bankA = g.bankA else g'.bankB = g.bankB)
       ∧ (∀ j, j < n → (if b then g'.bankB else g'.bankA).look 0 (a + j) = BitVec.ofNat 256 (record 4 ws j))
       ∧ (∀ i, (i < a ∨ a + n ≤ i) → (if b then g'.bankB else g'.bankA).look 0 i
           = (if b then g.bankB else g.bankA).look 0 i)
       ∧ (∀ x, g.torn = some x → g'.torn = (if a ≤ x.1 ∧ x.1 + x.2 ≤ a + n then none else some x))
       ∧ (∀ j, j ≠ handleOf p → u.graph? j = s.graph? j) ∧ s.only u [.gs])
  ∧ ((∀ (s : State) (q : Fin 16384) (p : BitVec 512), s.heads q p → opcode p = 0x13 →
     let leaves (st : Nat) : Prop :=
       exec (.swapBank q) s = .next (((s.serve q).leaveTurn q (handleOf p)).retire q st 0)
     (s.owned? q (handleOf p) = none → exec (.swapBank q) s = .next ((s.serve q).retire q stBadHandle 0))
     ∧ ∀ g, s.owned? q (handleOf p) = some g →
       (g.st = .sealing → leaves stGraphBusy)
       ∧ (g.st ≠ .sealing → g.turnFree q = false → ∃ t, exec (.swapBank q) s = .next t ∧ (t.queue q).st = .stalled
           ∧ (t.queue q).wait = 3 ∧ s.otherQueues t q ∧ s.only t [.gs, .hcf, .inSc])
       ∧ (g.st ≠ .sealing → g.turnFree q = true → g.torn ≠ none → leaves 0x11)
       ∧ (g.st ≠ .sealing → g.turnFree q = true → g.torn = none → ∃ t g', exec (.swapBank q) s = .next t
           ∧ t.graph? (handleOf p) = some g' ∧ g'.swap = some (q.val, s.now) ∧ g'.curB = g.curB
           ∧ (t.queue q).head = .swap ∧ s.otherQueues t q ∧ s.only t [.gs, .hcf, .inSc]))
   ∧ (∀ (s : State) (q : Fin 16384) (p : BitVec 512) (g : Machine.Graph) (t0 : Nat), s.alive = true →
     s.headPacket? q = some p → s.graph? (handleOf p) = some g → g.swap = some (q.val, t0) → (s.queue q).head = .swap →
     t0 + 4 ≤ s.now → g.turn = [] →
     ∃ u, exec (.swapBankEffect q) s = .next (u.retire q 0 (BitVec.ofNat 64 (b2n (!g.curB))))
       ∧ u.graph? (handleOf p) = some { g with swap := none, curB := !g.curB }
       ∧ (∀ j, j ≠ handleOf p → u.graph? j = s.graph? j) ∧ s.only u [.gs]))

/-- R98 to R100, R103: the fan-in copy reads the fan-in array, writes it into the sowing's counter area and then reads the root
list, under the sowing's function and plot; a wanted page is fetched into a free frame of its graph, its nodes first, then its
edge block, its CRC and its counters in the counter areas in use; a fetched page whose CRC agrees is resident in the frame it
was fetched for, with the counters that came; a spilled page's frame is free, and its counters are in the workspace; a page
pinned meanwhile stays. The model's own choices in it: log 24, 25, 102, 114, 115. -/
def Obligations.FallowPagesMove : Prop :=
  (∀ (s : State) (fn : Fin 256) (id : BitVec 32) (w : Sowing) (g : Machine.Graph) (a : Nat),
    s.sowing? (sowKey fn id) = some w → s.graph? w.graph = some g →
    let k := sowKey fn id
    (s.alive = true → w.st = .active → w.fanin = .due →
      s.translate w.fn g.faninAddr (2 * g.n) .read (some w.plot) false = .ok a →
      ∃ t, exec (.fallowFaninCopy fn id) s = .next t ∧ t.sowing? k = some { w with fanin := .reading }
        ∧ s.asks t (.fanin k) w.fn false a (2 * g.n) [] ∧ s.only t [.sow, .mesh, .pru, .hv])
    ∧ (∀ ws, w.fanin = .reading → s.translate w.fn (g.ctrAddr w.area 0) (2 * g.n) .write (some w.plot) false = .ok a →
        (s.faninArrived k ws).sowing? k = some { w with fanin := .writing }
          ∧ s.asks (s.faninArrived k ws) (.fanin k) w.fn true a (2 * g.n) ws)
    ∧ (∀ ws, w.fanin = .writing → s.translate w.fn g.rootAddr (4 * g.nroots) .read (some w.plot) false = .ok a →
        (s.faninArrived k ws).sowing? k = some { w with fanin := .roots }
          ∧ s.asks (s.faninArrived k ws) (.fanin k) w.fn false a (4 * g.nroots) [])
    ∧ (∀ ws, w.fanin = .roots → (s.faninArrived k ws).sowing? k
        = some { w with fanin := .done, roots := (List.range g.nroots).map (unit32 ws) }))
  ∧ (∀ (s : State) (handle : BitVec 16) (page i a : Nat) (g : Machine.Graph) (w : Sowing), s.alive = true →
    s.graph? handle.toNat = some g → g.fallow = true → g.st = .sealed → g.resident (page * 4096) = false →
    g.inTransfer (page * 4096) = false → s.pageWanted handle.toNat g page = some w → g.freeSlot? = some i →
    s.de.work = none → s.translate g.owner (g.nodeAddr page) (g.nodeBytes page) .read (some w.plot) false = .ok a →
    ∃ t x, exec (.fallowPageFetch handle page) s = .next t
      ∧ t.graph? handle.toNat = some { g with pages := g.pages ++ [x] } ∧ x.page = page ∧ x.slot = i ∧ x.spill = false
      ∧ x.todo = .nodes :: (if g.pageEdges page = 0 then [] else [.edges]) ++ .crc
          :: (s.counted handle.toNat).map .counters
      ∧ (∀ j, j ≠ handle.toNat → t.graph? j = s.graph? j)
      ∧ s.asks t (.page handle.toNat page) g.owner false a (g.nodeBytes page) [] ∧ s.only t [.gs, .mesh, .pru, .hv])
  ∧ (∀ (s : State) (handle : BitVec 16) (page : Nat) (g : Machine.Graph) (x : PageXfer), s.alive = true →
    s.graph? handle.toNat = some g →
    g.pages.find? (fun y => y.page == page && !y.spill && y.todo.isEmpty) = some x → crc32 x.data = x.crc →
    s.de.fallow = [] →
    let came (k : Nat) (w : Sowing) : Sowing := match x.ctrs.look? k with
      | some ws => w.takeCounters g page ws
      | none => w
    (∀ kv ∈ s.sow.live, kv.2.graph = handle.toNat →
      ∀ c ∈ (came kv.1 kv.2).ctr, pageOf c.1 = page → c.2 ≠ ⟨0, .counting⟩) →
    ∃ t g', exec (.fallowPageFetchDone handle page) s = .next t ∧ t.graph? handle.toNat = some g'
      ∧ g'.frames = g.frames ++ [⟨page, x.slot, s.now⟩] ∧ g'.resident (page * 4096) = true
      ∧ g'.inTransfer (page * 4096) = false ∧ (∀ j, j ≠ handle.toNat → t.graph? j = s.graph? j)
      ∧ (∀ k w, s.sowing? k = some w → t.sowing? k = some (if w.graph = handle.toNat then came k w else w))
      ∧ s.only t [.gs, .sow, .de])
  ∧ (∀ (s : State) (handle : BitVec 16) (page : Nat) (g : Machine.Graph), s.alive = true →
    s.graph? handle.toNat = some g → (g.pages.any fun y => y.page == page && y.spill && y.todo.isEmpty) = true →
    (s.pinned handle.toNat page = false →
      ∃ t g', exec (.fallowPageSpillDone handle page) s = .next t ∧ t.graph? handle.toNat = some g'
        ∧ (∀ f, f ∈ g'.frames ↔ f ∈ g.frames ∧ f.page ≠ page) ∧ (∀ i, i / 4096 = page → g'.nodes.look 0 i = 0)
        ∧ (∀ i, i / 4096 ≠ page → g'.nodes.look 0 i = g.nodes.look 0 i)
        ∧ (∀ j, j ≠ handle.toNat → t.graph? j = s.graph? j)
        ∧ (∀ k w, s.sowing? k = some w →
            t.sowing? k = some (if w.graph = handle.toNat then w.leaveCounters page else w))
        ∧ s.only t [.gs, .sow])
    ∧ (s.pinned handle.toNat page = true → s.de.fallow = [] →
      ∃ t, exec (.fallowPageSpillDone handle page) s = .next t
        ∧ t.graph? handle.toNat = some { g with pages := g.pages.filter fun y => y.page != page }
        ∧ (∀ j, j ≠ handle.toNat → t.graph? j = s.graph? j) ∧ s.only t [.gs, .de]))

/-- R213 to R217: the end action of a retired sowing whose turn it is. Without writes, a signal or a semaphore it is over at
once, and nothing of the sowing is kept; with an end record, the record is written first; with a semaphore signal alone,
the semaphore takes it; with a signal write alone, that write is issued. R51, R204, R218: SIGNAL_WRITE issues one write of
4 or 8 B of its value once the queue's result records are acknowledged; while the function may not master it stalls with
FETCH. The model's own choices in it: log 45, 64, 65. -/
def Obligations.EndActionInOrder : Prop :=
  (∀ (s : State) (fn : Fin 256) (id : BitVec 32) (w : Sowing), s.alive = true → s.sowing? (sowKey fn id) = some w →
     w.st = .retired → w.phase = .waiting → s.endTurn w = true → w.layers = [] → s.endWriting (sowKey fn id) = false →
     (w.act.erv = false → w.act.semv = false → w.act.sigv = false → ∃ t, exec (.endAction fn id) s = .next t
         ∧ t.sowing? (sowKey fn id) = none ∧ (∀ j, j ≠ sowKey fn id → t.sowing? j = s.sowing? j)
         ∧ s.only t (.sow :: .hcf :: reporting))
     ∧ (∀ a, w.act.erv = true → s.translate w.fn w.act.eraddr 32 .write (some w.plot) true = .ok a →
         ∃ t, exec (.endAction fn id) s = .next t
           ∧ t.sowing? (sowKey fn id) = some { w with phase := .writes }
           ∧ s.asks t (.endWrite (sowKey fn id)) w.fn true a 32
               [pack [(0, 32, w.id.toNat), (32, 16, w.graph), (48, 16, w.code.toNat)],
                pack [(0, 32, w.done), (32, 32, w.lost)],
                pack [(0, 32, w.never), (32, 1, b2n w.bankB), (33, 6, w.plot)], if w.code = 0 then w.digest else 0]
           ∧ s.only t [.sow, .mesh])
     ∧ (w.act.erv = false → w.act.semv = true → w.act.sigv = false →
         s.semCheck w.fn w.queue w.act.sem w.act.semop = 0 → (∀ x ∈ s.sm.waiters, x.sem ≠ w.act.sem) →
         ∃ t, exec (.endAction fn id) s = .next t ∧ t.sowing? (sowKey fn id) = none
           ∧ t.semVal w.act.sem = (semEffect w.act.semop (s.semVal w.act.sem) w.act.semval 0 false).2
           ∧ (∀ m, m ≠ w.act.sem → t.semVal m = s.semVal m) ∧ s.only t (.sow :: .hcf :: .sm :: reporting))
     ∧ (∀ a, w.act.erv = false → w.act.semv = false → w.act.sigv = true →
         s.translate w.fn w.act.sigaddr (if w.act.sig4 then 4 else 8) .write (some w.plot) false = .ok a →
         ∃ t, exec (.endAction fn id) s = .next t
           ∧ t.sowing? (sowKey fn id) = some { w with phase := .signalling }
           ∧ s.asks t (.endSignal (sowKey fn id)) w.fn true a (if w.act.sig4 then 4 else 8) [w.act.sigval]
           ∧ s.only t [.sow, .mesh]))
  ∧ (∀ (s : State) (q : Fin 16384) (p : BitVec 512), s.heads q p → opcode p = 0x19 →
     (∀ a, s.pins.bme.getLsbD (fnOfQueue q) = true →
       s.translate (fnOfQueue q) (pw p 2) (if pf p 0 32 1 = 1 then 4 else 8) .write (some (s.queue q).plot) false = .ok a →
       ∃ t, exec (.signalWrite q) s = .next t ∧ (t.queue q).head = .signal ∧ (t.queue q).rptr = (s.queue q).rptr
         ∧ s.asks t (.signal q) (fnOfQueue q) true a (if pf p 0 32 1 = 1 then 4 else 8) [pw p 3]
         ∧ s.otherQueues t q ∧ s.only t [.hcf, .inSc, .mesh])
     ∧ (s.pins.bme.getLsbD (fnOfQueue q) = false → ∃ t, exec (.signalWrite q) s = .next t
         ∧ (t.queue q).st = .stalled ∧ (t.queue q).wait = 1 ∧ (t.queue q).rptr = (s.queue q).rptr
         ∧ s.otherQueues t q ∧ s.only t [.hcf, .inSc]))

/-- R129, R131, R132: reading an edge line of a resident graph appends the decrements of its 16 slots, in order, to the queues
of their banks; the reader then serves the next job. R317: the next of a queue is the first of its first lane, and else its
first. R112, R133, R135, R139: one decrement, from a bank or from the workspace's queue, takes one from its counter. At 1 left
it may raise a notice; at 0 a compute, copy or collective node with no delay and no holder enters its ready list with the
current tick; a counter that is 0 already fails the sowing; a FAILING sowing's decrement is discarded. R101: a decrement of a
page that is not resident reads its counter in the workspace. R142, R156, R157: a pending node of a plot that may add an entry
moves into its ready list, and an expired delay sends its node on. Both take the current tick. The model's own choices in it:
log 1, 14, 23, 114, 116. -/
def Obligations.CountersDecrementAndNodesBecomeReady : Prop :=
  (∀ (s : State) (j : EdgeJob) (w : Sowing) (g : Machine.Graph), s.alive = true →
     nextOf (fun x => s.firstLane x.sow) s.de.jobs = some j →
     s.sowing? j.sow = some w → s.graph? w.graph = some g → g.fallow = false → g.pages = [] →
     s.lineFits g (j.line16 g) = true →
     let r := s.de.jobs.erase j
     ∃ t, exec .edgeLineRead s = .next t
       ∧ (∀ b, t.bank b = s.bank b ++ (j.line16 g).filter fun d => ctrBank d.node == b)
       ∧ (nFanout (g.nodes.look 0 j.node) ≤ 16 * (j.line + 1) → t.de.jobs = r)
       ∧ (16 * (j.line + 1) < nFanout (g.nodes.look 0 j.node) → t.de.jobs = r ++ [{ j with line := j.line + 1 }])
       ∧ t.de.fallow = s.de.fallow ∧ t.de.notices = s.de.notices ∧ t.de.looks = s.de.looks ∧ s.only t [.de, .hv])
  ∧ (∀ (lane : Dec → Bool) (l : List Dec) (d : Dec), nextOf lane l = some d →
     d ∈ l ∧ (lane d = false → (∀ x ∈ l, lane x = false) ∧ l.head? = some d))
  ∧ (∀ (s : State) (d : Dec) (w : Sowing) (g : Machine.Graph), s.alive = true →
     d.stale = false → s.sowing? d.sow = some w → s.graph? w.graph = some g → g.resident d.node = true →
     g.inTransfer d.node = false →
     let c := w.counter g d.node
     let n := g.nodes.look 0 d.node
     let effects (o : Host.Outcome State Fault Refusal) : Prop :=
       (w.st = .active → c.st = .counting → 2 ≤ c.cnt → ∃ t, o = .next t
         ∧ t.sowing? d.sow = some (w.setCounter d.node ⟨c.cnt - 1, .counting⟩)
         ∧ (∀ k, k ≠ d.sow → t.sowing? k = s.sowing? k) ∧ (3 ≤ c.cnt → t.de.notices = s.de.notices)
         ∧ s.only t [.de, .sow, .hv])
       ∧ (w.st = .active → c = ⟨1, .counting⟩ → nKind n ≠ 15 → nDlyv n = false → s.holder? d.sow d.node = none →
         s.mayReady w.plot = true → ∃ t w', o = .next t ∧ t.sowing? d.sow = some w' ∧ w'.st = .active
           ∧ w'.counter g d.node = ⟨0, .passed⟩
           ∧ (let l := listKey w.plot (nKind n) (s.classOf w n) (nGroup n)
              t.list l = insertReady ⟨d.sow, d.node, s.tcs.tick, false, s.now, 1 + ctrBank (g.ctrIndex d.node)⟩ (s.list l)
                ∧ ∀ m, m ≠ l → t.list m = s.list m)
           ∧ s.only t (.de :: .sow :: .gs :: .rla :: reporting))
       ∧ (w.st = .active → (c.cnt = 0 ∨ c.st ≠ .counting) → ∃ t w', o = .next t ∧ t.sowing? d.sow = some w'
           ∧ w'.st = .failing ∧ w'.code = 0x10D)
       ∧ (w.st = .failing → ∃ t, o = .next t ∧ s.only t [.de])
     (∀ bank : Fin 16, nextOf (fun x => s.firstLane x.sow) (s.bank bank) = some d → effects (exec (.decrement bank) s))
     ∧ (s.de.fallow.find? s.decFree = some d → effects (exec .fallowDecrement s)))
  ∧ (∀ (s : State) (d : Dec) (w : Sowing) (g : Machine.Graph) (a : Nat), s.alive = true →
     s.de.fallow.find? s.decFree = some d → d.stale = false → s.sowing? d.sow = some w → s.graph? w.graph = some g →
     g.resident d.node = false → w.st = .active → w.ctr.look? d.node = none → s.de.work = none →
     s.translate w.fn (g.ctrAddr w.area d.node) 2 .read (some w.plot) false = .ok a →
     ∃ t, exec .fallowDecrement s = .next t ∧ t.de.work = some (d, none) ∧ t.de.fallow = s.de.fallow.erase d
       ∧ s.asks t (.counter d.sow d.node) w.fn false a 2 [] ∧ s.only t [.de, .mesh, .pru, .hv])
  ∧ ((∀ (s : State) (x : Pend) (w : Sowing) (g : Machine.Graph), s.alive = true → s.rla.pend = [x] → x.delay = false →
     x.dead = false → x.plot < 64 → s.mayReady x.plot = true → s.sowing? x.sow = some w → s.graph? w.graph = some g →
     let n := g.nodes.look 0 x.node
     let l := listKey w.plot (nKind n) (s.classOf w n) (nGroup n)
     ∃ t, exec .pendingMove s = .next t ∧ t.rla.pend = []
       ∧ t.list l = insertReady ⟨x.sow, x.node, s.tcs.tick, false, s.now, 33⟩ (s.list l)
       ∧ (∀ m, m ≠ l → t.list m = s.list m) ∧ s.only t (.sow :: .rla :: reporting))
   ∧ (∀ (s : State) (x : Delayed) (w : Sowing) (g : Machine.Graph), s.alive = true → s.expired = [x] → x.dead = false →
     s.sowing? x.sow = some w → w.st = .active → s.graph? w.graph = some g → nKind (g.nodes.look 0 x.node) ≠ 15 →
     s.mayReady w.plot = true →
     let n := g.nodes.look 0 x.node
     let l := listKey w.plot (nKind n) (s.classOf w n) (nGroup n)
     ∃ t, exec .delayExpiry s = .next t
       ∧ t.list l = insertReady ⟨x.sow, x.node, s.tcs.tick, false, s.now, 32⟩ (s.list l)
       ∧ (∀ m, m ≠ l → t.list m = s.list m) ∧ s.only t (.sow :: .rla :: reporting)))

/-- R142, R144, R156: the sweep frees dead entries only: every live entry of every ready list and of every flow's chain stays,
in order, and no pending mark of a FAILING sowing is left. R148, R149, R316: decide(p, k). The aged turn comes once in 16
decisions, whether or not they find a node; in the headland a deterministic plot's BE class is never chosen. A decision that
finds no node changes the arbiter alone. -/
def Obligations.ListsKeepTheirEntriesAndTurns : Prop :=
  (∀ (s : State), s.alive = true → Tab.rising s.rla.lists = true → Tab.rising s.rla.flows = true →
     ∃ t, exec .deadEntrySweep s = .next t
       ∧ (∀ l, (t.list l).filter (fun e => !e.dead) = (s.list l).filter fun e => !e.dead)
       ∧ (∀ l, (t.list l).Sublist (s.list l))
       ∧ (∀ f, (t.flow f).st = (s.flow f).st
           ∧ (t.flow f).chain.filter (fun e => !e.dead) = (s.flow f).chain.filter fun e => !e.dead)
       ∧ t.rla.pend = s.rla.pend.filter (fun x => !x.dead) ∧ t.rla.arbs = s.rla.arbs ∧ s.only t [.rla])
  ∧ (∀ (s : State) (p k : Nat),
     (s.arbitrate p k).2.turn = (if (s.arb p k).turn = 15 then 0 else (s.arb p k).turn + 1))
  ∧ (∀ (s : State) (plot : Fin 64) (kind : Kind), s.alive = true →
     (engineIds.any fun e => s.eligible e plot (kindNum kind)) = true → s.restorable plot (kindNum kind) = none →
     let u := s.stripAll plot (kindNum kind)
     (u.arbitrate plot (kindNum kind)).1.isNone = true →
     exec (.decision plot kind) s = .next (u.setArb plot (kindNum kind) (u.arbitrate plot (kindNum kind)).2))
  ∧ (∀ (s : State) (p k : Nat) (c : Choice), (s.arbitrate p k).1 = some c →
     (c.aged = true → (s.arb p k).turn = 15 ∧ s.aged p k c.cls c.grp = true)
       ∧ (c.cls = 0 ∨ c.cls = 1) ∧ (s.beStopped p = true → c.cls = 0)
       ∧ (c.aged = false → s.list (listKey p k c.cls c.grp) ≠ []))

/-- R149, R160, R161: a decision pops the head of the chosen list and commits it to an engine's front slot, when its sowing is
ACTIVE and its segment neither withdrawn nor being withdrawn. R135, R166 to R169: a one-left notice, or a PRODUCER edge of
a task that has just been started, holds the node on the first candidate that meets R166, with its back slot WRITING; a
producer whose target has more than one decrement to come is recorded; where no candidate qualifies nothing is held. R164,
R169, R174: a held node whose counter reached 0 in an earlier sc is released when its engine's front slot is free and nothing
of R164 stands against it: at once when the release is no start, when the plot's reserve has a unit, or when nothing is queued
and both budgets have room, and through the start queue otherwise. A PENDING node that finds another eligible engine is
withdrawn as mispredicted. The model's own choices in it: log 1, 14, 33, 107. -/
def Obligations.DrillDispatches : Prop :=
  (∀ (s : State) (plot : Fin 64) (kind : Kind) (c : Choice) (x : Ready) (r : List Ready) (w : Sowing) (e : Nat),
     s.alive = true → (engineIds.any fun e => s.eligible e plot (kindNum kind)) = true →
     s.restorable plot (kindNum kind) = none →
     let u := s.stripAll plot (kindNum kind)
     (u.arbitrate plot (kindNum kind)).1 = some c → u.list (listKey plot (kindNum kind) c.cls c.grp) = x :: r →
     u.sowing? x.sow = some w → w.st = .active → (u.entrySeg w (u.node w x.node)).wdraw = false →
     (u.entrySeg w (u.node w x.node)).stale = false → u.chooseEngine plot (kindNum kind) (u.node w x.node) = some e →
     ∃ t, exec (.decision plot kind) s = .next t
       ∧ t.list (listKey plot (kindNum kind) c.cls c.grp) = r
       ∧ (t.engine e).front = .committed ⟨x.sow, x.node, kindNum kind, none, false⟩ (s.engine e).inc
       ∧ s.otherEngines t e ∧ e ∈ t.dcs.seqF.look [] (e / 16) ∧ s.only t [.rla, .eng, .dcs, .hv])
  ∧ ((∀ (s : State) (x : Notice) (r : List Notice) (w : Sowing) (g : Machine.Graph), s.alive = true →
     s.de.notices = x :: r → s.sowing? x.sow = some w → s.graph? w.graph = some g →
     let cs := s.candidates x.sow x.node (g.nodes.look 0 x.node) none (if x.producer then x.src else none)
     ((cs.find? fun c => s.holdOk c.1 x.sow x.node w g) = none →
       exec .oneLeftNotice s = .next { s with de := { s.de with notices := r } })
     ∧ (∀ e c, (cs.find? fun c => s.holdOk c.1 x.sow x.node w g) = some (e, c) →
       ∃ t, exec .oneLeftNotice s = .next t ∧ t.de.notices = r ∧ (t.engine e).back.st = .writing
         ∧ (t.engine e).back.task = ⟨x.sow, x.node, nKind (g.nodes.look 0 x.node), none, false⟩
         ∧ (t.engine e).back.holdAt = s.now ∧ (t.engine e).front = (s.engine e).front ∧ s.otherEngines t e
         ∧ e ∈ t.dcs.seqB.look [] (e / 16) ∧ s.only t [.de, .rla, .eng, .dcs, .hv, .inSc]))
   ∧ (∀ (s : State) (k i e : Nat) (r : List (Nat × Nat × Nat)) (w : Sowing) (g : Machine.Graph), s.alive = true →
     s.de.looks = (k, i, e) :: r → s.de.jobs = [] → s.sowing? k = some w → s.graph? w.graph = some g →
     s.dcs.producers.length + 16 ≤ 4096 →
     let ys := (((List.range 16).filter fun j => j < nFanout (g.nodes.look 0 i)).map (g.edge i)).filter eProducer
     (ys.map eTarget).Nodup → (∀ z ∈ s.dcs.producers, ¬(z.1 = k ∧ z.2.2.2 = i)) →
     (∀ y ∈ ys, (w.counter g (eTarget y)).st = .counting ∧ 1 < (w.counter g (eTarget y)).cnt) →
     exec .producerLookahead s = .next { s with
       de := { s.de with looks := r }
       dcs := { s.dcs with producers := s.dcs.producers ++ ys.map fun y => (k, eTarget y, e, i) } }))
  ∧ ((∀ (s : State) (eng : Fin 512), s.alive = true →
     ((s.engine eng).back.st = .held ∨ (s.engine eng).back.st = .pending) → s.heldReady eng = true →
     (∀ t, (s.engine eng).back.zeroAt = some t → t < s.now) →
     (s.engine eng).front = .empty → (s.engine eng).token = none → (s.engine eng).service = .inService →
     s.domain (eng / 16) = .awake → (s.engine eng).preempt = none → (s.engine eng).moving = none →
     (s.plot (s.plotOf eng)).st = .running → s.capped (eng / 16) (s.engine eng).back.task.kind = false →
     s.frontStopped (s.engine eng).back.task = false → s.swapFirst = false →
     s.writeOk eng (s.engine eng).back.task (s.engine eng).back.inc = true →
     (s.isStart eng = false → ∃ t, exec (.heldRelease eng) s = .next t ∧ (t.engine eng).token = some 0
       ∧ (t.engine eng).back.st = .releasing ∧ (t.engine eng).back.sent = true ∧ s.otherEngines t eng
       ∧ s.only t [.eng, .pins, .de, .hv, .inSc])
     ∧ (s.isStart eng = true → s.reserveLeft (s.plotOf eng) = false → s.admitNow (.release eng) = false →
       ∃ t, exec (.heldRelease eng) s = .next t
       ∧ (t.engine eng).token = none ∧ (t.engine eng).back.st = .releasing ∧ (t.engine eng).back.sent = false
       ∧ t.dcs.queue = queueStart ⟨.release eng, s.now⟩ s.dcs.queue ∧ s.otherEngines t eng ∧ s.only t [.eng, .dcs])
     ∧ (s.isStart eng = true → s.reserveLeft (s.plotOf eng) = false → s.admitNow (.release eng) = true →
       ∃ t, exec (.heldRelease eng) s = .next t
       ∧ (t.engine eng).token = some 0 ∧ t.dcs.usedShared = s.dcs.usedShared + 1 ∧ t.dcs.queue = s.dcs.queue
       ∧ s.otherEngines t eng ∧ s.only t [.eng, .dcs, .pins, .de, .hv, .inSc])
     ∧ (s.isStart eng = true → s.reserveLeft (s.plotOf eng) = true → ∃ t, exec (.heldRelease eng) s = .next t
       ∧ (t.engine eng).token = some 0 ∧ t.dcs.usedRsv.look 0 (s.plotOf eng) = s.dcs.usedRsv.look 0 (s.plotOf eng) + 1
       ∧ t.dcs.queue = s.dcs.queue ∧ s.otherEngines t eng ∧ s.only t [.eng, .dcs, .pins, .de, .hv, .inSc]))
   ∧ (∀ (s : State) (eng : Fin 512) (w : Sowing) (o : Nat), s.alive = true → (s.engine eng).back.st = .pending →
     s.sowing? (s.engine eng).back.task.sow = some w → o < 512 → o ≠ eng.val →
     s.eligible o w.plot (s.engine eng).back.task.kind = true →
     ∃ t, exec (.mispredictWithdraw eng) s = .next t ∧ (t.engine eng).back.st = .withdrawing
       ∧ (t.engine eng).back.trigger = 6 ∧ (t.engine eng).token = some 1 ∧ s.otherEngines t eng ∧ s.only t [.eng, .pins]))

/-- R24, R161, R174, R176: while its port is free, the cluster sequencer takes up its first front-slot descriptor. One that
passes the checks and is no start is driven at once, beats and all, and the port is busy with them; a start that neither a
reserve nor the budgets admit enters the start queue; one whose checks fail is not written. With no front-slot descriptor, a
hold of an earlier sc is driven. R25, R162, R169, R183: an acknowledged front-slot descriptor
runs: it joins the started tasks with the engine's next SEQ. An acknowledged hold is HELD, or PENDING when its counter
reached 0 while the front slot is occupied. STARTED begins the held task and empties the back slot; WITHDRAWN and EMPTY
empty it. The model's own choices in it: log 1, 22. -/
def Obligations.DescriptorsAndTokens : Prop :=
  ((∀ (s : State) (cluster : Fin 32) (e : Nat) (rest : List Nat) (x : Task) (inc : BitVec 8), s.alive = true →
     s.portFree cluster = true →
     s.dcs.seqF.look [] cluster = e :: rest → e / 16 = cluster → (s.engine e).front = .committed x inc →
     s.frontStopped x = false → x.test = false → x.slice = none →
     (s.writeOk e x inc = true → s.preemptStops x = false → s.isStart e = false → s.looped cluster = false →
       ∃ t, exec (.descriptorWrite cluster) s = .next t ∧ (t.engine e).front = .driven x s.now
         ∧ (List.range 8).map (fun i => t.pins.descOut.look 0 (cluster * 16 + i)) = (s.descriptor x).take 8
         ∧ t.de.looks = s.de.looks ++ [(x.sow, x.node, e)] ∧ e ∉ t.dcs.seqF.look [] cluster ∧ s.otherEngines t e
         ∧ t.dcs.portAt.look 0 cluster = s.now + 2 ∧ s.only t [.eng, .dcs, .pins, .de, .hv, .inSc])
     ∧ (s.writeOk e x inc = true → s.preemptStops x = false → s.isStart e = true →
       s.reserveLeft (s.plotOf e) = false →
       (s.admitNow (.front e) = false → ∃ t, exec (.descriptorWrite cluster) s = .next t
         ∧ t.dcs.queue = queueStart ⟨.front e, s.now⟩ s.dcs.queue ∧ t.engine e = s.engine e ∧ s.only t [.dcs])
       ∧ (s.admitNow (.front e) = true → ∃ t, exec (.descriptorWrite cluster) s = .next t
         ∧ (t.engine e).front = .driven x s.now ∧ t.dcs.usedShared = s.dcs.usedShared + 1
         ∧ s.otherEngines t e ∧ s.only t [.eng, .dcs, .pins, .de, .hv, .inSc]))
     ∧ (s.writeOk e x inc = false → ∃ t, exec (.descriptorWrite cluster) s = .next t ∧ (t.engine e).front = .empty))
   ∧ (∀ (s : State) (cluster : Fin 32) (e : Nat) (rest : List Nat), s.alive = true →
     s.portFree cluster = true → (s.engine e).back.holdAt < s.now →
     s.dcs.seqF.look [] cluster = [] → s.dcs.seqB.look [] cluster = e :: rest →
     s.writeOk e (s.engine e).back.task (s.engine e).back.inc = true →
     ∃ t, exec (.descriptorWrite cluster) s = .next t ∧ (t.engine e).back.drivenAt = some s.now
       ∧ (t.engine e).back.st = (s.engine e).back.st ∧ (t.engine e).front = (s.engine e).front ∧ s.otherEngines t e
       ∧ s.only t [.eng, .dcs, .pins]))
  ∧ (∀ (s : State) (eng : Fin 512), s.enginePort eng →
     (∀ x a, (s.engine eng).front = .driven x a → (s.engine eng).back.st ≠ .writing → x.test = false →
       s.ftt.resets.look? (x.sow / 2 ^ 32) = none → ∃ t, exec (.descriptorAccepted eng) s = .next t
         ∧ (t.engine eng).front = .running x s.now
         ∧ (t.engine eng).started = (s.engine eng).started ++ [((s.engine eng).nextSeq, x)]
         ∧ (t.engine eng).nextSeq = (s.engine eng).nextSeq + 1 ∧ (t.engine eng).back = (s.engine eng).back
         ∧ (∀ f, f ≠ eng.val → (t.engine f).core = (s.engine f).core) ∧ t.sow = s.sow ∧ t.gs = s.gs)
     ∧ (∀ b, (s.engine eng).back.st = .writing → (s.engine eng).back.drivenAt = some b →
       (∀ x a, (s.engine eng).front ≠ .driven x a) → (s.engine eng).back.wdAt = none →
       ∃ t, exec (.descriptorAccepted eng) s = .next t
         ∧ (t.engine eng).back.st = (if (s.engine eng).back.zeroAt ≠ none ∧ (s.engine eng).front ≠ .empty then .pending
             else .held)
         ∧ (t.engine eng).back.task = (s.engine eng).back.task ∧ (t.engine eng).front = (s.engine eng).front
         ∧ t.sow = s.sow ∧ t.gs = s.gs)
     ∧ ((s.engine eng).token = some 0 → (s.engine eng).back.st = .releasing → (s.engine eng).back.task.test = false →
       s.ftt.resets.look? ((s.engine eng).back.task.sow / 2 ^ 32) = none → ∃ t, exec (.tokenStarted eng) s = .next t
         ∧ (t.engine eng).front = .running (s.engine eng).back.task s.now ∧ (t.engine eng).back = Back.reset
         ∧ (t.engine eng).token = none ∧ (t.engine eng).nextSeq = (s.engine eng).nextSeq + 1
         ∧ (t.engine eng).started = (s.engine eng).started ++ [((s.engine eng).nextSeq, (s.engine eng).back.task)]
         ∧ t.sow = s.sow ∧ t.gs = s.gs)
     ∧ ((s.engine eng).token = some 1 → ∃ t, exec (.tokenWithdrawn eng) s = .next t ∧ (t.engine eng).token = none
         ∧ ((s.engine eng).back.st ≠ .empty → (t.engine eng).back = Back.reset)
         ∧ (t.engine eng).front = (s.engine eng).front)
     ∧ ((s.engine eng).token = some 1 → ∃ t, exec (.tokenEmpty eng) s = .next t ∧ (t.engine eng).token = none
         ∧ ((s.engine eng).back.st ≠ .empty → (t.engine eng).back = Back.reset)
         ∧ (t.engine eng).front = (s.engine eng).front))

/-- R185, R186, R190, R416: a returning engine is sent FLUSH with the HGS's copy of its incarnation; FLUSHED raises the copy
and restarts SEQ at 0, and the self-test is due. The test descriptor is committed to the front slot; a test that times out
retires the engine with its incarnation raised. The model's own choices in it: log 40, 43. -/
def Obligations.EnginesReturnAndAreTested : Prop :=
  (∀ (s : State) (eng : Fin 512) (k : Nat), s.alive = true → engineKind? eng = some k →
    (s.engine eng).service = .away → s.active eng = true → s.domain (eng / 16) = .awake →
    ∃ t, exec (.engineReturn eng) s = .next t ∧ t.pins.up.getLsbD eng = true ∧ t.pins.rst.getLsbD eng = false
      ∧ (∀ f, f ≠ eng.val → t.pins.up.getLsbD f = s.pins.up.getLsbD f ∧ t.pins.rst.getLsbD f = s.pins.rst.getLsbD f)
      ∧ (t.engine eng).service = .returning ∧ (t.engine eng).token = some 2
      ∧ (t.engine eng).inc = (s.engine eng).inc ∧ s.otherEngines t eng ∧ s.only t [.pins, .eng])
  ∧ (∀ (s : State) (eng : Fin 512), s.enginePort eng → (s.engine eng).token = some 2 → (s.engine eng).wait = none →
    (s.engine eng).service ≠ .retired → s.ccBuf (eng / 16) = [] →
    ∃ t, exec (.tokenFlushed eng) s = .next t ∧ (t.engine eng).inc = (s.engine eng).inc + 1
      ∧ (t.engine eng).seqx = 0 ∧ (t.engine eng).nextSeq = 0 ∧ (t.engine eng).token = none
      ∧ (t.engine eng).service = .testing ∧ (t.engine eng).flushed = true ∧ s.otherEngines t eng
      ∧ s.only t [.eng, .pru, .cc])
  ∧ (∀ (s : State) (eng : Fin 512) (k : Nat), s.alive = true → engineKind? eng = some k →
    (s.engine eng).token = none → (s.engine eng).front = .empty → (s.engine eng).back.st = .empty →
    (s.engine eng).started = [] → (s.engine eng).preempt = none → s.domain (eng / 16) = .awake →
    ((s.engine eng).service = .out → ∃ t, exec (.engineSelfTest eng) s = .next t ∧ (t.engine eng).token = some 2
      ∧ s.otherEngines t eng ∧ s.only t [.eng, .pins])
    ∧ ((s.engine eng).service = .testing → (s.engine eng).flushed = true → ∃ t, exec (.engineSelfTest eng) s = .next t
      ∧ (∃ i, (t.engine eng).front = .committed ⟨0, 0, k, none, true⟩ i) ∧ eng.val ∈ t.dcs.seqF.look [] (eng / 16)
      ∧ (t.engine eng).tests = satAdd 8 (s.engine eng).tests 1 ∧ s.otherEngines t eng ∧ s.only t [.eng, .dcs]))
  ∧ (∀ (s : State) (eng : Fin 512), s.alive = true →
    (((s.engine eng).token = some 2 ∧ (s.engine eng).tokenAt + 1024 ≤ s.now)
      ∨ ((s.engine eng).service = .testing ∧ ∃ t0, (s.engine eng).testAt = some t0 ∧ t0 + 4000000 ≤ s.now)) →
    ∃ t, exec (.selfTestTimeout eng) s = .next t ∧ (t.engine eng).service = .retired
      ∧ (t.engine eng).inc = (s.engine eng).inc + 1 ∧ (t.engine eng).front = .empty ∧ (t.engine eng).started = []
      ∧ (t.engine eng).token = none)

/-- R32 to R37, R185: an engine that resets or goes down loses its slots and its started tasks, its preempt request and notices
lapse, and its incarnation is raised once; a fall of its up pin in reset or sleep only shows on the pin. R25, R352: an
engine that does not acknowledge a descriptor within 1,024 sc, or does not answer a preempt request within PREEMPT_LIMIT,
leaves service for its self-test, and its front slot and started tasks are gone. R29, R351: the answers to a preempt
request that was driven each end it. IDLE and AT_BOUNDARY leave the front slot as it is; SAVED and SAVE_FAILED free it and
take the task out of the started ones, and SAVED puts it into its plot's saved list with its directory entry asked for. The
model's own choices in it: log 22, 43, 89, 104. It is said of engines with no record waiting in their cluster's buffer: R34's
check of those is what COMPLETION_RECORD does. -/
def Obligations.EnginesFailAndAnswer : Prop :=
  (∀ (s : State) (eng : Fin 512), s.enginePort eng → engineKind? eng ≠ none → (s.engine eng).service ≠ .retired →
     s.ccBuf (eng / 16) = [] →
     let gone (t : State) : Prop := (t.engine eng).inc = (s.engine eng).inc + 1 ∧ (t.engine eng).front = .empty
       ∧ (t.engine eng).back.st = .empty ∧ (t.engine eng).started = [] ∧ (t.engine eng).token = none
       ∧ (t.engine eng).preempt = none ∧ (t.engine eng).service = .away
     ((s.engine eng).goneAt ≠ some s.now → ∃ t, exec (.engineReset eng) s = .next t ∧ gone t
       ∧ t.pins.rst.getLsbD eng = true)
     ∧ (s.pins.rst.getLsbD eng = false → s.asleep (eng / 16) = false → ∃ t, exec (.engineDown eng) s = .next t ∧ gone t
       ∧ t.pins.up.getLsbD eng = false)
     ∧ ((s.pins.rst.getLsbD eng = true ∨ s.asleep (eng / 16) = true) → exec (.engineDown eng) s
         = .next { s with pins := { s.pins with up := s.pins.up &&& ~~~(BitVec.ofNat 512 (2 ^ eng.val)) } }))
  ∧ ((∀ (s : State) (eng : Fin 512) (x : Task) (a : Nat), s.alive = true → (s.engine eng).front = .driven x a →
     (s.engine eng).back.st = .empty → x.test = false → a + 1024 ≤ s.now →
     ∃ t, exec (.descriptorAckTimeout eng) s = .next t ∧ (t.engine eng).service = .out ∧ (t.engine eng).front = .empty
       ∧ (t.engine eng).started = [] ∧ (t.engine eng).token = none)
   ∧ (∀ (s : State) (eng : Fin 512) (x : Preempt) (a : Nat), s.alive = true → (s.engine eng).preempt = some x →
     x.driven = some a → a + (s.plotCfg (s.plotOf eng)).preemptLimit * 2000 ≤ s.now →
     ∃ t, exec (.preemptNoresp eng) s = .next t ∧ (t.engine eng).service = .out ∧ (t.engine eng).started = []
       ∧ (t.engine eng).token = none ∧ (t.engine eng).preempt = none))
  ∧ (∀ (s : State) (eng : Fin 512) (x : Preempt) (a : Nat), s.enginePort eng → (s.engine eng).preempt = some x →
     x.driven = some a →
     (∃ t, exec (.preemptIdle eng) s = .next t ∧ (t.engine eng).preempt = none
       ∧ (t.engine eng).front = (s.engine eng).front ∧ (t.engine eng).started = (s.engine eng).started)
     ∧ (s.ccBuf (eng / 16) = [] → ∃ t, exec (.preemptAtBoundary eng) s = .next t ∧ (t.engine eng).preempt = none
       ∧ (t.engine eng).front = (s.engine eng).front ∧ (t.engine eng).started = (s.engine eng).started)
     ∧ (∀ y b w p i phys, (s.engine eng).front = .running y b → x.slice = some (p, i) → s.sowing? y.sow = some w →
       w.st = .active → y.slice = none → (s.engine eng).wait = none →
       s.areaAddr p (i * 64) 64 .write = .ok phys → ∃ t, exec (.preemptSaved eng) s = .next t
         ∧ (t.engine eng).preempt = none ∧ (t.engine eng).front = .empty
         ∧ (t.engine eng).started = (s.engine eng).started.filter (fun z => z.2 != y)
         ∧ (t.plot p).saved = (s.plot p).saved
             ++ [⟨{ y with slice := none }, eng, i, s.dirEntry y eng i, none, false⟩]
         ∧ t.sow = s.sow)
     ∧ (∀ y b, (s.engine eng).front = .running y b → ∃ t, exec (.preemptSaveFailed eng) s = .next t
         ∧ (t.engine eng).preempt = none ∧ (t.engine eng).front = .empty
         ∧ (t.engine eng).started = (s.engine eng).started.filter (fun z => z.2 != y)))

/-- R30, R181: a record presented to a full buffer is not taken; one that is taken waits for the CC when it has taken 4 in the
sc, and is served otherwise. R35, R78, R182, R183, R187: a record from an engine out of its incarnation, or with an SEQ
already passed, is logged and changes no sowing; the record of the one task that the engine runs, with status OK, completes
it: the node counts and its digest is folded in. R189: one partial sum leaves the cache: the read of its word at LDADDR + 8 x
LAYER is asked for, under the sowing's function, unless an earlier addition to that word is under way, which it then waits
for. R353, R354: a restore reads its directory entry first, and an acknowledged notice is marked. The model's own choices in
it: log 21, 23, 31, 104, 119. -/
def Obligations.CompletionsAndRestores : Prop :=
  (∀ (s : State) (cluster : Fin 32) (record : BitVec 256), s.alive = true → s.looped cluster = false →
     (s.crdy cluster = false → exec (.completionRecord cluster record) s = .next s)
     ∧ (s.crdy cluster = true → 4 ≤ s.inSc.taken → ∃ t, exec (.completionRecord cluster record) s = .next t
         ∧ t.ccBuf cluster = s.ccBuf cluster ++ [record] ∧ (∀ d, d ≠ cluster.val → t.ccBuf d = s.ccBuf d)
         ∧ s.only t [.cc]))
  ∧ (∀ (s : State) (cluster : Fin 32) (record : BitVec 256), s.alive = true → s.looped cluster = false →
     s.cc.bufs = [] → s.inSc.taken < 4 →
     let c := CplRec.decode record
     let e := cluster.val * 16 + c.eng
     let u : State := { s with cc := ⟨[], cluster⟩, inSc := { s.inSc with taken := s.inSc.taken + 1 } }
     engineKind? e ≠ none → s.active e = true →
     (c.inc ≠ (s.engine e).inc → exec (.completionRecord cluster record) s
         = .next (u.errlog { code := 0x802, eng := some e }))
     ∧ (c.inc = (s.engine e).inc → 32768 ≤ (c.seq - (s.engine e).seqx).toNat →
         exec (.completionRecord cluster record) s
           = .next (u.errlog { code := 0x803, eng := some e, arg := c.seq.zeroExtend 64 }))
     ∧ (∀ x w, c.inc = (s.engine e).inc → c.seq = (s.engine e).seqx → (s.engine e).started = [(c.seq, x)] →
         x.test = false → x.slice = none → c.names x = true → c.status = 0 → c.ce = false →
         s.sowing? x.sow = some w → w.st = .active → nNodigest (s.node w x.node) = false → s.layersHeld < 4096 →
         ∃ t w', exec (.completionRecord cluster record) s = .next t ∧ t.sowing? x.sow = some w'
           ∧ w'.done = w.done + 1 ∧ w'.retired = w.retired + 1 ∧ w'.lost = w.lost ∧ w'.st = .active
           ∧ w'.digest = w.digest + contribution x.node c.digest
           ∧ (t.engine e).started = [] ∧ (t.engine e).front = .empty ∧ (t.engine e).seqx = (s.engine e).nextSeq
           ∧ (t.engine e).back = (s.engine e).back
           ∧ (∀ k, k ≠ x.sow → t.sowing? k = s.sowing? k
               ∨ ∃ v, s.sowing? k = some v ∧ t.sowing? k = some { v with kindAbsent := true })))
  ∧ ((∀ (s : State) (fn : Fin 256) (id : BitVec 32) (layer : Fin 4096) (w : Sowing) (v : W64) (a : Nat), s.alive = true →
     s.sowing? (sowKey fn id) = some w → w.layers.look? layer = some v →
     (s.layerBusy (sowKey fn id) layer = false →
       s.translate w.fn (w.act.ldaddr + BitVec.ofNat 64 (8 * layer)) 8 .read (some w.plot) true = .ok a →
       ∃ t, exec (.layerDigestEvict fn id layer) s = .next t
         ∧ t.sowing? (sowKey fn id) = some { w with layers := w.layers.del layer }
         ∧ s.asks t (.layerRead (sowKey fn id) layer v) w.fn false a 8 []
         ∧ (∀ k, k ≠ sowKey fn id → t.sowing? k = s.sowing? k) ∧ s.only t [.sow, .mesh, .pru, .hv])
     ∧ (s.layerBusy (sowKey fn id) layer = true → ∃ t, exec (.layerDigestEvict fn id layer) s = .next t
         ∧ t.sowing? (sowKey fn id)
             = some { w with layers := w.layers.del layer, layerWait := w.layerWait ++ [(layer.val, v)] }
         ∧ (∀ k, k ≠ sowKey fn id → t.sowing? k = s.sowing? k) ∧ s.only t [.sow]))
   ∧ (∀ (s : State) (eng : Fin 512) (k a : Nat) (x : Saved), s.alive = true → engineKind? eng = some k →
     s.restorable (s.plotOf eng) k = some x → s.eligible eng (s.plotOf eng) k = true →
     s.areaAddr (s.plotOf eng) (x.slice * 64) 64 .read = .ok a →
     ∃ t, exec (.savedTaskRestore eng) s = .next t
       ∧ (t.engine eng).front = .committed { x.task with slice := some (s.plotOf eng, x.slice) } (s.engine eng).inc
       ∧ s.asks t (.saveRead (s.plotOf eng) x.slice eng) (s.plotCfg (s.plotOf eng)).owner false a 64 []
       ∧ s.otherEngines t eng ∧ s.only t [.pru, .eng, .mesh])
   ∧ (∀ (s : State) (eng : Fin 512) (x : Xfer) (n : NoticeBlk), s.alive = true → s.mesh.waiting = [] →
     s.mesh.out = [x] → s.noticeOf eng x = true → x.retryAt = none → (s.engine eng).notice = some n → n.kind ≠ 2 →
     (s.engine eng).preempt = none →
     ∃ t n', exec (.noticeAck eng) s = .next t ∧ (t.engine eng).notice = some n' ∧ n'.acked = true ∧ n'.kind = n.kind
       ∧ n'.nseq = n.nseq ∧ (t.engine eng).core = (s.engine eng).core ∧ t.sow = s.sow ∧ t.gs = s.gs))

/-- R57, R173, R175, R176, R178: the end of a window of 64 sc samples the power manager's budget and starts a window in which
nothing is charged; within a window nothing ends. With the chip budget used up and no reserve to draw on, nothing leaves the
start queue; a domain's wake that the budgets admit leaves it, is charged WAKECOST, and the domain is waking. R54, R55, R56,
R178, R185: work that no eligible engine can take asks for the wake of the lowest sleeping domain, which is waking at once
when nothing is queued and the budgets have room; an idle domain is asked to sleep; an acknowledged wake makes it
awake, an unanswered one unavailable with POWER_NOACK; an acknowledged sleep raises the incarnations of its engines once
each and takes them out of service, an unanswered one raises none. R58, R347: a throttle level reaches the clusters of its
stack. The model's own choices in it: log 1, 8, 20, 36. -/
def Obligations.StartsAndDomains : Prop :=
  ((∀ (s : State) (b : BitVec 8), s.windowNow ≤ s.dcs.window → exec (.rampWindowEnd b) s = .next s)
   ∧ (∀ (s : State) (b : BitVec 8), s.alive = true → s.dcs.window < s.windowNow → ∃ t, exec (.rampWindowEnd b) s = .next t
     ∧ t.inForce = (if b = 0 then s.fm.active.chip.chipStarts else min s.fm.active.chip.chipStarts b.toNat)
     ∧ t.dcs.usedShared = 0 ∧ (∀ c, t.dcs.usedClust.look 0 c = 0) ∧ (∀ p, t.dcs.usedRsv.look 0 p = 0)
     ∧ t.dcs.window = s.windowNow ∧ t.dcs.queue = s.dcs.queue ∧ s.only t [.dcs])
   ∧ (∀ (s : State), s.alive = true → s.chipRoom = false →
     (∀ x ∈ s.dcs.queue, s.startStands x.what = true ∧ s.reservedNow x.what = false) →
     exec .startQueueAdmit s = .next s)
   ∧ (∀ (s : State) (c a : Nat), s.alive = true → s.dcs.queue = [⟨.domain c, a⟩] → s.chipRoom = true →
     s.clusterRoom c = true → ∃ t, exec .startQueueAdmit s = .next t ∧ t.dcs.queue = [] ∧ t.domain c = .waking s.now
       ∧ t.dcs.usedShared = s.dcs.usedShared + s.fm.active.chip.wakeCost
       ∧ t.dcs.usedClust.look 0 c = s.dcs.usedClust.look 0 c + s.fm.active.chip.wakeCost
       ∧ (∀ d, d ≠ c → t.domain d = s.domain d) ∧ s.only t [.dcs]))
  ∧ ((∀ (s : State) (plot : Fin 64) (kind : Kind) (c : Nat), s.alive = true →
     s.sleepingDomain plot (kindNum kind) = some c → s.listsWait plot (kindNum kind) = true →
     (∀ e ∈ engineIds, s.eligible e plot (kindNum kind) = false) →
     (∀ x ∈ s.dcs.queue, x.what ≠ .domain c) →
     (s.admitNow (.domain c) = false → ∃ t, exec (.domainWakeRequest plot kind) s = .next t
       ∧ t.dcs.queue = queueStart ⟨.domain c, s.now⟩ s.dcs.queue ∧ t.domain c = s.domain c ∧ s.only t [.dcs])
     ∧ (s.admitNow (.domain c) = true → ∃ t, exec (.domainWakeRequest plot kind) s = .next t
       ∧ t.dcs.queue = s.dcs.queue ∧ t.domain c = .waking s.now
       ∧ t.dcs.usedShared = s.dcs.usedShared + s.fm.active.chip.wakeCost
       ∧ (∀ d, d ≠ c → t.domain d = s.domain d) ∧ s.only t [.dcs]))
   ∧ (∀ (s : State) (c : Fin 32), s.alive = true →
     (s.domain c = .awake → s.domainIdle c = true → ∃ t, exec (.domainSleepRequest c) s = .next t
       ∧ t.domain c = .sleeping s.now ∧ (∀ d, d ≠ c.val → t.domain d = s.domain d) ∧ s.only t [.dcs])
     ∧ (∀ a, s.domain c = .waking a → (∃ t, exec (.wakeAck c) s = .next t ∧ t.domain c = .awake
         ∧ (∀ d, d ≠ c.val → t.domain d = s.domain d) ∧ s.only t [.dcs])
       ∧ (a + 65536 ≤ s.now → ∃ t, exec (.wakeTimeout c) s = .next t ∧ t.domain c = .unavailable
         ∧ (∀ d, d ≠ c.val → t.domain d = s.domain d) ∧ s.only t (.dcs :: reporting)))
     ∧ (∀ a, s.domain c = .sleeping a → (s.ccBuf c = [] → ∃ t, exec (.sleepAck c) s = .next t ∧ t.domain c = .asleep
         ∧ (∀ e, e / 16 = c.val → engineKind? e ≠ none → (t.engine e).inc = (s.engine e).inc + 1
             ∧ (t.engine e).service = (if (s.engine e).service = .retired then .retired else .away))
         ∧ (∀ e, e / 16 ≠ c.val → (t.engine e).inc = (s.engine e).inc ∧ (t.engine e).service = (s.engine e).service))
       ∧ (a + 65536 ≤ s.now → ∃ t, exec (.sleepTimeout c) s = .next t ∧ t.domain c = .unavailable
         ∧ (∀ e, e / 16 = c.val → engineKind? e ≠ none → (t.engine e).emptyOk = true
             ∧ (t.engine e).service = (if (s.engine e).service = .retired then .retired else .away))
         ∧ (∀ e, (t.engine e).inc = (s.engine e).inc) ∧ s.only t (.dcs :: .eng :: reporting))))
   ∧ (∀ (s : State) (stack : Fin 8) (level : BitVec 2), s.alive = true →
     ∃ t, exec (.thermalChange stack level) s = .next t
       ∧ (∀ c, c < 32 → t.therm c = if c / 4 = stack.val then level.toNat else s.therm c) ∧ s.only t [.pins]))

/-- R39, R40: the response of an ID with no transaction is logged and changes nothing else. TGT_RESET has the transfer tried
once more, 256 sc later; a second one, TGT_ERR, DECODE or 2^20 sc without a response end it. Shown for a result record,
whose final failure is a TRANSFER record of the queue's function. The model's own choices in it: log 27, 90. -/
def Obligations.MeshTransfersEnd : Prop :=
  ∀ (s : State) (id : Fin 512), s.alive = true →
    (∀ r d, s.xfer? id = none → exec (.meshResponse id r d) s
        = .next (s.errlog { code := 0x805, arg := BitVec.ofNat 64 id }))
    ∧ (∀ x, s.xfer? id = some x → x.retryAt = none →
      (∀ d, x.second = false → x.purpose ≠ .abandoned → ∃ t, exec (.meshResponse id .tgtReset d) s = .next t
        ∧ t.xfer? id = some { x with retryAt := some (s.now + 256) } ∧ (∀ j, j ≠ id.val → t.xfer? j = s.xfer? j)
        ∧ t.mesh.waiting = s.mesh.waiting ∧ s.only t [.mesh])
      ∧ (∀ q d, x.purpose = .result q → x.write = true → s.mesh.waiting = [] →
        (x.last = true → ∃ t, exec (.meshResponse id .ok d) s = .next t ∧ t.xfer? id = none
          ∧ (∀ j, j ≠ id.val → t.xfer? j = s.xfer? j) ∧ s.only t [.mesh])
        ∧ (∀ c r, ((r = .tgtErr ∨ r = .decode ∨ (r = .tgtReset ∧ x.second = true)) ∧ c = Instr.meshResponse id r d)
              → (s.faultQ x.fn).recs.length < 64 → (s.faultQ x.fn).quiet 0x212 s.now = true →
              (s.faultQ x.fn).freshAt ≠ s.now →
            ∃ t, exec c s = .next t ∧ (∀ y ∈ t.mesh.out, y.id = id.val → y.purpose ≠ .result q)
              ∧ (t.faultQ x.fn).recs = (s.faultQ x.fn).recs
                ++ [s.recordOf { code := 0x212, fn := some x.fn, queue := some q, detail := 1 }]
              ∧ s.only t reporting)
        ∧ (x.at' + 2 ^ 20 ≤ s.now → (s.faultQ x.fn).recs.length < 64 →
            (s.faultQ x.fn).quiet 0x213 s.now = true → (s.faultQ x.fn).freshAt ≠ s.now →
            ∃ t, exec (.meshTimeout id) s = .next t ∧ (∀ y ∈ t.mesh.out, y.id = id.val → y.purpose ≠ .result q)
              ∧ (t.faultQ x.fn).recs = (s.faultQ x.fn).recs
                ++ [s.recordOf { code := 0x213, fn := some x.fn, queue := some q, detail := 1 }]
              ∧ s.only t reporting)))
    ∧ (∀ x a, s.xfer? id = some x → x.retryAt = some a → a ≤ s.now → x.purpose ≠ .abandoned →
        ∃ t, exec (.meshRetry id) s = .next t
        ∧ t.xfer? id = some { x with retryAt := none, second := true, at' := s.now }
        ∧ (∀ j, j ≠ id.val → t.xfer? j = s.xfer? j) ∧ s.only t [.mesh])

/-- R17, R374, R377, R379, R383: a doorbell write sets the written bits toward the other side, a clear removes them but for
those rung in the same sc, a mask write replaces the mask, each on its side alone. A bit of a shared channel that rises unmasked with NOTEN set and no notification
given or under way has NOTDATA written to NOTADDR. R384, R385: a claim of a free lock with a TAG other than 0 takes it and
records the writer; a claim of a held lock leaves it, but for a
firmware claim in the sc of a host's, which goes first. A release by the holder with the TAG frees it, any other leaves it. A
lock held for 2^24 sc is broken, and logged. R380, R381, R382: into an idle word queue a header whose packet has no room is
refused with OVR and its LEN words are then discarded; one that has room opens a packet, and with its last word
the packet is complete, readable whole from the next sc on. A read takes the oldest visible word; an empty queue reads 0 with UNDER. TXFLUSH abandons what is being
assembled, RXFLUSH what has been received; a packet whose last word comes in the sc of
the TXFLUSH survives. The model's own choices in it: log 48, 77, 78. -/
def Obligations.MailboxesCarryTraffic : Prop :=
  (∀ (s : State) (req : Req) (ch : Fin 258) (bits : BitVec 32), s.ftt.fatal = false →
     let fresh (b : Bell) : BitVec 32 := if b.at' = s.now then b.rung else 0
     (∀ fw, s.mbxOk req ch fw = true →
       (∃ t, exec (.mbxDbin req ch fw bits) s = .next t ∧ t.mt.resp = 0 ∧ t.mt.rdata = 0
         ∧ (t.channel ch).fwOut = (if fw then (s.channel ch).fwOut else (s.channel ch).fwOut.ring bits s.now)
         ∧ (t.channel ch).hostOut = (if fw then (s.channel ch).hostOut.ring bits s.now else (s.channel ch).hostOut)
         ∧ s.otherChannels t ch ∧ s.only t [.mt, .mdu, .mesh])
       ∧ (∃ t, exec (.mbxDboutClear req ch fw bits) s = .next t ∧ t.mt.resp = 0
         ∧ (t.channel ch).fwOut.bits = (if fw then (s.channel ch).fwOut.bits &&& ~~~(bits &&& ~~~fresh (s.channel ch).fwOut)
             else (s.channel ch).fwOut.bits)
         ∧ (t.channel ch).hostOut.bits = (if fw then (s.channel ch).hostOut.bits
             else (s.channel ch).hostOut.bits &&& ~~~(bits &&& ~~~fresh (s.channel ch).hostOut))
         ∧ s.otherChannels t ch ∧ s.only t [.mt, .mdu, .mesh])
       ∧ (∃ t, exec (.mbxDbmaskWrite req ch fw bits) s = .next t ∧ t.mt.resp = 0
         ∧ (t.channel ch).fwMask = (if fw then bits else (s.channel ch).fwMask)
         ∧ (t.channel ch).hostMask = (if fw then (s.channel ch).hostMask else bits)
         ∧ (t.channel ch).hostOut = (s.channel ch).hostOut ∧ (t.channel ch).fwOut = (s.channel ch).fwOut
         ∧ s.otherChannels t ch ∧ s.only t [.mt, .mdu, .mesh]))
     ∧ (ch.val < 2 → bits &&& ~~~(s.channel ch).hostOut.bits ≠ 0 →
         ((s.channel ch).hostOut.bits ||| bits) &&& ~~~(s.channel ch).hostMask ≠ 0 → bit (s.channel ch).notval 32 = true →
         (s.channel ch).underway = false → (s.channel ch).given = false →
         ∃ t, exec (.mbxDbin req ch true bits) s = .next t ∧ (t.channel ch).given = true
           ∧ (t.channel ch).underway = true
           ∧ s.asks t (.mbxNotify ch) 0 true ((s.channel ch).notaddr.toNat % 2 ^ 56) 4
               [pack [(0, 32, fld (s.channel ch).notval 0 32)]]))
  ∧ ((∀ (s : State) (req : Req) (ch : Fin 2) (fw : Bool) (tag : BitVec 16), s.ftt.fatal = false →
     s.mbxOk req ch fw = true →
     let l := s.lock ch
     let other (t : State) : Prop := (∀ d, d ≠ ch.val → t.lock d = s.lock d) ∧ t.mdu.chans = s.mdu.chans
       ∧ s.only t [.mt, .mdu]
     let mine := l.held && l.tag == tag && l.side == fw && l.fn == (if fw then 0 else req.fn.val)
       && l.sec == (fw || req.sec)
     (l.held = false ∨ (fw = true ∧ l.side = false ∧ l.at' = s.now) → tag ≠ 0 → ∃ t, exec (.mbxLockClaim req ch fw tag) s = .next t ∧ (t.lock ch).held = true
       ∧ (t.lock ch).tag = tag ∧ (t.lock ch).side = fw ∧ (t.lock ch).fn = (if fw then 0 else req.fn.val)
       ∧ (t.lock ch).sec = (fw || req.sec) ∧ (t.lock ch).at' = s.now ∧ (t.lock ch).broken = l.broken ∧ other t)
     ∧ ((l.held = true ∧ ¬(fw = true ∧ l.side = false ∧ l.at' = s.now)) ∨ tag = 0 →
         ∃ t, exec (.mbxLockClaim req ch fw tag) s = .next t ∧ t.lock ch = l ∧ other t)
     ∧ (mine = true → ∃ t, exec (.mbxLockRelease req ch fw tag) s = .next t ∧ (t.lock ch).held = false
         ∧ (t.lock ch).tag = 0 ∧ other t)
     ∧ (mine = false → ∃ t, exec (.mbxLockRelease req ch fw tag) s = .next t ∧ t.lock ch = l ∧ other t))
   ∧ (∀ (s : State) (ch : Fin 2), s.alive = true → (s.lock ch).held = true → (s.lock ch).at' + 2 ^ 24 ≤ s.now →
     ∃ t, exec (.mbxLockBroken ch) s = .next t ∧ (t.lock ch).held = false ∧ (t.lock ch).tag = 0
       ∧ (t.lock ch).broken = some s.now ∧ (∀ d, d ≠ ch.val → t.lock d = s.lock d)
       ∧ t.ftt.log = s.ftt.log.offer 1024 63 { code := 0x813, arg := BitVec.ofNat 64 ch.val }
           [s.recordOf { code := 0x813, arg := BitVec.ofNat 64 ch.val }] s.dlyNow s.now false
       ∧ s.only t reporting))
  ∧ (∀ (s : State) (req : Req) (ch : Fin 258) (fw : Bool), s.ftt.fatal = false → s.mbxOk req ch fw = true →
     let tx := (s.channel ch).tx fw
     let rx := (s.channel ch).rx fw
     let rest (t : State) : Prop := s.otherChannels t ch ∧ s.only t [.mt, .mdu]
     let late : Prop := ∃ p, tx.kept = some (s.now, p)
     (∀ w n, ¬late → tx.opened = none → tx.discard = 0 → fld w 0 4 = n →
       (16 < tx.used + n + 1 → ∃ t, exec (.mbxTx req ch fw w) s = .next t
         ∧ (t.channel ch).tx fw = { tx with kept := none, ovr := some s.now, discard := n } ∧ (t.channel ch).rx fw = rx ∧ rest t)
       ∧ (tx.used + n + 1 ≤ 16 → n ≠ 0 → ∃ t, exec (.mbxTx req ch fw w) s = .next t
         ∧ (t.channel ch).tx fw = { tx with kept := none, part := [w], opened := some n } ∧ (t.channel ch).rx fw = rx ∧ rest t)
       ∧ (tx.used + n + 1 ≤ 16 → n = 0 → ∃ t, exec (.mbxTx req ch fw w) s = .next t
         ∧ (t.channel ch).tx fw = { tx with kept := none, coming := tx.coming ++ [[w]], part := [] }
         ∧ (t.channel ch).rx fw = rx ∧ rest t))
     ∧ (∀ w d, ¬late → tx.opened = none → tx.discard = d + 1 → ∃ t, exec (.mbxTx req ch fw w) s = .next t
         ∧ (t.channel ch).tx fw = { tx with kept := none, discard := d } ∧ (t.channel ch).rx fw = rx ∧ rest t)
     ∧ (∀ w, ¬late → tx.opened = some 1 → ∃ t, exec (.mbxTx req ch fw w) s = .next t
         ∧ (t.channel ch).tx fw = { tx with kept := none, coming := tx.coming ++ [tx.part ++ [w]], opened := none, part := [] }
         ∧ (t.channel ch).rx fw = rx ∧ rest t)
     ∧ (∀ w p, tx.kept = some (s.now, p) → ∃ t, exec (.mbxTx req ch fw w) s = .next t
         ∧ (t.channel ch).tx fw = { tx with kept := none, coming := tx.coming ++ [p ++ [w]], opened := none, part := [] }
         ∧ (t.channel ch).rx fw = rx ∧ rest t)
     ∧ (∀ w n, ¬late → tx.opened = some (n + 2) → ∃ t, exec (.mbxTx req ch fw w) s = .next t
         ∧ (t.channel ch).tx fw = { tx with kept := none, part := tx.part ++ [w], opened := some (n + 1) }
         ∧ (t.channel ch).rx fw = rx ∧ rest t)
     ∧ (∀ x r, rx.words = x :: r → ∃ t, exec (.mbxRx req ch fw) s = .next t ∧ t.mt.resp = 0 ∧ t.mt.rdata = x
         ∧ ((t.channel ch).rx fw).words = r ∧ ((t.channel ch).rx fw).und = rx.und ∧ (t.channel ch).tx fw = tx ∧ rest t)
     ∧ (rx.words = [] → ∃ t, exec (.mbxRx req ch fw) s = .next t ∧ t.mt.resp = 0 ∧ t.mt.rdata = 0
         ∧ (t.channel ch).rx fw = { rx with und := some s.now } ∧ (t.channel ch).tx fw = tx ∧ rest t)
     ∧ (∃ t, exec (.txflush req ch fw) s = .next t
         ∧ (t.channel ch).tx fw = { tx with opened := none, part := [], discard := 0, kept := if tx.opened = some 1 then some (s.now, tx.part) else none } ∧ (t.channel ch).rx fw = rx ∧ rest t)
     ∧ (∃ t, exec (.rxflush req ch fw) s = .next t
         ∧ (t.channel ch).rx fw = { rx with words := [], pkts := [] } ∧ (t.channel ch).tx fw = tx ∧ rest t))

/-- R401 to R406, R415: a report is queued behind the records of its function, among those of its sc in ascending code, while there is
room and no record of its code was queued in the last 1,024 sc; else it is counted, in OVERFLOW when the queue is full, in SUPPRESSED when not. In any case
FAULTED is set and the function's channel rings bit 31; a code that is not copied leaves the error log as it was. FN_RESET
(R402) is apart. R404, R407: POP removes the oldest record; a read of the status register answers the record count,
OVERFLOW and SUPPRESSED as they were before this sc, and clears them but for what this sc counts (R18); a glean slot that
is taken is copied as it was before this sc and freed, and the reports of this sc are counted after the copy. The same of
the error log. The model's own choices in it: log 110. -/
def Obligations.FaultReportsAreKeptAndRead : Prop :=
  (∀ (s : State) (n : Nat) (r : Report), r.code ≠ 0x30A →
     let q := s.faultQ n
     let t := s.report n r
     (q.recs.length < 64 → q.quiet r.code s.now = true → q.freshAt ≠ s.now →
       (t.faultQ n).recs = q.recs ++ [s.recordOf { r with fn := some n }] ∧ (t.faultQ n).overflow = q.overflow
         ∧ (t.faultQ n).suppressed = q.suppressed)
     ∧ (q.recs.length < 64 → q.quiet r.code s.now = true → q.freshAt = s.now → ∃ a b,
       q.recs = a ++ b ∧ b.length ≤ q.fresh ∧ (t.faultQ n).recs = a ++ [s.recordOf { r with fn := some n }] ++ b
         ∧ (∀ x y, b = x :: y → r.code < fld (x.truncate 64) 0 16)
         ∧ (∀ x ∈ a.drop (q.recs.length - q.fresh), fld (x.truncate 64) 0 16 ≤ r.code)
         ∧ (t.faultQ n).overflow = q.overflow ∧ (t.faultQ n).suppressed = q.suppressed)
     ∧ (64 ≤ q.recs.length → (t.faultQ n).recs = q.recs ∧ (t.faultQ n).overflow = q.overflow.add (satAdd 24) 1 s.now
         ∧ (t.faultQ n).suppressed = q.suppressed)
     ∧ (q.recs.length < 64 → q.quiet r.code s.now = false → (t.faultQ n).recs = q.recs
         ∧ (t.faultQ n).overflow = q.overflow ∧ (t.faultQ n).suppressed = q.suppressed.add (satAdd 24) 1 s.now)
     ∧ (t.ftt.fnstat.look ⟨none, 0⟩ n).faulted = some s.now ∧ bit (t.channel (2 + n)).hostOut.bits 31 = true
     ∧ (copied r.code = false → t.ftt.log = s.ftt.log) ∧ (∀ m, m ≠ n → t.faultQ m = s.faultQ m)
     ∧ s.only t reporting)
  ∧ (∀ (s : State) (req : Req),
     (∀ (page : Fin 256), s.pageOk req page = true →
       let q := s.faultQ page
       let rest (t : State) : Prop := t.mt.resp = 0 ∧ t.ftt.log = s.ftt.log ∧ (∀ m, m ≠ page.val → t.faultQ m = s.faultQ m)
         ∧ s.only t [.mt, .ftt]
       (s.ftt.fatal = false → ∃ t, exec (.fttFqstatPop req page) s = .next t ∧ t.faultQ page = { q with recs := q.recs.tail }
         ∧ rest t)
       ∧ (∃ t, exec (.fttFqstatRead req page) s = .next t
         ∧ t.mt.rdata = pack [(0, 7, q.recs.length), (8, 24, q.overflow.seen (satAdd 24) s.now),
             (32, 24, q.suppressed.seen (satAdd 24) s.now)]
         ∧ t.faultQ page = { q with overflow := q.overflow.read s.now, suppressed := q.suppressed.read s.now } ∧ rest t)
       ∧ (∀ (slot : Fin 32), s.ftt.fatal = false → ∃ t, exec (.fttGltake req page slot) s = .next t
         ∧ (t.faultQ page).taken = Glean.encode ((q.gleanAt s.now).look? slot)
         ∧ (t.faultQ page).glean = (q.countedIn s.now).foldl (gleanIn 31) ((q.gleanAt s.now).del slot)
         ∧ (q.countedAt ≠ s.now → (t.faultQ page).glean.look? slot = none
           ∧ ∀ j, j ≠ slot.val → (t.faultQ page).glean.look? j = q.glean.look? j) ∧ (t.faultQ page).recs = q.recs ∧ rest t))
     ∧ (s.globalOk req = true →
       let q := s.ftt.log
       let rest (t : State) : Prop := t.mt.resp = 0 ∧ (∀ m, t.faultQ m = s.faultQ m) ∧ s.only t [.mt, .ftt]
       (s.ftt.fatal = false → ∃ t, exec (.fttElstatPop req) s = .next t ∧ t.ftt.log = { q with recs := q.recs.tail } ∧ rest t)
       ∧ (∃ t, exec (.fttElstatRead req) s = .next t
         ∧ t.mt.rdata = pack [(0, 11, q.recs.length), (12, 24, q.overflow.seen (satAdd 24) s.now),
             (36, 24, q.suppressed.seen (satAdd 24) s.now)]
         ∧ t.ftt.log = { q with overflow := q.overflow.read s.now, suppressed := q.suppressed.read s.now } ∧ rest t)
       ∧ (∀ (slot : Fin 64), s.ftt.fatal = false → ∃ t, exec (.fttElgltake req slot) s = .next t
         ∧ t.ftt.log.taken = Glean.encode ((q.gleanAt s.now).look? slot)
         ∧ t.ftt.log.glean = (q.countedIn s.now).foldl (gleanIn 63) ((q.gleanAt s.now).del slot)
         ∧ (q.countedAt ≠ s.now → t.ftt.log.glean.look? slot = none
           ∧ ∀ j, j ≠ slot.val → t.ftt.log.glean.look? j = q.glean.look? j) ∧ t.ftt.log.recs = q.recs ∧ rest t)))

/-- R411, R412, R413, R419, R436, R444: what a storage error costs. In the ready-list links, core 0's SRAM, the field map, the
drill's tables or the control logic it is FATAL, shown in FTT_FATALINFO and rung on channels 0 and 1; in a sheaf entry it
poisons it; in the harvest's shadows and counters and the trace buffer the value is lost and marked; a corrected error
outside the graph store is logged; the scrubber's finds are handled as any other. R418, R421, R428: a bank that reports a
corrected error while it serves is copied into the lowest free spare; 8,192 sc later the spare serves its logical bank and
the original is under test; the test makes it a free spare, or retires it and adds it to the repair record. An abandoned
commit is tried again at a tick edge once its second has passed, behind the operations that wait. The model's own choices in it: log 39, 52, 83, 99, 105. -/
def Obligations.StorageErrorsAndBankTests : Prop :=
  (∀ (s : State) (word : BitVec 32), s.alive = true →
     (∀ site, site ∈ [EccSite.listLinks, .core0, .fieldMap, .drillTables, .controlParity] →
       ∃ t, exec (.eccUncorrectable site word) s = .next t ∧ t.ftt.fatal = true
         ∧ t.ftt.fatalInfo = pack [(0, 8, memOf site), (8, 32, word.toNat), (40, 1, 1)]
         ∧ bit (t.channel 0).hostOut.bits 30 = true ∧ bit (t.channel 1).hostOut.bits 30 = true)
     ∧ (∀ (e : Fin 4096), ∃ t, exec (.eccUncorrectable (.sheaf e) word) s = .next t
         ∧ t.shf.ents.look ShfEntry.reset e = { s.shf.ents.look ShfEntry.reset e with poison := true }
         ∧ (∀ f, f ≠ e.val → t.shf.ents.look ShfEntry.reset f = s.shf.ents.look ShfEntry.reset f))
     ∧ (∀ (i : Fin 10240), ∃ t, exec (.eccUncorrectable (.harvestCounter i) word) s = .next t
         ∧ t.hv.live.look 0 i = 0 ∧ t.hv.damageNext = true)
     ∧ (∀ (i : Fin 10240), ∃ t, exec (.eccUncorrectable (.harvestShadow i) word) s = .next t
         ∧ t.hv.shadow.look 0 i = 0xFFFFFFFFFFFFFFFF ∧ t.hv.damaged = true)
     ∧ (∃ t, exec (.eccUncorrectable .traceBuffer word) s = .next t ∧ t.tr.dropped = s.tr.dropped.add (satAdd 32) 1 s.now)
     ∧ (∀ (m : Fin 262144), (∀ w ∈ s.sm.waiters, w.sem ≠ m.val) →
         ∃ t, exec (.eccUncorrectable (.semaphore m) word) s = .next t ∧ t.semVal m = 0
           ∧ (∀ j, j ≠ m.val → t.semVal j = s.semVal j) ∧ t.sm.waiters = s.sm.waiters)
     ∧ (∀ mem : BitVec 8, 0x41 < mem.toNat → exec (.ce mem word) s
         = .next (s.errlog { code := 0x815, arg := storageArg mem.toNat word 0 }))
     ∧ exec (.patrolScrub none none) s = .next s
     ∧ (∀ site, exec (.patrolScrub (some (site, word)) none) s = exec (.eccUncorrectable (unread site) word) s)
     ∧ (∀ mem, exec (.patrolScrub none (some (mem, word))) s = exec (.ce mem word) s))
  ∧ ((∀ (s : State) (b : Fin 66) (x : Nat) (mem : BitVec 8) (word : BitVec 32), s.alive = true → mem.toNat = b.val →
     (s.bankOf b).st = 0 → (s.bankOf b).copyTo = none → s.freeBank? = some x → x ≠ b.val →
     ∃ t, exec (.ce mem word) s = .next t ∧ (t.bankOf b).copyTo = some x ∧ (t.bankOf b).ces = satAdd 8 (s.bankOf b).ces 1
       ∧ (t.bankOf b).st = 0 ∧ (∀ c, c ≠ b.val → t.bankOf c = s.bankOf c) ∧ s.only t [.ftt, .hv, .mdu, .mesh])
   ∧ (∀ (s : State) (b : Fin 66) (x : Nat), s.alive = true → (s.bankOf b).copyTo = some x → x ≠ b.val →
     (s.bankOf b).st = 0 → (s.bankOf b).at' + 8192 ≤ s.now →
     ∃ t, exec (.gsBankCopyDone b) s = .next t ∧ (t.bankOf x).st = 0 ∧ (t.bankOf x).logical = (s.bankOf b).logical
       ∧ (t.bankOf x).logv = true ∧ (t.bankOf b).st = 3 ∧ (t.bankOf b).logv = false ∧ (t.bankOf b).copyTo = none
       ∧ (∀ c, c ≠ b.val → c ≠ x → t.bankOf c = s.bankOf c) ∧ s.only t [.ftt])
   ∧ (∀ (s : State) (b : Fin 66), s.alive = true → (s.bankOf b).st = 3 →
     (∃ t, exec (.gsBankTestDone b true) s = .next t ∧ (t.bankOf b).st = 1 ∧ t.ftt.entries = s.ftt.entries
       ∧ (∀ c, c ≠ b.val → t.bankOf c = s.bankOf c) ∧ s.only t [.ftt, .hv, .mdu, .mesh])
     ∧ (∃ t, exec (.gsBankTestDone b false) s = .next t ∧ (t.bankOf b).st = 2
       ∧ t.ftt.entries = s.ftt.entries ++ [⟨2, b, 0x1FF, 0⟩] ∧ t.ftt.unsaved = true
       ∧ (∀ c, c ≠ b.val → t.bankOf c = s.bankOf c)))
   ∧ (∀ (s : State) (a : Nat) (j : NvJob), s.alive = true → s.ftt.retryAt = some a → a ≤ s.tcs.start → s.nv.job = some j →
     ∃ t, exec .repairCommitRetry s = .next t ∧ t.nv = { s.nv with next := s.nv.next ++ [.commit 0] } ∧ t.ftt.retryAt = none
       ∧ t.ftt.entries = s.ftt.entries ∧ s.only t [.ftt, .nv])
   ∧ (∀ (s : State) (a : Nat), s.alive = true → s.ftt.retryAt = some a → a ≤ s.tcs.start → s.nv.job = none →
     s.nv.next = [] → s.nv.gone = false → ∃ t, exec .repairCommitRetry s = .next t
       ∧ t.nv.job = some (.commit s.commitOps.1) ∧ t.nv.ops = s.commitOps.2 ∧ t.nv.next = [] ∧ t.nv.issued = some s.now
       ∧ t.ftt.retryAt = none ∧ t.ftt.entries = s.ftt.entries ∧ s.only t [.ftt, .nv]))

/-- R23, R59, R306, R307, R445, R446: markers that pass align the block, begin tick 0 in the sc after, give the reset answers
that waited for it, and have the repair records read; a pulse without them only starts the bound of 8,192 sc, at which
start-up stops with code 1. With the records read (no operation of the store under way), a fuse word that fails, a record that breaks its
rules, a BIST failure beyond the spares stop it with codes 2, 3, 4; else steps 2 and 3 pass, and no bank that a record or the test
names serves. A block that start-up stopped takes no step. The model's own choices in it: log 93, 94. -/
def Obligations.StartUpTestsTheHardware : Prop :=
  (∀ s : State, s.alive = false → ∀ c : Instr, (∃ b, c = .alignmentPulse b) ∨ (∃ x, c = .alignTimeout x)
      ∨ (∃ f, c = .startupFuseRead f) ∨ (∃ b r, c = .startupBist b r) ∨ c = .startupStepTimeout → exec c s = .next s)
  ∧ (∀ s : State, s.alive = true → s.su.step = 1 → s.su.alignDone = false →
    (∃ t, exec (.alignmentPulse true) s = .next t ∧ t.su.alignDone = true ∧ t.su.pulseAt = some s.now ∧ t.tcs.start = s.now + 1)
    ∧ (s.mesh.waiting = [] → s.nv.job = none → s.nv.next = [] → s.nv.gone = false →
      ∃ t, exec (.alignmentPulse true) s = .next t ∧ t.su.step = 2 ∧ t.su.alignDone = true ∧ t.su.pulseAt = some s.now
      ∧ bit t.su.passed 0 = true ∧ t.tcs.start = s.now + 1 ∧ t.nv.job = some .records ∧ t.nv.ops = s.areaReads areaA ++ s.areaReads areaB
      ∧ t.nv.words = s.nv.words ∧ t.pins.flrHeld = [] ∧ (s.pins.flrHeld = [] → t.pins = s.pins)
      ∧ s.only t [.su, .tcs, .pins, .nv])
    ∧ (∃ t, exec (.alignmentPulse false) s = .next t ∧ t.su = { s.su with pulseAt := some s.now } ∧ s.only t [.su])
    ∧ (∀ p (c : BitVec 32), s.su.pulseAt = some p → p + 8192 ≤ s.now → ∃ t, exec (.alignTimeout c) s = .next t
      ∧ t.su.failed = true ∧ t.su.code = 1 ∧ t.su.detail = c.zeroExtend 64 ∧ t.alive = false ∧ s.only t [.su, .pins]))
  ∧ (∀ s : State, s.alive = true → s.su.step = 2 → s.nv.job = none →
    (∀ a : BitVec 15, ∃ t, exec (.startupFuseRead (some a)) s = .next t ∧ t.su.failed = true ∧ t.su.code = 2
      ∧ t.su.detail = a.zeroExtend 64 ∧ s.only t [.su, .pins])
    ∧ (∃ t, exec (.startupFuseRead none) s = .next t ∧ (match factoryBad with
        | some a => t.su.failed = true ∧ t.su.code = 3 ∧ t.su.detail = BitVec.ofNat 64 a
        | none => t.su.step = 3 ∧ bit t.su.passed 1 = true ∧ (∀ r ∈ factoryEntries, r ∈ t.ftt.entries)
            ∧ s.only t [.su, .eng, .ftt]))
    ∧ (s.su.stepAt + 400000 ≤ s.now → ∃ t, exec .startupStepTimeout s = .next t ∧ t.su.failed = true ∧ t.su.code = 2))
  ∧ (∀ (s : State) (bad : List (Fin 66)) (rows : List BistRow), s.alive = true → s.su.step = 3 →
    let gone (b : Nat) : Bool := (s.ftt.entries.any fun r => r.kind == 2 && r.unit == b) || bad.any fun x => x.val == b
    ((∀ r ∈ rows, r.replaceable = true) → (bankIds.filter gone).length ≤ 2 →
      ∃ t, exec (.startupBist bad rows) s = .next t ∧ t.su.step = 4 ∧ bit t.su.passed 2 = true
        ∧ (∀ b, b < 66 → gone b = true → (t.bankOf b).st = 2) ∧ (∀ b, b < 66 → gone b = false → (t.bankOf b).st ≠ 2)
        ∧ (∀ l, l < 64 → ∃ b, b < 66 ∧ gone b = false ∧ (t.bankOf b).st = 0 ∧ (t.bankOf b).logical = l)
        ∧ s.only t [.su, .ftt])
    ∧ (∀ r rest, rows = r :: rest → r.replaceable = false → ∃ t, exec (.startupBist bad rows) s = .next t
        ∧ t.su.failed = true ∧ t.su.code = 4 ∧ t.su.detail = BitVec.ofNat 64 (r.mem.toNat + r.word.toNat * 256)
        ∧ s.only t [.su, .pins])
    ∧ ((∀ r ∈ rows, r.replaceable = true) → 2 < (bankIds.filter gone).length → ∃ t, exec (.startupBist bad rows) s = .next t
        ∧ t.su.failed = true ∧ t.su.code = 4)
    ∧ (s.su.stepAt + 16000000 ≤ s.now → ∃ t, exec .startupStepTimeout s = .next t ∧ t.su.failed = true ∧ t.su.code = 4))

/-- R445, R451 to R454: the secure requester's sources of firmware and map are taken until their steps have begun, and in
them while no source is given. The firmware image is read through the mesh, its header first: a read that fails or a bad
header stops start-up; after a good one its CODE is read, and header and CODE are hashed. The reply 0 passes step 4, another
stops it. Step 5 recalls the saved map, and loads the image at SU_FMSRC where that was refused or the store is unavailable:
the SWAP of a map that passes its checks is pending, one that was loaded and fails them stops start-up with FM_ERR. The
model's own choices in it: log 28, 76, 94. -/
def Obligations.FirmwareAndMapAreTaken : Prop :=
  (∀ (s : State) (req : Req) (v : W64), s.secureOk req = true → s.ftt.fatal = false →
    ((s.su.released = false → 1 ≤ s.su.step → s.su.step < 4 → ∃ t, exec (.suFwsrcWrite req v) s = .next t
        ∧ t.su = { s.su with fwsrc := pack [(0, 1, fld v 0 1), (6, 50, fld v 6 50)] } ∧ t.mt.resp = 0
        ∧ s.only t [.su, .mt])
      ∧ (s.su.released = false → 1 ≤ s.su.step → s.su.step < 5 → ∃ t, exec (.suFmsrcWrite req v) s = .next t
        ∧ t.su = { s.su with fmsrc := pack [(0, 1, fld v 0 1), (6, 50, fld v 6 50)] } ∧ t.mt.resp = 0
        ∧ s.only t [.su, .mt])
      ∧ (s.su.released = false → s.su.step = 4 → bit s.su.fwsrc 0 = false → ∃ t, exec (.suFwsrcWrite req v) s = .next t
        ∧ t.su = { s.su with fwsrc := pack [(0, 1, fld v 0 1), (6, 50, fld v 6 50)]
                             stepAt := if bit v 0 then s.now else s.su.stepAt }
        ∧ t.mt.resp = 0 ∧ s.only t [.su, .mt])
      ∧ (s.su.released = false → s.su.step = 5 → bit s.su.fmsrc 0 = false → s.fm.swap = none →
        ∃ t, exec (.suFmsrcWrite req v) s = .next t
        ∧ t.su = { s.su with fmsrc := pack [(0, 1, fld v 0 1), (6, 50, fld v 6 50)] } ∧ t.mt.resp = 0
        ∧ s.only t [.su, .mt])
      ∧ (s.su.released = false → (s.su.step = 4 ∧ bit s.su.fwsrc 0 = true ∨ 5 ≤ s.su.step) →
        ∃ t, exec (.suFwsrcWrite req v) s = .next t ∧ t.mt.resp = 0 ∧ s.only t [.mt])
      ∧ (s.su.released = false → (s.su.step = 5 ∧ (bit s.su.fmsrc 0 = true ∨ s.fm.swap ≠ none) ∨ 6 ≤ s.su.step) →
        ∃ t, exec (.suFmsrcWrite req v) s = .next t ∧ t.mt.resp = 0 ∧ s.only t [.mt])
      ∧ (s.su.released = true → (∃ t, exec (.suFwsrcWrite req v) s = .next t ∧ t.mt.resp = 0 ∧ s.only t [.mt])
        ∧ (∃ t, exec (.suFmsrcWrite req v) s = .next t ∧ t.mt.resp = 0 ∧ s.only t [.mt]))))
  ∧ (∀ s : State, s.alive = true → s.su.step = 4 → bit s.su.fwsrc 0 = true → s.su.fwBegun = false →
    ∃ t, exec (.firmwareBoot false) s = .next t ∧ t.su = { s.su with fwBegun := true }
      ∧ s.asks t (.firmware false) 0 false (fld s.su.fwsrc 6 50 * 64) 64 [] ∧ s.only t [.su, .mesh])
  ∧ (∀ s : State, s.alive = true → s.su.step = 4 → s.su.fwHeader ≠ [] → s.su.fwCopying = false →
    ∃ t, exec (.firmwareBoot true) s = .next t ∧ t.su = { s.su with fwCopying := true }
      ∧ s.asks t (.firmware true) 0 false (fld s.su.fwsrc 6 50 * 64 + 64) (fld (s.su.fwHeader.at 1) 0 32) []
      ∧ s.only t [.su, .mesh])
  ∧ (∀ (s : State) (id : Fin 512) (x : Xfer) (ws : Words), s.alive = true → s.mesh.waiting = [] → s.xfer? id = some x →
    x.retryAt = none → x.last = true → x.fits ws = true →
    let h := x.got ++ ws
    (∀ code r, x.purpose = .firmware code → (r = .tgtErr ∨ r = .decode) → ∃ t, exec (.meshResponse id r ws) s = .next t
      ∧ t.su.failed = true ∧ t.su.code = 5 ∧ t.su.detail = BitVec.ofNat 64 (x.pos + if code then 64 else 0)
      ∧ t.mesh = (s.dropXfer x).mesh ∧ s.only t [.su, .mesh, .pins])
    ∧ (∀ o, x.purpose = .firmware false → fwHeaderBad h = some o → ∃ t, exec (.meshResponse id .ok ws) s = .next t
      ∧ t.su.failed = true ∧ t.su.code = 6 ∧ t.su.detail = BitVec.ofNat 64 o ∧ t.mesh = (s.dropXfer x).mesh
      ∧ s.only t [.su, .mesh, .pins])
    ∧ (x.purpose = .firmware false → fwHeaderBad h = none → ∃ t, exec (.meshResponse id .ok ws) s = .next t
      ∧ t.su = { s.su with fwHeader := h } ∧ t.mesh = (s.dropXfer x).mesh ∧ s.only t [.su, .mesh])
    ∧ (x.purpose = .firmware true → ∃ t, exec (.meshResponse id .ok ws) s = .next t
      ∧ t.su = { s.su with fwCode := h, fwDigest := sha384 (s.su.fwHeader ++ h), fwSent := true }
      ∧ (∀ d, d ≠ 0 → t.channel d = s.channel d) ∧ t.mesh = (s.dropXfer x).mesh ∧ s.only t [.su, .mdu, .mesh]))
  ∧ (∀ (s : State) (len : Fin 16) (w : W64), s.alive = true → s.su.step = 4 → s.su.fwSent = true →
    (len.val ≠ 1 → exec (.firmwareReply len w) s = .next s)
    ∧ (len.val = 1 → w = 0 → ∃ t, exec (.firmwareReply len w) s = .next t ∧ t.su.step = 5 ∧ bit t.su.passed 3 = true
      ∧ s.only t [.su])
    ∧ (len.val = 1 → w ≠ 0 → ∃ t, exec (.firmwareReply len w) s = .next t ∧ t.su.failed = true ∧ t.su.code = 7
      ∧ t.su.detail = w ∧ s.only t [.su, .pins]))
  ∧ (∀ s : State, s.alive = true → s.su.step = 5 → s.fm.swap = none → s.fm.state = .idle →
    let begun (st : FmState) (b : MapTry) : FieldMaps := { s.fm with
      busyAt := s.now, boot := b, state := st, shvalid := false, image := none, failed := false, head := [] }
    (s.fm.boot = .none → s.nv.gone = false → exec (.startupFieldMap true) s = .next s
      ∧ (s.nv.job = none → s.nv.next = [] → ∃ t, exec (.startupFieldMap false) s = .next t ∧ t.fm = begun .recalling .recalling
        ∧ t.nv.job = some .recall ∧ t.nv.ops = s.recallReads ∧ t.nv.issued = some s.now ∧ s.only t [.fm, .nv])
      ∧ (∀ j, s.nv.job = some j → ∃ t, exec (.startupFieldMap false) s = .next t ∧ t.fm = begun .recalling .recalling
        ∧ t.nv = { s.nv with next := s.nv.next ++ [.recall] } ∧ s.only t [.fm, .nv]))
    ∧ (s.fm.boot ≠ .none ∨ s.nv.gone = true → exec (.startupFieldMap false) s = .next s
      ∧ (bit s.su.fmsrc 0 = true → ∃ t, exec (.startupFieldMap true) s = .next t ∧ t.fm = begun .loading .loading
        ∧ s.asks t (.mapImage true) 0 false (fld s.su.fmsrc 6 50 * 64) 64 [] ∧ s.only t [.fm, .mesh])
      ∧ (bit s.su.fmsrc 0 = false → exec (.startupFieldMap true) s = .next s)))
  ∧ (∀ (s : State) (ws : Words), s.alive = true → (s.fm.state = .loading ∨ s.fm.state = .recalling) → s.fm.failed = false →
    s.fm.image = some ws → (s.fm.boot = .loading ∨ s.fm.boot = .recalling) →
    let e := (s.checkImage ws).2
    ∃ t, exec .fmLoadDone s = .next t ∧ t.fm.shadow = (s.checkImage ws).1 ∧ t.fm.shvalid = (e.1 == 0)
      ∧ t.fm.active = s.fm.active ∧ t.fm.erridx = BitVec.ofNat 13 e.2 ∧ t.fm.err = BitVec.ofNat 5 e.1
      ∧ (e.1 = 0 → t.fm.state = .swapPending ∧ t.fm.swap = some (s.now, none) ∧ t.su = s.su)
      ∧ (e.1 ≠ 0 → s.fm.boot = .recalling → t.fm.state = .idle ∧ t.fm.boot = .refused ∧ t.su = s.su)
      ∧ (e.1 ≠ 0 → s.fm.boot = .loading → t.su.failed = true ∧ t.su.code = 0x0A
        ∧ t.su.detail = BitVec.ofNat 64 (e.1 + e.2 * 32))
      ∧ s.only t [.fm, .su, .pins, .free, .ccx])
  ∧ (∀ s : State, s.alive = true → s.fm.state = .loading → s.fm.failed = true → s.fm.boot = .loading →
    ∃ t, exec .fmLoadDone s = .next t ∧ t.su.failed = true ∧ t.su.code = 0x0A ∧ t.su.detail = 1
      ∧ t.fm.active = s.fm.active ∧ s.only t [.fm, .su, .pins])

/-- R445 to R449: steps 4 to 8 at their bounds: 4 stops, 6 and 7 are passed over with YOKEDEG, 8 releases with TESTLATE. Step 8
ends when every active engine's test is over: the pins are sampled, every queue is cleared, RELEASED rises. R60, R61: under
tst_lock_i only BYPASS and IDCODE act, BIST and repair in test mode only. R306: another count than 20 is logged. The
model's own choices in it: log 76, 94, 95. -/
def Obligations.ReleaseStartsTheFunctions : Prop :=
  (∀ s : State, s.alive = true →
    (s.su.step = 4 → s.su.stepAt + (if bit s.su.fwsrc 0 then 200000000 else 20000000000) ≤ s.now →
      ∃ t, exec .startupStepTimeout s = .next t ∧ t.su.failed = true ∧ t.su.code = 8 ∧ s.only t [.su, .pins])
    ∧ (s.su.step = 6 → s.su.stepAt + 200000000 ≤ s.now → ∃ t, exec .startupStepTimeout s = .next t
      ∧ t.su.yokedeg = true ∧ 7 ≤ t.su.step ∧ bit t.su.passed 5 = bit s.su.passed 5 ∧ s.only t [.su])
    ∧ (s.su.step = 7 → s.su.stepAt + 8 * s.period ≤ s.now → ∃ t, exec .startupStepTimeout s = .next t
      ∧ t.su.yokedeg = true ∧ t.su.step = 8 ∧ bit t.su.passed 6 = bit s.su.passed 6 ∧ s.only t [.su])
    ∧ (s.su.step = 8 → s.su.stepAt + 8000000 ≤ s.now → ∃ t, exec .startupStepTimeout s = .next t
      ∧ t.su.released = true ∧ t.su.testlate = true ∧ t.su.step = 0 ∧ t.su.detail = BitVec.ofNat 64 s.testing)
    ∧ (∀ nf bme, s.su.step = 8 → s.untested = [] → ∃ t, exec (.startupRelease nf bme) s = .next t
      ∧ t.su.released = true ∧ t.su.testlate = false ∧ t.su.step = 0 ∧ bit t.su.passed 7 = true
      ∧ t.pins.numvf = nf ∧ t.pins.bme = bme ∧ (∀ q, q < 16384 → t.queue q = (s.queue q).cleared)))
  ∧ (∀ (s : State) (op : JtagOp), ∃ t, exec (.jtagInstruction op) s = .next t ∧ s.only t [.pins]
      ∧ t.pins.jtag = (if op = .bypass ∨ op = .idcode ∨ (s.pins.tstLock = false ∧ (op = .status ∨ s.pins.tstMode = true))
          then op else s.pins.jtag))
  ∧ (∀ (s : State) (n : Nat), s.alive = true → exec (.clkRatio n) s
      = .next (if n = 20 then s else s.errlog { code := 0x809, arg := BitVec.ofNat 64 n }))

/-- R455 to R458: a write of SU_LOOP is ignored while an engine of a changed cluster is busy; else it is taken and every engine
of a changed cluster has its incarnation raised once. The responder answers the slot interface of its clusters alone. The
generator checks its operands in order and, when they pass, fills the graph. The model's own choices in it: log 96, 97. -/
def Obligations.BringUpAids : Prop :=
  (∀ (s : State) (req : Req) (v : W64), s.secureOk req = true → s.ftt.fatal = false →
    let changed (c : Nat) : Bool := bit v c != s.looped c
    ((∃ e, e < 512 ∧ changed (e / 16) = true ∧ engineKind? e ≠ none ∧ s.loopBusy e = true) →
      ∃ t, exec (.suLoopWrite req v) s = .next t ∧ t.mt.resp = 0 ∧ s.only t [.mt])
    ∧ ((∀ e, e < 512 → changed (e / 16) = true → engineKind? e ≠ none → s.loopBusy e = false) →
      ∃ t, exec (.suLoopWrite req v) s = .next t ∧ t.su.loop = v
        ∧ (∀ e, e < 512 → engineKind? e ≠ none → (t.engine e).inc
            = if changed (e / 16) then (s.engine e).inc + 1 else (s.engine e).inc)))
  ∧ (∀ (s : State) (eng : Fin 512) (ev : LoopEvent), s.looped (eng / 16) = false →
      exec (.loopbackResponse eng ev) s = .next s)
  ∧ (∀ (s : State) (eng : Fin 512), s.alive = true → s.looped (eng / 16) = true →
    (∀ x a, (s.engine eng).front = .driven x a → (s.engine eng).back.st = .empty → a + 3 ≤ s.now → x.test = false →
      s.ftt.resets.look? (x.sow / 2 ^ 32) = none → ∃ t, exec (.loopbackResponse eng .descriptorAck) s = .next t
        ∧ (t.engine eng).front = .running x s.now
        ∧ (t.engine eng).started = (s.engine eng).started ++ [((s.engine eng).nextSeq, x)]
        ∧ t.su.loopStarts.look 0 (eng / 16) = s.su.loopStarts.look 0 (eng / 16) + 1)
    ∧ ((s.engine eng).token = some 2 → (s.engine eng).tokenAt + 2 ≤ s.now → (s.engine eng).wait = none →
      ∃ t, exec (.loopbackResponse eng .token) s = .next t ∧ (t.engine eng).inc = (s.engine eng).inc + 1
        ∧ (t.engine eng).token = none ∧ s.otherEngines t eng ∧ s.only t [.eng, .pru]))
  ∧ (∀ (s : State) (req : Req), s.globalOk req = true → s.ftt.fatal = false →
    (s.su.genbusy = false → ∃ t, exec (.suGenctlGo req) s = .next t ∧ t.su.genres = BitVec.ofNat 3 (s.genCheck s.su.gencfg)
      ∧ t.su.genbusy = decide (s.genCheck s.su.gencfg = 0) ∧ t.su.genAt = s.now ∧ s.only t [.su, .mt])
    ∧ (s.su.genbusy = true → ∃ t, exec (.suGenctlGo req) s = .next t ∧ s.only t [.mt]))
  ∧ (∀ (s : State) (g : Machine.Graph), s.alive = true → s.su.genbusy = true → s.su.genAt + s.genTime ≤ s.now →
    s.graph? (fld s.su.gencfg 0 16) = some g → g.owner = 0 → g.st = .opened →
    ∃ t, exec .generationDone s = .next t ∧ t.su.genbusy = false
      ∧ t.graph? (fld s.su.gencfg 0 16) = some (g.generated s.su.gencfg s.su.genseed s.su.genentry)
      ∧ (∀ h, h ≠ fld s.su.gencfg 0 16 → t.graph? h = s.graph? h) ∧ s.only t [.su, .gs])

/-- R349, R350, R353: PLOT_PREEMPT and PLOT_RESUME refuse a function that may not command the plot and a plot in the wrong
state. A preemption takes the plot out of RUNNING; with no active engine it is PREEMPTED at once, and every other queue
bound to it is held and its prefetched packets are discarded. Resuming sets it RUNNING and holds no queue. An ESCALATE whose DEADLINE has passed asks its engine for
MID_TASK. R339 to R341, R349, R358, R359: PLOT_LEND and PLOT_RECLAIM refuse a function that may not command the plot, a
plot whose move is under way, and a mask that names no engine to move. One idle engine changes its plot at once, and the
command retires. The model's own choices in it: log 9, 29, 72, 89. -/
def Obligations.PlotsPreemptLendAndReclaim : Prop :=
  ((∀ (s : State) (q : Fin 16384) (k : BitVec 512), s.heads q k → opcode k = 0x40 →
     let p := pf k 0 32 6
     let mine (e : Nat) : Bool := s.active e && s.plotOf e == p
     let c := if pf k 0 38 2 = 1 then 0 else s.saveCheck (engineIds.filter mine) [p]
     (s.mayPlot (fnOfQueue q) p = false → exec (.plotPreempt q) s = .next ((s.serve q).retire q 0x40 0))
     ∧ (s.mayPlot (fnOfQueue q) p = true → (s.plot p).st ≠ .running → exec (.plotPreempt q) s = .next ((s.serve q).retire q 0x41 0))
     ∧ (s.mayPlot (fnOfQueue q) p = true → (s.plot p).st = .running → c ≠ 0 →
         exec (.plotPreempt q) s = .next ((s.serve q).retire q c 0))
     ∧ (s.mayPlot (fnOfQueue q) p = true → (s.plot p).st = .running → c = 0 →
         ∃ t, exec (.plotPreempt q) s = .next t ∧ (t.plot p).st ≠ .running)
     ∧ (s.mayPlot (fnOfQueue q) p = true → (s.plot p).st = .running → c = 0 →
         (∀ e ∈ engineIds, mine e = false) → (s.plot p).move = none → (s.queue q).haltAfter = none →
           ∃ t, exec (.plotPreempt q) s = .next t
           ∧ (t.plot p).st = .preempted ∧ (t.plot p).cmd = none
           ∧ t.queue q = ((s.queue q).advance).settle s.now
           ∧ (∀ r, r ≠ q.val → (s.queue r).st ≠ .disabled → (s.queue r).plot = p → (t.queue r).held = true
             ∧ ((s.queue r).head = .none → (t.queue r).win = []))
           ∧ (∀ r, r ≠ q.val → (s.queue r).plot ≠ p → t.queue r = s.queue r)
           ∧ s.only t (.hcf :: .pru :: reporting)))
   ∧ (∀ (s : State) (q : Fin 16384) (k : BitVec 512), s.heads q k → opcode k = 0x41 →
     let p := pf k 0 32 6
     (s.mayPlot (fnOfQueue q) p = false → exec (.plotResume q) s = .next ((s.serve q).retire q 0x40 0))
     ∧ (s.mayPlot (fnOfQueue q) p = true → (s.plot p).st ≠ .preempted → exec (.plotResume q) s = .next ((s.serve q).retire q 0x41 0))
     ∧ (s.mayPlot (fnOfQueue q) p = true → (s.plot p).st = .preempted → (s.queue q).haltAfter = none → ∃ t, exec (.plotResume q) s = .next t
         ∧ (t.plot p).st = .running ∧ t.queue q = ((s.queue q).advance).settle s.now
         ∧ (∀ r, (s.queue r).plot = p → r ≠ q.val → (t.queue r).held = false)
         ∧ (∀ r, (s.queue r).plot ≠ p → r ≠ q.val → t.queue r = s.queue r)
         ∧ (∀ o, o ≠ p → t.plot o = s.plot o) ∧ s.only t (.hcf :: .pru :: reporting)))
   ∧ (∀ (s : State) (p : Fin 64) (c : PlotCmd) (e op : Nat) (x : Task) (a : Nat), s.alive = true →
     (s.plot p).cmd = some c → c.escal = true → c.at' + c.deadline * 2000 ≤ s.now → c.wait = [e] → s.active e = true →
     (s.engine e).front = .running x a → x.test = false → s.sowing? x.sow ≠ none → (s.engine e).preempt = none →
     (s.engine e).token = some op → ((s.engine e).back.st = .empty ∨ (s.engine e).back.st = .withdrawing) →
     ∃ t, exec (.escalateDeadline p) s = .next t ∧ (t.plot p).cmd = some { c with escal := false }
       ∧ (t.engine e).preempt = some ⟨2, .plot p, none, false, none⟩ ∧ s.otherEngines t e ∧ s.only t [.pru, .eng]))
  ∧ (∀ (s : State) (q : Fin 16384) (k : BitVec 512), s.heads q k →
     let p := pf k 0 32 6
     let lends (e : Nat) : Bool := s.active e && (s.engCfg e).home == p && !(s.engine e).lent && (s.engine e).moving.isNone
       && (s.engCfg e).lendv && inMask k e
     let returns (e : Nat) : Bool := s.active e && (s.engCfg e).home == p && (s.engine e).lent
       && (s.engine e).moving.isNone && inMask k e
     let idle (e : Nat) : Prop := (s.engine e).front = .empty ∧ (s.engine e).back.st = .empty ∧ (s.engine e).token = none
       ∧ (s.engine e).preempt = none ∧ s.savingDir e = false ∧ (∀ o, (s.plot o).cmd = none ∧ (s.plot o).move = none)
     (opcode k = 0x42 →
       (s.mayPlot (fnOfQueue q) p = false → exec (.plotLend q) s = .next ((s.serve q).retire q 0x40 0))
       ∧ (s.mayPlot (fnOfQueue q) p = true → (s.plot p).move ≠ none → exec (.plotLend q) s = .next ((s.serve q).retire q 0x41 0))
       ∧ (s.mayPlot (fnOfQueue q) p = true → (s.plot p).move = none → (∀ e ∈ engineIds, lends e = false) →
           exec (.plotLend q) s = .next ((s.serve q).retire q 0x42 0))
       ∧ (∀ e, s.mayPlot (fnOfQueue q) p = true → engineIds.filter lends = [e] → idle e → (s.queue q).haltAfter = none →
           ∃ t, exec (.plotLend q) s = .next t ∧ (t.engine e).lent = true ∧ t.plotOf e = (s.engCfg e).lend
             ∧ (t.plot p).move = none ∧ s.movedOn t q ∧ s.otherEngines t e ∧ s.only t (.hcf :: .pru :: .eng :: reporting)))
     ∧ (opcode k = 0x43 → pf k 0 38 2 = 1 →
       (s.mayPlot (fnOfQueue q) p = false → exec (.plotReclaim q) s = .next ((s.serve q).retire q 0x40 0))
       ∧ (s.mayPlot (fnOfQueue q) p = true → (s.plot p).move ≠ none → exec (.plotReclaim q) s = .next ((s.serve q).retire q 0x41 0))
       ∧ (s.mayPlot (fnOfQueue q) p = true → (s.plot p).move = none → (∀ e ∈ engineIds, returns e = false) →
           exec (.plotReclaim q) s = .next ((s.serve q).retire q 0x42 0))
       ∧ (∀ e, s.mayPlot (fnOfQueue q) p = true → engineIds.filter returns = [e] → idle e → (s.queue q).haltAfter = none →
           ∃ t, exec (.plotReclaim q) s = .next t ∧ (t.engine e).lent = false ∧ t.plotOf e = p
             ∧ (t.plot p).move = none ∧ s.movedOn t q ∧ s.otherEngines t e ∧ s.only t (.hcf :: .pru :: .eng :: reporting))))

/-- R363, R365, R368 to R370: a segment that is neither VALID nor being withdrawn, fits the address space and keeps the limits
of legacy segments is installed; any other stays as it is. A withdrawal sets WDRAW, raises EPOCH, and owes an acknowledgement to every
holder; SEG_WITHDRAW waits for it, and retires at once for a segment that is not VALID. When nothing is awaited any more
the segment is not VALID but stale, and the commands that waited retire. R364, R366, R367: a fill answers the descriptor's
fields to an engine that runs a task of the function, which then holds the segment; others read 0. The acknowledgement of
its SEG_INVAL notice takes the engine off those awaited; one that does not acknowledge within 2^20 sc leaves service. The
model's own choices in it: log 26, 73. -/
def Obligations.SegmentsInstallAndWithdraw : Prop :=
  ((∀ (s : State) (req : Req) (fn : Fin 256) (g : Fin 16), s.globalOk req = true → s.ftt.fatal = false →
     let x := s.segment fn g
     let fits := (x.base.toNat + x.limit.toNat + 1) * 4096 ≤ 2 ^ 56
     let legal := x.leg = true → x.limit.toNat ≤ 1048575 ∧ s.legacyCount (fun k => k / 16 == fn.val) < 4
       ∧ s.legacyCount (fun _ => true) < 64
     (x.valid = false → x.wdraw = false → fits → legal → ∃ t, exec (.pruSegctlInstall req fn g) s = .next t
         ∧ t.segment fn g = { x with valid := true, stale := false }
         ∧ (∀ m h, h < 16 → (m ≠ fn.val ∨ h ≠ g.val) → t.segment m h = s.segment m h) ∧ s.only t [.mt, .pru])
     ∧ (x.valid = true ∨ x.wdraw = true ∨ ¬ fits ∨ ¬ legal → ∃ t, exec (.pruSegctlInstall req fn g) s = .next t ∧ s.only t [.mt])
     ∧ (x.valid = true → x.wdraw = false → ∃ t, exec (.pruSegctlWithdraw req fn g) s = .next t
         ∧ t.segment fn g = { x with wdraw := true, epoch := x.epoch + 1, unacked := x.holders }
         ∧ (∀ m h, h < 16 → (m ≠ fn.val ∨ h ≠ g.val) → t.segment m h = s.segment m h))
     ∧ (x.valid = false ∨ x.wdraw = true → ∃ t, exec (.pruSegctlWithdraw req fn g) s = .next t ∧ s.only t [.mt]))
   ∧ (∀ (s : State) (q : Fin 16384) (k : BitVec 512), s.heads q k → opcode k = 0x20 →
     let n := fnOfQueue q
     let g := pf k 0 32 4
     let x := s.segment n g
     let waits (t : State) : Prop := (t.queue q).st = .stalled ∧ (t.queue q).wait = 8 ∧ (t.queue q).head = .withdraw
       ∧ (t.queue q).rptr = (s.queue q).rptr ∧ s.otherQueues t q
     (x.wdraw = true → ∃ t, exec (.segWithdraw q) s = .next t ∧ t.segment n g = { x with queues := x.queues ++ [q.val] }
         ∧ waits t ∧ s.only t [.hcf, .pru, .inSc])
     ∧ (x.wdraw = false → x.valid = false → exec (.segWithdraw q) s = .next ((s.serve q).retire q 0 0))
     ∧ (x.wdraw = false → x.valid = true → ∃ t, exec (.segWithdraw q) s = .next t ∧ waits t
         ∧ t.segment n g = { x with wdraw := true, epoch := x.epoch + 1, unacked := x.holders, queues := x.queues ++ [q.val] }))
   ∧ (∀ (s : State) (fn : Fin 256) (g : Fin 16), s.alive = true → s.withdrawDone fn g = true →
     (s.segment fn g).aside = [] → s.savedIn fn g = [] →
     let gone : Seg := { s.segment fn g with
         valid := false, wdraw := false, stale := true, holders := [], queues := [], aside := [] }
     ((s.segment fn g).queues = [] → ∃ t, exec (.segWithdrawSignal fn g) s = .next t ∧ t.segment fn g = gone ∧ s.only t [.pru])
     ∧ ((s.segment fn g).queues.Nodup → (∀ q ∈ (s.segment fn g).queues, s.headPacket? q ≠ none ∧ (s.queue q).haltAfter = none) →
         ∃ t, exec (.segWithdrawSignal fn g) s = .next t ∧ t.segment fn g = gone
         ∧ (∀ q ∈ (s.segment fn g).queues, t.queue q = ((s.queue q).advance).settle s.now)
         ∧ (∀ q, q ∉ (s.segment fn g).queues → t.queue q = s.queue q) ∧ s.only t (.hcf :: .pru :: reporting))))
  ∧ ((∀ (s : State) (req : Req) (page : Fin 256) (g : Fin 16) (lim : Bool), s.engineReads req page = true →
     let x := s.segment page g
     (s.runsFn req.eng page = true → ∃ t, exec (.pruEsegFill req page g lim) s = .next t
       ∧ t.segment page g = { x with holders := if x.holders.contains req.eng.val then x.holders else x.holders ++ [req.eng.val] }
       ∧ t.mt.resp = 0 ∧ t.mt.rdata = (if lim then pack [(12, 36, x.limit.toNat), (48, 16, x.epoch.toNat)]
         else pack [(0, 1, b2n (s.fillValid x (s.taskPlot req.eng))), (1, 1, b2n x.rd), (2, 1, b2n x.wr), (3, 1, b2n x.ex),
           (4, 1, b2n x.leg), (12, 44, x.base.toNat), (56, 8, x.epoch.toNat)])
       ∧ s.only t [.mt, .pru])
     ∧ (s.runsFn req.eng page = false → ∃ t, exec (.pruEsegFill req page g lim) s = .next t ∧ t.mt.resp = 0
       ∧ t.mt.rdata = 0 ∧ s.only t [.mt]))
   ∧ (∀ (s : State) (req : Req) (page : Fin 256) (v : W64) (x : NoticeBlk), s.ftt.fatal = false → s.su.released = true →
     req.src = .engine → s.engineInReset req.eng = false → (s.engine req.eng).notice = some x → x.kind = 3 →
     x.fn = page.val → x.seg < 16 → x.nseq.toNat = fld v 0 8 → (s.engine req.eng).inc.toNat = fld v 8 8 →
     (s.engine req.eng).noticeQ = [] → ∃ t, exec (.pruEwack req page v) s = .next t ∧ t.mt.resp = 0
       ∧ (t.segment page x.seg).unacked = (s.segment page x.seg).unacked.filter (· != req.eng.val)
       ∧ (t.engine req.eng).notice = none ∧ s.otherEngines t req.eng ∧ s.only t [.mt, .pru, .eng])
   ∧ (∀ (s : State) (eng : Fin 512) (x : NoticeBlk), s.alive = true → (s.engine eng).notice = some x → x.kind = 3 →
     x.at' + 2 ^ 20 ≤ s.now → ∃ t, exec (.segInvalTimeout eng) s = .next t ∧ (t.engine eng).service = .out
       ∧ (t.engine eng).started = [] ∧ (t.engine eng).token = none ∧ (t.engine eng).preempt = none))

/-- R338, R343 to R347: every 64 sc each bucket takes 32 B for each unit of its throttled rate, up to BURST. An engine's read
of PRU_EGRANT draws the whole 64 B units its bucket holds, at most 1,024 of them; one with no claim reads 0 and draws
nothing. The model's own choices in it: log 9, 71. -/
def Obligations.BucketsRegulate : Prop :=
  (∀ s : State, s.alive = true → s.pru.refillAt + 64 ≤ s.now → s.mesh.waiting = [] →
    ∃ t, exec .bucketRefill s = .next t ∧ t.pru.refillAt = s.now
      ∧ (∀ p, p < 64 →
          (t.plot p).tokens = min (s.bucketCap p) ((s.plot p).tokens + (32 * throttled (s.plotCfg p).rate (s.throttle p) : Nat))
          ∧ (t.plot p).saveTokens
            = min (s.bucketCap p) ((s.plot p).saveTokens + (32 * throttled (s.plotCfg p).saveRate (s.throttle p) : Nat))
          ∧ (t.plot p).st = (s.plot p).st)
      ∧ t.pru.segs = s.pru.segs ∧ s.only t [.pru, .hv])
  ∧ (∀ (s : State) (req : Req) (page : Fin 256), s.engineReads req page = true →
    (s.grantFrom req.eng page = none → ∃ t, exec (.pruEgrant req page) s = .next t ∧ t.mt.resp = 0 ∧ t.mt.rdata = 0
      ∧ s.only t [.mt])
    ∧ (∀ p, s.grantFrom req.eng page = some (p, false) → ∃ t, exec (.pruEgrant req page) s = .next t ∧ t.mt.resp = 0
      ∧ fld t.mt.rdata 0 11 = (min 1024 ((s.plot p).tokens / 64)).toNat ∧ fld t.mt.rdata 11 1 = 0
      ∧ (t.plot p).tokens = (s.plot p).tokens - 64 * ((min 1024 ((s.plot p).tokens / 64)).toNat : Int)
      ∧ (t.plot p).saveTokens = (s.plot p).saveTokens ∧ (∀ o, o ≠ p → t.plot o = s.plot o)
      ∧ s.only t [.mt, .pru, .hv])
    ∧ (∀ p, s.grantFrom req.eng page = some (p, true) → ∃ t, exec (.pruEgrant req page) s = .next t ∧ t.mt.resp = 0
      ∧ fld t.mt.rdata 0 11 = (min 1024 ((s.plot p).saveTokens / 64)).toNat ∧ fld t.mt.rdata 11 1 = 1
      ∧ (t.plot p).saveTokens = (s.plot p).saveTokens - 64 * ((min 1024 ((s.plot p).saveTokens / 64)).toNat : Int)
      ∧ (t.plot p).tokens = (s.plot p).tokens ∧ (∀ o, o ≠ p → t.plot o = s.plot o)
      ∧ s.only t [.mt, .pru, .hv]))

/-- R305 to R308, R395: at the edge the next tick begins where the last one ended, with the number a calibration gave it or the
last one's successor, and with the length and the headland of the map then in force; a pending SWAP that is due and whose
map names no missing or retired engine is in force from this edge. In the headland that precedes it the walk takes its
snapshot and a calibrated chip adjusts the tick. The model's own choices in it: log 38, 58. -/
def Obligations.TickEdgesAndHeadlands : Prop :=
  (∀ s : State, s.alive = true → s.su.alignDone = true → s.tcs.inHead = true → s.tcs.edge ≤ s.now →
    ∃ t, exec .tickEdge s = .next t ∧ t.tcs.tick = s.tcs.renum.getD (s.tcs.tick + 1) ∧ t.tcs.start = s.tcs.edge
      ∧ t.tcs.inHead = false ∧ t.tcs.renum = none ∧ t.tcs.theta = none
      ∧ t.tcs.len = 20 * t.fm.active.chip.tickPeriod ∧ t.tcs.head = 20 * t.fm.active.chip.headland
      ∧ (s.fm.swap = none → s.ftt.edits = [] → t.fm.active = s.fm.active)
      ∧ (∀ a, s.fm.swap = some (a, none) → a + 64 ≤ s.now → s.ftt.edits = [] →
          (∀ e ∈ engineIds, (s.fm.shadow.eng e).active = true → engineKind? e ≠ none ∧ (s.engine e).repState = 0) →
          t.fm.active = s.fm.shadow ∧ t.fm.swap = none ∧ t.fm.state = .idle)
      ∧ (∀ a k, s.fm.swap = some (a, some k) → tickGe (s.tcs.renum.getD (s.tcs.tick + 1)) k = true → s.ftt.edits = [] →
          (∀ e ∈ engineIds, (s.fm.shadow.eng e).active = true → engineKind? e ≠ none ∧ (s.engine e).repState = 0) →
          t.fm.active = s.fm.shadow ∧ t.fm.swap = none ∧ t.fm.state = .idle))
  ∧ (∀ s : State, s.alive = true → s.su.alignDone = true → s.tcs.inHead = false → s.tcs.edge ≤ s.now + s.tcs.head →
    ∃ t, exec .headlandStart s = .next t ∧ t.tcs.inHead = true ∧ t.sm.snapshot = some s.findCircles ∧ t.sm.snapAt = s.now
      ∧ t.tcs.tick = s.tcs.tick ∧ t.tcs.start = s.tcs.start
      ∧ (s.yoke.phase ≠ .ready → t.tcs.len = s.tcs.len ∧ t.tcs.theta = s.tcs.theta)
      ∧ (s.yoke.phase = .ready → t.tcs.len = (s.tcs.len - (bestExchange s.yoke.exch).theta).toNat
          ∧ t.tcs.theta = some (bestExchange s.yoke.exch).theta ∧ t.tcs.renum = s.yoke.parentTick.map (· + 1)))

/-- R301, R308, R312, R313, R314: an entry fires once, when its offset in a tick of its number has come; of a function in reset
it has no effect. A LAUNCH or STEP that nothing holds proceeds as its sowing; a SEM adds; where the queue or the plot stops
it, it is skipped with a record. A cyclic sowing past its deadline is reported once, and fails under OVERRUN_FAIL. The
model's own choices in it: log 46, 58, 59, 74. -/
def Obligations.CyclicEntriesFire : Prop :=
  (∀ (s : State) (i : Fin 4096),
    (s.fireable i 1 = false → exec (.cyclicLaunch i) s = .next s) ∧ (s.fireable i 2 = false → exec (.cyclicStep i) s = .next s)
    ∧ (s.fireable i 3 = false → exec (.cyclicSem i) s = .next s))
  ∧ (∀ (s : State) (i : Fin 4096), s.alive = true →
    let r := s.cyclicEntry i
    let n := cyFn r
    let q := n * 64 + cyLq r
    let p := cyPlot r
    let fired : TickUnit := { s.tcs with fired := s.tcs.fired ++ [i.val] }
    (∀ c k, (c = Instr.cyclicLaunch i ∧ k = 1 ∨ c = Instr.cyclicStep i ∧ k = 2 ∨ c = Instr.cyclicSem i ∧ k = 3) →
      s.fireable i k = true → s.inReset n = true → exec c s = .next { s with tcs := fired })
    ∧ (∀ c k, (c = Instr.cyclicLaunch i ∧ k = 1 ∨ c = Instr.cyclicSem i ∧ k = 3) → s.fireable i k = true →
      s.inReset n = false → s.skipReason q p ≠ 0 → (s.faultQ n).recs.length < 64 → (s.faultQ n).quiet 0x306 s.now = true →
      (s.faultQ n).freshAt ≠ s.now → ∃ t, exec c s = .next t ∧ t.tcs = fired
        ∧ (t.faultQ n).recs = (s.faultQ n).recs ++ [s.recordOf
            { code := 0x306, fn := some n, plot := some p, queue := some q, index := i, detail := s.skipReason q p }] ∧ s.only t (.tcs :: reporting))
    ∧ (s.fireable i 2 = true → s.inReset n = false → s.skipReason (s.stepQueue r) p ≠ 0 → fnOfQueue (s.stepQueue r) = n →
      (s.faultQ n).recs.length < 64 → (s.faultQ n).quiet 0x303 s.now = true → (s.faultQ n).freshAt ≠ s.now →
      ∃ t, exec (.cyclicStep i) s = .next t ∧ t.tcs = fired
        ∧ (t.faultQ n).recs = (s.faultQ n).recs ++ [s.recordOf
            { code := 0x303, fn := some n, plot := some p, queue := some (s.stepQueue r), index := i
              detail := s.skipReason (s.stepQueue r) p, arg := BitVec.ofNat 64 (cyTarget r % 1024) }]
        ∧ s.only t (.tcs :: reporting))
    ∧ (∀ g, s.fireable i 1 = true → s.inReset n = false → s.skipReason q p = 0 →
      (cySemv r = true → s.declared q (cySem r) = true) → s.launchCheck q (cyTarget r) = 0 →
      s.graph? (cyTarget r) = some g → s.launchHold q (cyTarget r) g false = .none →
      ∃ t, exec (.cyclicLaunch i) s = .next t ∧ t.tcs = fired ∧ s.launched t q (cyTarget r) g
        ∧ s.only t [.tcs, .gs, .sow, .hcf, .hv, .inSc])
    ∧ (∀ x g, s.fireable i 2 = true → s.inReset n = false → s.model? n (cyTarget r % 1024) = some x →
      s.skipReason (n * 64 + x.stepq) p = 0 → s.hasActive (cyTarget r % 1024) = true →
      s.launchCheck (n * 64 + x.stepq) x.handle = 0 →
      (x.semv = true → s.declared (n * 64 + x.stepq) x.sem = true) → s.graph? x.handle = some g →
      s.launchHold (n * 64 + x.stepq) x.handle g false = .none → s.bufFree n (cyTarget r % 1024) x = true → x.stepq < 64 →
      ∃ t, exec (.cyclicStep i) s = .next t ∧ t.tcs = fired ∧ s.launched t (n * 64 + x.stepq) x.handle g
        ∧ t.stu.queue = s.stu.queue ++ [sowKey n (s.nextSowId n)]
        ∧ s.only t [.tcs, .gs, .sow, .hcf, .hv, .inSc, .stu])
    ∧ (s.fireable i 3 = true → s.inReset n = false → s.skipReason q p = 0 → s.semCheck n q (cySem r) 2 = 0 →
      -2147483648 ≤ (s.semVal (cySem r)).toInt + (cySemval r).toInt →
      (s.semVal (cySem r)).toInt + (cySemval r).toInt ≤ 2147483647 → (∀ w ∈ s.sm.waiters, w.sem ≠ cySem r) →
      ∃ t, exec (.cyclicSem i) s = .next t ∧ t.tcs = fired ∧ t.semVal (cySem r) = s.semVal (cySem r) + cySemval r
        ∧ (∀ j, j ≠ cySem r → t.semVal j = s.semVal j) ∧ t.sm.waiters = s.sm.waiters ∧ s.only t [.tcs, .sm, .hv]))
  ∧ (∀ (s : State) (fn : Fin 256) (id : BitVec 32) (w : Sowing) (c : CycInfo) (d : Nat), s.alive = true →
    s.sowing? (sowKey fn id) = some w → w.st = .active → w.cyc = some c → c.reported = false → c.deadline = some d →
    d ≤ s.now → ((s.plotCfg w.plot).overrunFail = false → ∃ t, exec (.tickOverrun fn id) s = .next t
        ∧ t.sowing? (sowKey fn id) = some { w with cyc := some { c with reported := true } }
        ∧ s.only t (.sow :: reporting))
      ∧ ((s.plotCfg w.plot).overrunFail = true → w.fn = fn.val → ∃ t v, exec (.tickOverrun fn id) s = .next t
        ∧ t.sowing? (sowKey fn id) = some v ∧ v.st = .failing ∧ v.code = 0x307))

/-- R328 to R331: TICK_WAIT fails when its sc has passed, else waits and retires when it has come. YOKE_BARRIER fails on a chip
that is not joined, on a wrong CHIPS, and when its barrier already has a command here; with no yoke it retires at its
offset in the next tick; on a member it waits and its arrival goes up, or waits for the round of an abandoned command to end; on a
master that needs no other chip its release is
two ticks on. A release gives the waiting command its time or its abort code, and it retires at that time. The model's own
choices in it: log 50. -/
def Obligations.TickWaitsAndBarriers : Prop :=
  (∀ (s : State) (q : Fin 16384) (k : BitVec 512), s.heads q k →
    let f := fnOfQueue q
    let b := pf k 0 32 4
    let chips := pf k 0 36 9
    let off := pf k 2 0 28
    let waits (t : State) (w : Nat) (h : Head) : Prop := (t.queue q).st = .stalled ∧ (t.queue q).wait = w
      ∧ (t.queue q).head = h ∧ (t.queue q).rptr = (s.queue q).rptr ∧ s.otherQueues t q
    (opcode k = 0x51 → s.tickPassed (BitVec.ofNat 48 (pf k 2 0 48)) (pf k 3 0 28) = true →
      exec (.tickWait q) s = .next ((s.serve q).retire q 0x55 0))
    ∧ (opcode k = 0x51 → s.tickPassed (BitVec.ofNat 48 (pf k 2 0 48)) (pf k 3 0 28) = false →
      ∃ t, exec (.tickWait q) s = .next t ∧ waits t 11 .tickWait ∧ s.only t [.hcf, .inSc])
    ∧ (opcode k = 0x50 →
      (s.fm.active.chip.role = 0 →
        (chips ≠ 1 → exec (.yokeBarrier q) s = .next ((s.serve q).retire q 0x50 0))
        ∧ (chips = 1 → s.barrierQueues f b ≠ [] → exec (.yokeBarrier q) s = .next ((s.serve q).retire q 0x54 0))
        ∧ (chips = 1 → s.barrierQueues f b = [] → ∃ t, exec (.yokeBarrier q) s = .next t
          ∧ waits t 12 (.yoke (some (s.tcs.tick + 1, off))) ∧ s.only t [.hcf, .inSc]))
      ∧ (s.fm.active.chip.role ≠ 0 →
        (s.yoke.joined = false → exec (.yokeBarrier q) s = .next ((s.serve q).retire q 0x50 0))
        ∧ (s.yoke.joined = true → chips ≠ s.yoke.count → exec (.yokeBarrier q) s = .next ((s.serve q).retire q 0x51 0))
        ∧ (s.yoke.joined = true → chips = s.yoke.count → s.barrierQueues f b ≠ [] →
          exec (.yokeBarrier q) s = .next ((s.serve q).retire q 0x54 0))
        ∧ (s.yoke.joined = true → chips = s.yoke.count → s.barrierQueues f b = [] → s.abandonedRound f b = true →
          ∃ t, exec (.yokeBarrier q) s = .next t ∧ waits t 12 .yokeNext ∧ s.only t [.hcf, .inSc])
        ∧ (s.yoke.joined = true → chips = s.yoke.count → s.barrierQueues f b = [] → s.yoke.role ≠ 2 →
          s.abandonedRound f b = false →
          ∃ t, exec (.yokeBarrier q) s = .next t ∧ waits t 12 (.yoke none) ∧ ⟨96, f, b, chips, 1, off⟩ ∈ t.yoke.arrivals
            ∧ s.only t [.hcf, .yoke, .pins, .inSc])
        ∧ (s.yoke.joined = true → chips = s.yoke.count → s.barrierQueues f b = [] → s.yoke.role = 2 →
          (∀ x ∈ s.yoke.arrivals, ¬ (x.fn = f ∧ x.barrier = b)) →
          ∃ t, exec (.yokeBarrier q) s = .next t ∧ s.only t [.hcf, .yoke, .pins, .inSc]
            ∧ waits t 12 (if chips ≤ 1 then .yoke (some (s.tcs.tick + 2, off)) else .yoke none)
            ∧ (1 < chips → ⟨96, f, b, chips, 1, off⟩ ∈ t.yoke.arrivals)))))
  ∧ (∀ (s : State) (q : Fin 16384) (k : BitVec 512), s.alive = true → s.headPacket? q = some k →
    ((s.queue q).head = .tickWait → s.tickReached (BitVec.ofNat 48 (pf k 2 0 48)) (pf k 3 0 28) = true →
      exec (.tickWaitRetire q) s = .next (s.retire q 0 0))
    ∧ (∀ t off, (s.queue q).head = .yoke (some (t, off)) → s.tickReached t off = true →
      exec (.barrierRetire q) s = .next (s.retire q 0 0)))
  ∧ (∀ (s : State) (port : Fin 96) (fn : Fin 256) (b : BitVec 4) (q : Nat), s.alive = true → s.yoke.joined = true →
    s.pins.lsUp.getLsbD port = true →
    s.barrierQueues fn b.toNat = [q] → (s.queue q).head = .yoke none →
    (∀ (rel : BitVec 48) (off : Nat) (ab : BitVec 8), s.yoke.role ≠ 2 → port.val = s.yoke.port →
      (ab ≠ 0 → ∃ u : State, exec (.release port fn b rel off ab) s = .next (u.retire q ab.toNat 0) ∧ u.hcf = s.hcf)
      ∧ (ab = 0 → s.tickPassed rel off = false → ∃ t, exec (.release port fn b rel off ab) s = .next t
        ∧ (t.queue q).head = .yoke (some (rel, off)) ∧ (t.queue q).st = (s.queue q).st ∧ s.otherQueues t q
        ∧ s.only t [.hcf, .yoke, .pins]))
    ∧ (∀ chips m n off, n ≠ 0 → s.yoke.role = 2 → s.yoke.kids.look? port = some m → s.mirrorKid port = false →
      s.yoke.arrivals = [⟨96, fn, b.toNat, chips, 1, off⟩] →
      (chips ≤ n + 1 → ∃ t, exec (.arrive port fn b chips n) s = .next t
        ∧ (t.queue q).head = .yoke (some (s.tcs.tick + 2, off)) ∧ t.yoke.arrivals = [] ∧ s.otherQueues t q
        ∧ s.only t [.hcf, .yoke, .pins])
      ∧ (n + 1 < chips → ∃ t, exec (.arrive port fn b chips n) s = .next t ∧ t.hcf = s.hcf
        ∧ t.yoke.arrivals = [⟨96, fn, b.toNat, chips, 1, off⟩, ⟨port, fn, b.toNat, chips, n, 0⟩]
        ∧ s.only t [.yoke])))

/-- R441, R442, R443, R432, R433: HARVEST asks for a latch at the first edge after its sc and waits, from a queue of function 0 alone. DONE
clears HELD; a read of HV_STAT returns it as it was before this sc and clears SKIPPED but for what this sc counts, one of
TR_STAT the same of DROPPED (R18). Setting ENABLE
empties the trace buffer and sets SEQ, BWPTR and WPTR to 0; while it is set a write can only clear it. A burst of the
stream is issued to its place in the memory ring. The model's own choices in it: log 87, 88. -/
def Obligations.HarvestAndTrace : Prop :=
  (∀ (s : State) (q : Fin 16384) (p : BitVec 512), s.heads q p → opcode p = 0x21 →
    (fnOfQueue q ≠ 0 → exec (.harvest q) s = .next ((s.serve q).retire q stBadCommand 0))
    ∧ (fnOfQueue q = 0 → ∃ t, exec (.harvest q) s = .next t ∧ t.hv = { s.hv with asked := s.hv.asked ++ [q.val] }
        ∧ (t.queue q).st = .stalled ∧ (t.queue q).wait = 13 ∧ (t.queue q).rptr = (s.queue q).rptr ∧ s.otherQueues t q
        ∧ s.only t [.hcf, .hv, .inSc]))
  ∧ (∀ (s : State) (req : Req), s.ftt.fatal = false → s.globalOk req = true →
    (∃ t, exec (.hvDone req) s = .next t ∧ t.hv = { s.hv with held := false } ∧ t.mt.resp = 0 ∧ s.only t [.mt, .hv])
    ∧ (∃ t, exec (.hvStatRead req) s = .next t ∧ t.hv = { s.hv with skipped := s.hv.skipped.read s.now } ∧ t.mt.resp = 0
        ∧ t.mt.rdata = pack [(0, 32, s.hv.seq.toNat), (32, 1, b2n s.hv.held), (33, 1, b2n s.hv.overwritten.isSome),
            (34, 1, b2n s.hv.damaged), (35, 16, s.hv.skipped.seen (satAdd 16) s.now)] ∧ s.only t [.mt, .hv])
    ∧ (∃ t, exec (.trStatRead req) s = .next t ∧ t.tr = { s.tr with dropped := s.tr.dropped.read s.now } ∧ t.mt.resp = 0
        ∧ t.mt.rdata = pack [(0, 14, s.tr.fill), (14, 1, b2n s.tr.failed), (15, 32, s.tr.dropped.seen (satAdd 32) s.now)] ∧ s.only t [.mt, .tr])
    ∧ (∀ v, s.tr.enable = true → ∃ t, exec (.trCtrlWrite req v) s = .next t
        ∧ t.tr = { s.tr with enable := bit v 0 } ∧ t.mt.resp = 0 ∧ s.only t [.mt, .tr])
    ∧ (∀ v, s.tr.enable = false → bit v 0 = true → ∃ t, exec (.trCtrlWrite req v) s = .next t ∧ t.tr.enable = true
        ∧ t.tr.stream = bit v 1 ∧ t.tr.types = BitVec.ofNat 16 (2 * fld v 3 15) ∧ t.tr.buf = [] ∧ t.tr.failed = false
        ∧ t.tr.seq = 0 ∧ t.tr.bwptr = 0 ∧ t.tr.wptr = 0 ∧ t.tr.fill = 0 ∧ t.tr.fnmask = s.tr.fnmask
        ∧ t.tr.plotmask = s.tr.plotmask ∧ s.only t [.mt, .tr, .mesh]))
  ∧ (∀ s : State, s.alive = true → s.streamReady = true → ∃ t, exec .traceStreamBurst s = .next t
      ∧ t.tr = { s.tr with issued := s.tr.issued + s.tr.burst }
      ∧ s.asks t (.trace s.tr.next s.tr.burst) 0 true (s.tr.sbase.toNat + s.tr.next % 2 ^ (s.tr.ssize - 5) * 32)
          (32 * s.tr.burst) (s.tr.events s.tr.next s.tr.burst)
      ∧ 1 ≤ s.tr.burst ∧ s.tr.burst ≤ 8 ∧ s.only t [.tr, .mesh])

/-- R275: the state of a lane after a set of contributions is the same in every order and grouping, groupings merged through
raw images among them: adding a permutation of the contributions gives the same lane, and adding some of them and then the
raw image of the others, itself begun from CLEAR, gives the same lane too, SUM being kept in its 316 bits. -/
def Obligations.SheafSumsDoNotDependOnOrder : Prop :=
  ∀ (fmt : Nat) (l : Lane) (xs ys : List Elem),
    (xs.Perm ys → xs.foldl (fun a x => a.add fmt x) l = ys.foldl (fun a x => a.add fmt x) l)
    ∧ (let rest := ys.foldl (fun a x => a.add fmt x) Lane.cleared;
       let all := (xs ++ ys).foldl (fun a x => a.add fmt x) l;
       (-(2 ^ 315) : Int) ≤ l.sum → l.sum < 2 ^ 315 →
       (xs.foldl (fun a x => a.add fmt x) l).merge (Lane.decode rest.encode) = all)

/-- R263, R265, R266, R268: an SHF_EOP write is refused, with FIRSTERR, for a stale incarnation, which is logged, for an entry
that is not enabled or not the function's, for a reserved OP or FMT, and when 8 operations of the engine are under way, in
that order. One that passes takes its place in the order of the accepted operations, in one sc by engine ID, counts in ACC, and
an add reads its data. R257, R259, R267 to R269: a completed operation counts in CMP and is LASTST of the incarnation that
began it. A write of SHF_ENTCFG takes its place in the entry's order, behind the operations of its sc.
SHF_ERES answers the engine that reads it and clears its RC fields but for what this sc adds; any other reader gets 0. The model's own choices in it:
log 70, 110. -/
def Obligations.SheafOperationsAreAccepted : Prop :=
  (∀ (s : State) (req : Req) (page : Fin 256) (v : W64) (c : Instr),
     s.ftt.fatal = false → s.engineOk req page = true →
     let e := req.eng.val
     let ent := fld v 0 12
     let op := fld v 12 3
     let r := (s.engine e).shf
     c = (match op with
       | 1 => .sheafAdd req page v
       | 2 => .sheafAddRaw req page v
       | 3 => .sheafDrain req page v
       | 4 => .sheafDrainRaw req page v
       | _ => .sheafClear req page v) →
     let current := fld v 54 8 = (s.engine e).inc.toNat
     let mine := bit (s.sheafCfg ent) 8 = true ∧ fld (s.sheafCfg ent) 0 8 = page.val
     let formed := op ≤ 4 ∧ (op ≠ 0 → fld v 15 3 = 0) ∧ fld v 15 3 ≤ 4
     let refused (st : Nat) : Prop := ∃ t, exec c s = .next t ∧ (t.engine e).shf = r.err st s.now ∧ t.shf = s.shf
       ∧ s.otherEngines t e ∧ t.mt.resp = 0
     let o : ShfOp := { num := s.shf.next, ent := ent, op := op, fmt := fld v 15 3, fn := page, eng := e
                        inc := (s.engine e).inc, addr := pack [(6, 32, fld v 18 32), (60, 4, fld v 50 4)]
                        plot := s.taskPlot e, sow := (s.taskOf e).1, queue := (s.taskOf e).2, at' := s.now
                        phase := if op = 1 ∨ op = 2 then .accepted else .ready, status := 0, data := [], cfg := none }
     (¬ current → refused 0x2B ∧ ∃ t, exec c s = .next t ∧ t.ftt.log = s.ftt.log.offer 1024 63
         { code := 0x802, eng := some e } [s.recordOf { code := 0x802, eng := some e }] s.dlyNow s.now false)
     ∧ (current → ¬ mine → refused 0x28)
     ∧ (current → mine → ¬ formed → refused 0x29)
     ∧ (current → mine → formed → 8 ≤ (s.shfOut e).length → refused 0x2A)
     ∧ (current → mine → formed → (s.shfOut e).length < 8 →
         ∃ t, exec c s = .next t ∧ (t.engine e).shf = { r with acc := r.acc + 1 } ∧ t.shf.ents = s.shf.ents
           ∧ t.shf.next = s.shf.next + 1 ∧ s.otherEngines t e ∧ t.mt.resp = 0 ∧ s.only t [.mt, .shf, .eng, .hv]
           ∧ t.shf.ops = insertOp o s.shf.ops ∧ ((∀ y ∈ s.shf.ops, o.before y = false) → t.shf.ops = s.shf.ops ++ [o])))
  ∧ (∀ (s : State) (o : ShfOp) (p : Nat), s.shf.ops.filter (fun y => y.phase == .accepted) = [o] →
     (∀ y ∈ s.shf.ops, y.num = o.num → y = o) →
     s.translate o.fn o.addr (o.bytes (s.formatFor o)) .read (some o.plot) true = .ok p →
     s.asks s.shfReads (.shfRead o.num) o.fn false p (o.bytes (s.formatFor o)) []
       ∧ s.shfReads.shf.ops = s.shf.ops.map (fun y => if y.num = o.num then { o with phase := .reading } else y))
  ∧ ((∀ (s : State) (entry : Fin 4096) (o : ShfOp), s.alive = true →
     s.shf.ended.find? (fun y => y.ent == entry.val
       && ((s.shf.ended.find? fun x => x.eng == y.eng).map (·.num)) == some y.num) = some o →
     (∀ y ∈ s.shf.ops, y.op ≠ 8) →
     let r := (s.engine o.eng).shf
     ∃ t, exec (.sheafOpComplete entry) s = .next t ∧ t.shf.ended = s.shf.ended.filter (fun y => y.num != o.num)
       ∧ t.shf.ops = s.shf.ops ∧ t.shf.ents = s.shf.ents
       ∧ s.otherEngines t o.eng ∧ s.only t [.shf, .eng]
       ∧ ((s.engine o.eng).inc ≠ o.inc → (t.engine o.eng).shf = r)
       ∧ ((s.engine o.eng).inc = o.inc → (t.engine o.eng).shf.cmp = r.cmp + 1 ∧ (t.engine o.eng).shf.lastst = o.status
           ∧ (t.engine o.eng).shf.acc = r.acc ∧ (t.engine o.eng).shf.inexact = r.inexact
           ∧ (t.engine o.eng).shf.firsterr = (if o.status = 0 then r.firsterr else r.firsterr.add firstOf o.status.toNat s.now)))
   ∧ (∀ (s : State) (req : Req) (entry : Fin 4096) (v : W64), s.ftt.fatal = false → s.globalOk req = true →
     ∃ t o, exec (.shfEntcfgWrite req entry v) s = .next t ∧ t.mt.resp = 0 ∧ t.shf.ents = s.shf.ents
       ∧ t.shf.ops = insertOp o s.shf.ops ∧ o.ent = entry.val ∧ o.cfg = some (pack [(0, 9, fld v 0 9)]) ∧ o.at' = s.now
       ∧ (∀ y ∈ s.shf.ops, y.cfg = none → y.at' ≤ s.now → o.before y = false) ∧ s.only t [.mt, .shf])
   ∧ (∀ (s : State) (req : Req) (page : Fin 256),
     let e := req.eng.val
     let r := (s.engine e).shf
     let reads := s.pageOk req page = true ∨ s.engineReads req page = true
     (req.src = .engine → reads →
       ∃ t, exec (.shfEres req page) s = .next t ∧ t.mt.resp = 0 ∧ t.mt.rdata = s.shfEresOf e
         ∧ (t.engine e).shf = { r with
             firsterr := r.firsterr.read s.now, inexact := r.inexact.read s.now, range := r.range.read s.now
             nanout := r.nanout.read s.now, lostseen := r.lostseen.read s.now }
         ∧ s.otherEngines t e ∧ s.only t [.mt, .eng])
     ∧ (req.src ≠ .engine → reads →
         exec (.shfEres req page) s = .next (s.respond 0 0))))

/-- R259, R264, R268, R271, R274, R276, R277, R278, R280: the next operation of an entry is applied, once every operation of
its sc has its place. A change of the configuration empties the entry. CLEAR starts every lane anew in
FMT. ADD and ADD_RAW add exactly into the lanes and into COUNT, or set LOST where the entry is poisoned, has no format, has
another, or COUNT would pass 2^38 - 1. A drain writes every lane rounded once, or the raw image, and leaves the entry. The
model's own choices in it: log 69. -/
def Obligations.SheafOperationsApply : Prop :=
  (∀ (s : State) (entry : Fin 4096) (o : ShfOp), s.nextOp? entry = some o → s.now ≤ o.at' → exec (.sheafApply entry) s = .next s)
  ∧ (∀ (s : State) (entry : Fin 4096) (o : ShfOp), s.alive = true → s.nextOp? entry = some o → o.at' < s.now →
    (∀ y ∈ s.shf.ops, y.ent = entry.val → y.cfg ≠ none → y.num = o.num) →
    let x := s.sheaf entry
    let done (t : State) (st : Nat) : Prop := t.shf.ended = s.shf.ended ++ [{ o with status := BitVec.ofNat 8 st }]
      ∧ t.shf.ops = s.shf.ops.filter (fun y => y.num != o.num)
      ∧ (∀ j, j ≠ entry.val → t.sheaf j = s.sheaf j)
    let ends (st : Nat) (y : ShfEntry) : Prop := ∃ t, exec (.sheafApply entry) s = .next t ∧ t.sheaf entry = y ∧ done t st
      ∧ s.only t [.shf, .hv]
    (o.phase = .reading ∨ o.phase = .accepted → exec (.sheafApply entry) s = .next s)
    ∧ (∀ w, o.cfg = some w → o.phase = .ready → ∃ t, exec (.sheafApply entry) s = .next t
        ∧ t.sheaf entry = (if x.cfg = w then x else { ShfEntry.reset with owner := fld w 0 8, enable := bit w 8 })
        ∧ t.shf.ops = s.shf.ops.filter (fun y => y.num != o.num) ∧ t.shf.ended = s.shf.ended
        ∧ (∀ j, j ≠ entry.val → t.sheaf j = s.sheaf j) ∧ s.only t [.shf])
    ∧ (o.cfg = none → o.op = 0 → o.phase = .ready → ends 0 { x with
        fmt := o.fmt, fmtv := true, count := 0, lost := false, poison := false, lanes := List.replicate 32 Lane.cleared })
    ∧ (o.cfg = none → (o.op = 1 ∨ o.op = 2) → x.poison = true → (o.phase = .ready ∨ o.phase = .failed) →
        ends 0x2E { x with lost := true })
    ∧ (o.cfg = none → (o.op = 1 ∨ o.op = 2) → x.poison = false → o.phase = .failed →
        ends o.status.toNat { x with lost := true })
    ∧ (o.cfg = none → (o.op = 1 ∨ o.op = 2) → o.phase = .ready →
        (x.poison = false → x.fmtv = false → ends 0x29 { x with lost := true })
        ∧ (x.poison = false → x.fmtv = true → o.op = 1 →
            (x.count + 1 ≤ 2 ^ 38 - 1 → ends 0 { x with
              count := x.count + 1
              lanes := x.all.zipIdx.map fun li => li.1.add x.fmt (decodeElem x.fmt (element x.fmt o.data li.2)) })
            ∧ (2 ^ 38 - 1 < x.count + 1 → ends 0x2C { x with lost := true }))
        ∧ (x.poison = false → x.fmtv = true → o.op = 2 →
            (rawOk o.data = false → ends 0x2D { x with lost := true })
            ∧ (rawOk o.data = true → fld (Words.at o.data 0) 16 3 ≠ x.fmt → ends 0x29 { x with lost := true })
            ∧ (rawOk o.data = true → fld (Words.at o.data 0) 16 3 = x.fmt → 2 ^ 38 - 1 < x.count + rawCount o.data →
                ends 0x2C { x with lost := true })
            ∧ (rawOk o.data = true → fld (Words.at o.data 0) 16 3 = x.fmt → x.count + rawCount o.data ≤ 2 ^ 38 - 1 →
                ends 0 { x with
                  count := x.count + rawCount o.data
                  lanes := x.all.zipIdx.map fun li =>
                    li.1.merge (Lane.decode (bits (wordsNat (o.data.drop 8)) (320 * li.2) 320)) })))
    ∧ (o.cfg = none → (o.op = 3 ∨ o.op = 4) → o.phase = .ready →
        (x.poison = true → ends 0x2E x) ∧ (x.poison = false → x.fmtv = false → ends 0x29 x)
        ∧ (∀ p, x.poison = false → x.fmtv = true →
            let ws := if o.op = 3 then packElems x.fmt x.drains else x.raw
            s.translate o.fn o.addr (8 * ws.length) .write (some o.plot) true = .ok p →
            ∃ t, exec (.sheafApply entry) s = .next t ∧ t.sheaf entry = x ∧ { o with phase := .applied } ∈ t.shf.ops
              ∧ s.asks t (.shfWrite o.num) o.fn true p (8 * ws.length) ws
              ∧ (o.op = 3 → (s.engine o.eng).inc = o.inc →
                  (t.engine o.eng).shf.inexact = (s.engine o.eng).shf.inexact.flag (x.drains.any fun d => d.inexact) s.now
                  ∧ (t.engine o.eng).shf.range = (s.engine o.eng).shf.range.flag (x.drains.any fun d => d.range) s.now
                  ∧ (t.engine o.eng).shf.nanout = (s.engine o.eng).shf.nanout.flag (x.drains.any fun d => d.nanout) s.now)
              ∧ s.otherEngines t o.eng ∧ s.only t [.shf, .eng, .mesh])))

/-- R247, R248, R250, R252: MRS_ESEND puts a send behind the engine's others, and gives a ninth SEND_FULL. The send at the
front reads its descriptor, then takes a credit of its pair, or waits for one, and reads its payload; its arrival record is
written when the ring has room. With the record's response a message on this chip is delivered and its status written. The
model's own choices in it: log 1, 66, 67, 68. -/
def Obligations.MessagesAreSent : Prop :=
  (∀ (s : State) (req : Req) (page : Fin 256) (v : W64), s.ftt.fatal = false → s.engineOk req page = true →
    let e := req.eng.val
    let x : Send := ⟨page, pack [(6, 42, fld v 0 42), (60, 4, fld v 42 4)], s.taskPlot e, .accepted, [], []⟩
    (fld v 46 8 ≠ (s.engine e).inc.toNat → ∃ t, exec (.mrsEsend req page v) s = .next t ∧ t.mt.resp = 0
      ∧ (t.engine e).sends = (s.engine e).sends ∧ t.ftt.log = s.ftt.log.offer 1024 63 { code := 0x802, eng := some e }
          [s.recordOf { code := 0x802, eng := some e }] s.dlyNow s.now false ∧ s.only t [.mt, .ftt, .mdu, .mesh, .hv])
    ∧ (fld v 46 8 = (s.engine e).inc.toNat → (s.engine e).sends.length < 8 → ∃ t, exec (.mrsEsend req page v) s = .next t
      ∧ t.mt.resp = 0 ∧ (t.engine e).sends = (s.engine e).sends ++ [x] ∧ s.otherEngines t e ∧ s.only t [.mt, .eng, .hv])
    ∧ (∀ p, fld v 46 8 = (s.engine e).inc.toNat → 8 ≤ (s.engine e).sends.length →
      s.translate page (x.desc + 16) 8 .write (some x.plot) false = .ok p → ∃ t, exec (.mrsEsend req page v) s = .next t
      ∧ t.mt.resp = 0 ∧ s.asks t (.msgStatus page) page true p 8 [pack [(0, 8, 8), (8, 1, 1)]]
      ∧ s.only t [.mt, .mesh, .hv]))
  ∧ (∀ (s : State) (e : Fin 512) (x : Send) (rest : List Send), s.alive = true → (s.engine e).sends = x :: rest →
    let k := s.sendKey e x
    let d := dEng x.words
    let r := s.ring x.fn d
    let size := 2 ^ fld (s.rxOf x.fn) 48 4
    let now (t : State) (p : SendPhase) : Prop := (t.engine e).sends = { x with phase := p } :: rest ∧ s.otherEngines t e
    (∀ p, x.phase = .accepted → s.translate x.fn x.desc 64 .read (some x.plot) false = .ok p →
      ∃ t, exec (.msgSend e) s = .next t ∧ now t .descRead ∧ s.asks t (.msgDesc e) x.fn false p 64 []
        ∧ s.only t [.eng, .mesh])
    ∧ (x.phase = .checked → s.mrs.pairs.look? k = some ⟨0⟩ → exec (.msgSend e) s = .next s)
    ∧ (∀ p m, x.phase = .checked → s.translate x.fn (x.desc + 64) (dLen x.words) .read (some x.plot) false = .ok p →
      (s.mrs.pairs.look? k = some ⟨m + 1⟩ ∨
        (s.mrs.pairs.look? k = none ∧ s.fullCredits (pairFn k) = m + 1 ∧ s.mrs.pairs.length < 65536)) →
      ∃ t, exec (.msgSend e) s = .next t ∧ now t .payloadRead ∧ t.mrs = { s.mrs with pairs := s.mrs.pairs.ins k ⟨m⟩ }
        ∧ s.asks t (.msgPayload e) x.fn false p (dLen x.words) [] ∧ s.only t [.eng, .mesh, .mrs])
    ∧ (x.phase = .recordWait → size ≤ r.written - r.freed → exec (.msgSend e) s = .next s)
    ∧ (∀ p, x.phase = .recordWait → r.written - r.freed < size →
      s.translate x.fn (pack [(12, 36, fld (s.rxOf x.fn) 12 36), (60, 4, fld (s.rxOf x.fn) 60 4)]
        + BitVec.ofNat 64 ((d * size + r.written % size) * 16)) 16 .write none false = .ok p →
      ∃ t w, exec (.msgSend e) s = .next t ∧ now t .recordWrite ∧ s.asks t (.msgRecord e) x.fn true p 16 [w, x.words.at 1]
        ∧ fld w 9 9 = s.logicalOf e % 512 ∧ fld w 18 12 = dTag x.words ∧ fld w 30 9 = dLen x.words
        ∧ fld w 39 1 = b2n (decide (r.written / size % 2 = 0)) ∧ (t.ring x.fn d).written = r.written + 1
        ∧ s.only t [.eng, .mesh, .mrs])
    ∧ (∀ p y, x.phase = .recordWrite → s.mesh.out = [y] → s.mesh.waiting = [] → y.purpose = .msgRecord e → y.retryAt = none →
      s.translate x.fn (x.desc + 16) 8 .write (some x.plot) false = .ok p → s.pins.bme.getLsbD x.fn = true → s.su.alignDone = true →
      ∃ t z, exec (.msgDelivered e) s = .next t ∧ (t.engine e).sends = rest ∧ s.otherEngines t e ∧ t.mesh.out = [z]
        ∧ z.write = true ∧ z.addr = p ∧ z.data = [pack [(8, 1, 1)]] ∧ t.mrs = s.mrs ∧ s.only t [.eng, .mesh, .hv]))

/-- R52, R249, R252, R253: a message from another chip starts to land, or its sender is told on the link BAD_DEST or NO_RING. A
CRED frame returns its credits to the pair, which is dropped from the table when full and no send of it waits, and ends the oldest unconfirmed message
of the pair with the status it brings. A frame on a port that is down is lost. An engine's MRS_ECREDIT frees records of its ring, up to those written, and returns
credits, to another chip in a CRED frame. MRS_RX is taken while ENABLE is 0; clearing ENABLE empties the function's rings. The model's own choices in it:
log 47, 68. -/
def Obligations.MessagesLandAndCreditsReturn : Prop :=
  (∀ (s : State) (port : Fin 96) (f : MsgFrame), s.alive = true →
    let n := f.fn.val
    let cred (st : Nat) : Words := [pack [(0, 8, 4), (8, 8, n), (16, 8, s.fm.active.chip.chip), (24, 9, f.seng.toNat),
      (33, 9, f.deng.toNat), (42, 6, 0), (48, 1, 1), (49, 8, st)]]
    let up := s.pins.lsUp.getLsbD port = true
    let tells (st : Nat) : Prop := exec (.msgFrame port f) s
      = .next { s with pins := { s.pins with linkOut := s.pins.linkOut.ins port (cred st) } }
    (¬up → exec (.msgFrame port f) s = .next s)
    ∧ (up → s.su.alignDone = true → s.physical? f.deng.toNat = none → tells 2)
    ∧ (up → s.su.alignDone = true → s.physical? f.deng.toNat ≠ none → bit (s.rxOf n) 52 = false → tells 5)
    ∧ (∀ p, up → s.physical? f.deng.toNat ≠ none → bit (s.rxOf n) 52 = true →
        s.translate n f.landing f.len.toNat .write none true = .ok p →
        ∃ t, exec (.msgFrame port f) s = .next t ∧ t.mrs = { s.mrs with coming := s.mrs.coming ++ [⟨n, f, port, 0⟩] }
          ∧ s.asks t (.rxPayload n f port) n true p f.len.toNat f.payload ∧ s.only t [.mrs, .mesh]))
  ∧ (∀ (s : State) (port : Fin 96) (f : CredFrame), s.alive = true →
    let n := f.fn.val
    let k := pairKey n true f.chip.toNat f.src.toNat f.dst.toNat
    let full := s.fullCredits n
    let held := match s.mrs.pairs.look? k with | some p => p.credits | none => full
    let up := s.pins.lsUp.getLsbD port = true
    (¬up → exec (.credFrame port f) s = .next s)
    ∧ (up → f.confirm = none → f.credits ≠ 0 → held + f.credits.toNat < full → exec (.credFrame port f) s
      = .next { s with mrs := { s.mrs with pairs := s.mrs.pairs.ins k ⟨held + f.credits.toNat⟩ } })
    ∧ (up → f.confirm = none → f.credits ≠ 0 → held + f.credits.toNat = full → exec (.credFrame port f) s
      = .next { s with mrs := { s.mrs with pairs := if s.sendWaits k then s.mrs.pairs.ins k ⟨full⟩ else s.mrs.pairs.del k } })
    ∧ (up → f.confirm = none → f.credits ≠ 0 → full < held + f.credits.toNat → ∃ t, exec (.credFrame port f) s = .next t
      ∧ t.mrs = { s.mrs with pairs := if s.sendWaits k then s.mrs.pairs.ins k ⟨full⟩ else s.mrs.pairs.del k } ∧ t.ftt.log = s.ftt.log.offer 1024 63
        { code := 0x814, fn := some n } [s.recordOf { code := 0x814, fn := some n }] s.dlyNow s.now false
      ∧ s.only t [.mrs, .ftt, .mdu, .mesh, .hv])
    ∧ (∀ (e p : Nat) (x : Send) (st : BitVec 8), up → f.confirm = some st → (st.toNat = 0 ∨ st.toNat = 6 ∨ x.credited = false) →
      f.credits = 0 → s.framed? n f.chip.toNat f.src.toNat f.dst.toNat = some (e, x) →
      s.translate x.fn (x.desc + 16) 8 .write (some x.plot) false = .ok p → ∃ t, exec (.credFrame port f) s = .next t
      ∧ (t.engine e).sends = (s.engine e).sends.erase x ∧ s.otherEngines t e
      ∧ s.asks t (.msgStatus x.fn) x.fn true p 8 [pack [(0, 8, st.toNat), (8, 1, 1)]] ∧ s.only t [.eng, .mesh]))
  ∧ (∀ (s : State) (req : Req) (page : Fin 256) (v : W64), s.ftt.fatal = false → s.engineOk req page = true →
    let e := req.eng.val
    let d := s.logicalOf e
    let r := s.ring page d
    (fld v 37 8 ≠ (s.engine e).inc.toNat → ∃ t, exec (.mrsEcredit req page v) s = .next t ∧ t.mt.resp = 0 ∧ t.mrs = s.mrs
      ∧ s.only t [.mt, .ftt, .mdu, .mesh, .hv])
    ∧ (fld v 37 8 = (s.engine e).inc.toNat → s.mrs.coming = [] →
      let freed := min r.written (r.freed + fld v 0 13)
      let rings (t : State) : Prop := t.ring page d = { r with freed := freed }
        ∧ (∀ m j, j < 512 → (m ≠ page.val ∨ j ≠ d) → t.ring m j = s.ring m j)
      (fld v 31 6 = 0 → d < 512 → ∃ t, exec (.mrsEcredit req page v) s = .next t ∧ t.mt.resp = 0 ∧ rings t
        ∧ t.mrs.pairs = s.mrs.pairs ∧ s.only t [.mt, .mrs])
      ∧ (∀ p, fld v 31 6 ≠ 0 → bit v 21 = false → d < 512 →
        s.mrs.pairs.look? (pairKey page false 0 (fld v 22 9) d) = some p →
        p.credits + fld v 31 6 < s.fullCredits page → ∃ t, exec (.mrsEcredit req page v) s = .next t ∧ rings t
        ∧ t.mrs.pairs = s.mrs.pairs.ins (pairKey page false 0 (fld v 22 9) d) ⟨p.credits + fld v 31 6⟩
        ∧ s.only t [.mt, .mrs])
      ∧ (∀ p, fld v 31 6 ≠ 0 → bit v 21 = true → d < 512 → s.portTo? (fld v 13 8) = some p → s.su.alignDone = true →
        s.pins.lsUp.getLsbD p = true → ∃ t, exec (.mrsEcredit req page v) s = .next t ∧ t.mt.resp = 0 ∧ rings t
        ∧ t.mrs.pairs = s.mrs.pairs ∧ t.pins.linkOut = s.pins.linkOut.ins p [pack [(0, 8, 4), (8, 8, page.val),
            (16, 8, s.fm.active.chip.chip), (24, 9, fld v 22 9), (33, 9, d), (42, 6, fld v 31 6), (48, 1, 0), (49, 8, 0)]]
        ∧ s.only t [.mt, .mrs, .pins])))
  ∧ (∀ (s : State) (req : Req) (page : Fin 256) (v : W64), s.ftt.fatal = false → s.pageOk req page = true →
    let w := pack [(12, 36, fld v 12 36), (48, 4, max 4 (min 12 (fld v 48 4))), (52, 1, b2n (bit v 52)), (60, 4, fld v 60 4)]
    (bit (s.rxOf page) 52 = true → bit v 52 = true → exec (.mrsRxWrite req page v) s = .next (s.respond 0 0))
    ∧ (bit (s.rxOf page) 52 = false → ∃ t, exec (.mrsRxWrite req page v) s = .next t ∧ t.rxOf page = w
        ∧ (∀ m, m ≠ page.val → t.rxOf m = s.rxOf m) ∧ t.mrs.rings = s.mrs.rings ∧ t.mt.resp = 0 ∧ s.only t [.mt, .mrs])
    ∧ (bit (s.rxOf page) 52 = true → bit v 52 = false → ∃ t, exec (.mrsRxWrite req page v) s = .next t
        ∧ t.rxOf page = w ∧ (∀ m, m ≠ page.val → t.rxOf m = s.rxOf m) ∧ t.mt.resp = 0 ∧ s.only t [.mt, .mrs]
        ∧ (∀ kv ∈ t.mrs.rings, kv.1 / 512 ≠ page.val) ∧ t.mrs.pairs = s.mrs.pairs))

/-- R282 to R288, R303: the commands on models and sequences. A model is recorded under the free number the HGS picks, within
the function's quota, and freed when no sequence or live step is left; a sequence is admitted ACTIVE or SUSPENDED at the
tail of its level, when its lengths fit MAXLEN; EVICT frees an entry, at once or with its step's commit; PARK suspends and
resumes it; MOVE gives a SUSPENDED one another address. The model's own choices in it: log 33, 18. -/
def Obligations.SequenceCommands : Prop :=
  ∀ (s : State) (q : Fin 16384) (p : BitVec 512), s.heads q p →
    let n := fnOfQueue q
    let i := pf p 0 32 16
    let m := pf p 0 32 10
    let gives (c : Instr) (v : W64) (f : SeqUnit → Prop) : Prop := ∃ u, exec c s = .next (u.retire q 0 v) ∧ f u.stu
      ∧ u.hcf = (s.serve q).hcf ∧ s.only u [.stu, .hcf, .inSc]
    let entry (x : Seq') (u : SeqUnit) : Prop := u.seqs = s.stu.seqs.ins i x ∧ u.lists = s.stu.lists ∧ u.models = s.stu.models
    (∀ k : Fin 1024, opcode p = 0x30 →
      (s.owned? q (handleOf p) = none → exec (.stuModel q k) s = .next ((s.serve q).retire q stBadHandle 0))
      ∧ (s.owned? q (handleOf p) ≠ none →
        (1024 ≤ s.stu.models.length ∨ fld (s.stu.quota.look 0 n) 17 11 ≤ (s.stuHeld n).2 →
          exec (.stuModel q k) s = .next ((s.serve q).retire q 0x30 0))
        ∧ (s.stu.models.length < 1024 → (s.stuHeld n).2 < fld (s.stu.quota.look 0 n) 17 11 →
            s.stu.models.look? k = none → gives (.stuModel q k) (BitVec.ofNat 64 k)
              fun u => u.models = s.stu.models.ins k (modelOf q p) ∧ u.seqs = s.stu.seqs)))
    ∧ (opcode p = 0x31 →
      (s.model? n m = none → exec (.stuModelFree q) s = .next ((s.serve q).retire q 0x32 0))
      ∧ (s.model? n m ≠ none →
        ((∃ kv ∈ s.stu.seqs, kv.2.model = m) ∨ s.liveSteps m ≠ [] → exec (.stuModelFree q) s = .next ((s.serve q).retire q 0x33 0))
        ∧ ((∀ kv ∈ s.stu.seqs, kv.2.model ≠ m) → s.liveSteps m = [] →
            gives (.stuModelFree q) 0 fun u => u.models = s.stu.models.del m ∧ u.seqs = s.stu.seqs)))
    ∧ (∀ k : Fin 65536, opcode p = 0x32 →
      let len := pf p 2 0 23
      let prompt := pf p 2 23 23
      let maxlen := pf p 3 0 23
      let fits := 1 ≤ maxlen ∧ maxlen ≤ 4194304 ∧ len < maxlen ∧ len + prompt ≤ maxlen
      (s.model? n m = none → exec (.stuAdmit q k) s = .next ((s.serve q).retire q 0x32 0))
      ∧ (s.model? n m ≠ none → ¬ fits → exec (.stuAdmit q k) s = .next ((s.serve q).retire q 0x34 0))
      ∧ (s.model? n m ≠ none → fits → (65536 ≤ s.stu.seqs.length ∨ fld (s.stu.quota.look 0 n) 0 17 ≤ (s.stuHeld n).1) →
          exec (.stuAdmit q k) s = .next ((s.serve q).retire q 0x30 0))
      ∧ (s.model? n m ≠ none → fits → s.stu.seqs.length < 65536 → (s.stuHeld n).1 < fld (s.stu.quota.look 0 n) 0 17 →
          s.stu.seqs.look? k = none → gives (.stuAdmit q k) (BitVec.ofNat 64 k) fun u =>
            u.seqs = s.stu.seqs.ins k ⟨if pf p 0 44 1 = 1 then .suspended else .active, n, m, pf p 0 42 2, len, prompt, maxlen,
              false, false, false, 0, pw p 4, pw p 5, s.now⟩
            ∧ u.lists.look [] (m * 4 + pf p 0 42 2) = s.stu.lists.look [] (m * 4 + pf p 0 42 2) ++ [k.val]
            ∧ (∀ j, j ≠ m * 4 + pf p 0 42 2 → u.lists.look [] j = s.stu.lists.look [] j) ∧ u.models = s.stu.models))
    ∧ (∀ c, (opcode p = 0x34 ∧ c = .stuEvict q) ∨ (opcode p = 0x35 ∧ pf p 0 48 1 = 0 ∧ c = .stuParkSuspend q)
        ∨ (opcode p = 0x35 ∧ pf p 0 48 1 = 1 ∧ c = .stuParkResume q) ∨ (opcode p = 0x36 ∧ c = .stuMove q) →
        s.seq? n i = none → exec c s = .next ((s.serve q).retire q 0x31 0))
    ∧ (∀ x, s.seq? n i = some x →
      (opcode p = 0x34 →
        (x.st = .instep → gives (.stuEvict q) (pack [(0, 23, x.len), (23, 3, 2), (26, 1, 1)]) (entry { x with evictp := true }))
        ∧ (x.st ≠ .instep → gives (.stuEvict q) (pack [(0, 23, x.len), (23, 3, x.st.code), (26, 1, 0)]) fun u =>
            u.seqs = s.stu.seqs.del i ∧ u.models = s.stu.models
              ∧ u.lists.look [] (x.model * 4 + x.level) = (s.seqList x.model x.level).filter (· != i)))
      ∧ (opcode p = 0x35 → pf p 0 48 1 = 0 →
        (x.st = .active → gives (.stuParkSuspend q) 0 (entry { x with st := .suspended }))
        ∧ (x.st = .instep → gives (.stuParkSuspend q) 0 (entry { x with suspp := true }))
        ∧ (x.st = .suspended → exec (.stuParkSuspend q) s = .next ((s.serve q).retire q 0 0))
        ∧ (x.st = .done ∨ x.st = .faulted → exec (.stuParkSuspend q) s = .next ((s.serve q).retire q 0x33 0)))
      ∧ (opcode p = 0x35 → pf p 0 48 1 = 1 →
        (x.st = .active → exec (.stuParkResume q) s = .next ((s.serve q).retire q 0 0))
        ∧ (x.st = .instep → gives (.stuParkResume q) 0 (entry { x with suspp := false }))
        ∧ (x.st = .suspended → gives (.stuParkResume q) 0 fun u => u.seqs = s.stu.seqs.ins i { x with st := .active }
            ∧ u.models = s.stu.models ∧ u.lists.look [] (x.model * 4 + x.level)
              = (s.seqList x.model x.level).filter (· != i) ++ [i])
        ∧ (x.st = .done ∨ x.st = .faulted → exec (.stuParkResume q) s = .next ((s.serve q).retire q 0x33 0)))
      ∧ (opcode p = 0x36 →
        (x.st = .suspended → gives (.stuMove q) 0 (entry { x with addr := pw p 2 }))
        ∧ (x.st ≠ .suspended → exec (.stuMove q) s = .next ((s.serve q).retire q 0x33 0))))

/-- R290: STU_STEP fails for a number that is not the function's model, for a model with no ACTIVE sequence, and as a launch of
its graph would; it waits, or with NOWAIT fails, while a live step holds its buffer or its graph holds it; else it launches, and its step
stands before the composer. R291, R292: whatever the tables hold, a composed step has at most MAXSEQ records and at most STEPTOK
tokens. Each record names an entry that was ACTIVE when the step proceeded and is IN_STEP of this step afterwards, with a
token, or a chunk of its prompt, and never more than is left of its MAXLEN; every other entry is as it was. R292, R293,
R296, R302: 8 sc after the step proceeded the composer takes the walk's entries and writes the records and the header of
its buffer. DETOFF after its firing a deterministic step's roots open, or it is late. A step that ended reads its records
back; then its results take effect and its counts are written; one that is FAILING advances nothing and writes 0. The model's own choices in it: log 1, 25, 55. -/
def Obligations.StepsLaunchComposeAndCommit : Prop :=
  (∀ (s : State) (q : Fin 16384) (p : BitVec 512), s.heads q p → opcode p = 0x33 →
     let n := fnOfQueue q
     let m := pf p 0 32 10
     (s.model? n m = none → exec (.stuStep q) s = .next ((s.serve q).retire q 0x32 0))
     ∧ (∀ x, s.model? n m = some x →
       let semOk := x.semv = true → s.declared q x.sem = true
       let ends (st : Nat) : Prop := exec (.stuStep q) s = .next ((s.serve q).retire q st 0)
       let leaves (st : Nat) : Prop := exec (.stuStep q) s = .next (((s.serve q).leaveTurn q x.handle).retire q st 0)
       let waits (w : Nat) : Prop := ∃ t, exec (.stuStep q) s = .next t ∧ (t.queue q).st = .stalled ∧ (t.queue q).wait = w
         ∧ (t.queue q).rptr = (s.queue q).rptr ∧ t.sow = s.sow ∧ s.otherQueues t q ∧ s.only t [.gs, .hcf, .inSc]
       (s.hasActive m = false → ends 0x35)
       ∧ (s.hasActive m = true → ¬semOk → ends stSemUndeclared)
       ∧ (s.hasActive m = true → semOk → s.launchCheck q x.handle ≠ 0 → ends (s.launchCheck q x.handle))
       ∧ (∀ g, s.hasActive m = true → semOk → s.launchCheck q x.handle = 0 → s.graph? x.handle = some g →
         let hold := s.launchHold q x.handle g true
         (nowait p = true → hold = .limit → leaves 0x0C)
         ∧ (nowait p = true → hold = .shadow → leaves 0x0D)
         ∧ (hold ≠ .none → (nowait p = false ∨ (hold ≠ .limit ∧ hold ≠ .shadow)) → waits 2)
         ∧ (hold = .none → s.bufFree n m x = false → (nowait p = true → leaves 0x36) ∧ (nowait p = false → waits 15))
         ∧ (hold = .none → s.bufFree n m x = true → ∃ t, exec (.stuStep q) s = .next t
             ∧ s.launched t q x.handle g ∧ t.stu = { s.stu with queue := s.stu.queue ++ [sowKey n (s.nextSowId n)] }
             ∧ (t.queue q).head = .rooting (sowKey n (s.nextSowId n)) ∧ s.only t [.gs, .sow, .hcf, .hv, .inSc, .stu]))))
  ∧ (∀ (s : State) (m id t : Nat) (x : Model),
     let a := s.walk m x id t
     a.recs.length ≤ x.maxseq ∧ (a.recs.map (·.ntok)).sum ≤ x.steptok ∧ a.toks = (a.recs.map (·.ntok)).sum
       ∧ (∀ r ∈ a.recs, ∃ e, s.stu.seqs.look? r.seq = some e ∧ e.st = .active ∧ e.at' < t
           ∧ r.prefill = decide (0 < e.prompt)
           ∧ r.ntok = min (if 0 < e.prompt then min e.prompt x.chunk else 1) (e.maxlen - e.len)
           ∧ a.seqs.look? r.seq = some { e with st := .instep, stepsow := id })
       ∧ (∀ i, (∀ r ∈ a.recs, r.seq ≠ i) → a.seqs.look? i = s.stu.seqs.look? i)
       ∧ (a.recs.map (·.seq)).Nodup)
  ∧ ((∀ (s : State) (k : Nat) (r : List Nat) (w : Sowing) (x : StepInfo) (m : Model) (a b : Nat), s.alive = true →
     s.stu.queue = k :: r → s.sowing? k = some w → w.step = some x → s.stu.models.look? x.model = some m →
     w.st = .active → w.startAt + 8 ≤ s.now →
     let v := s.walk x.model m w.id.toNat w.startAt
     let base := m.bufAddr x.buf
     let header := [pack [(0, 32, w.id.toNat), (32, 17, v.recs.length)], pack [(0, 32, v.toks), (32, 10, x.model)], 0, 0]
     s.translate w.fn (base + 64) (32 * v.recs.length) .write (some w.plot) true = .ok a →
     s.translate w.fn base 32 .write (some w.plot) true = .ok b →
     (v.recs = [] → ∃ t, exec .stuCompose s = .next t ∧ t.sowing? k = some { w with step := some { x with recs := [], phase := .writing 1 } }
       ∧ (∀ j, j ≠ k → t.sowing? j = s.sowing? j) ∧ s.asks t (.workList k) w.fn true b 32 header
       ∧ s.only t [.stu, .sow, .hv, .mesh, .pru])
     ∧ (v.recs ≠ [] →
     ∃ u t, exec .stuCompose s = .next t ∧ t.stu = { s.stu with queue := r, seqs := v.seqs, rot := v.rot }
       ∧ t.sowing? k = some { w with step := some { x with recs := v.recs, phase := .writing 2 } }
       ∧ (∀ j, j ≠ k → t.sowing? j = s.sowing? j)
       ∧ s.asks u (.workList k) w.fn true a (32 * v.recs.length) (v.recs.flatMap fun e =>
           match s.stu.seqs.look? e.seq with | some y => e.encode y | none => [])
       ∧ u.asks t (.workList k) w.fn true b 32 header ∧ s.only t [.stu, .sow, .hv, .mesh, .pru]))
   ∧ (∀ (s : State) (fn : Fin 256) (id : BitVec 32) (w : Sowing) (x : StepInfo) (m : Model), s.alive = true →
     s.sowing? (sowKey fn id) = some w → w.step = some x → s.stu.models.look? x.model = some m →
     (m.det = true → w.st = .active → w.rootsAt = none → w.startAt + m.detoff ≤ s.now →
       (x.phase = .running → exec (.stepDetRoots fn id) s
         = .next (s.setSowing (sowKey fn id) { w with rootsAt := some s.now }))
       ∧ (x.phase ≠ .running → exec (.stepDetRoots fn id) s
           = .next (s.setSowing (sowKey fn id) { w with step := some { x with late := true } })))
     ∧ (w.st = .ending → w.code = 0 → x.phase = .running → x.recs = [] → exec (.stepCommit fn id) s
         = .next (s.setSowing (sowKey fn id) { w with step := some { x with phase := .reading (some []) } }))
     ∧ (∀ a, w.st = .ending → w.code = 0 → x.phase = .running → x.recs ≠ [] →
       s.translate w.fn (m.bufAddr x.buf + 64) (32 * x.recs.length) .read (some w.plot) true = .ok a →
       ∃ t, exec (.stepCommit fn id) s = .next t
         ∧ t.sowing? (sowKey fn id) = some { w with step := some { x with phase := .reading none } } ∧ t.stu = s.stu
         ∧ s.asks t (.commitRead (sowKey fn id)) w.fn false a (32 * x.recs.length) []
         ∧ s.only t [.sow, .mesh, .pru, .hv])
     ∧ (∀ a counts f, w.st = .ending →
       ((∃ ws, x.phase = .reading (some ws) ∧ counts = s.commitCounts x ws ∧ f = fun i => some (resultOf ws i))
         ∨ (w.code ≠ 0 ∧ x.phase = .running ∧ counts = 0 ∧ f = fun _ => none)
         ∨ ((x.phase = .composing ∨ ∃ n, x.phase = .writing n) ∧ counts = 0 ∧ f = fun _ => none)) →
       s.translate w.fn (m.bufAddr x.buf + 16) 8 .write (some w.plot) true = .ok a →
       ∃ t l, exec (.stepCommit fn id) s = .next t
         ∧ t.sowing? (sowKey fn id) = some { w with step := some { x with phase := .committing l } }
         ∧ t.stu = (s.applyCommit w x f).stu
         ∧ s.asks t (.commitWrite (sowKey fn id)) w.fn true a 8 [counts]
         ∧ s.only t [.stu, .sow, .mesh, .pru, .hv])))

/-- R321, R323, R324: a chip that has not joined sends JOIN through its port, unless its partner is of another field, and then
16 CAL_REQ, 512 sc apart; a joined chip answers
those of a port it accepted with its own stamps; each answer is recorded, and with the sixteenth calibration is done, with
the offset of the exchange of the smallest round trip. R324, R325: where both directions of the link take the same time d
and the parent's tick runs a sc ahead of the child's, an exchange within one tick measures a round trip of 2 d and an
offset of a, whatever the parent's turn-around; and of several exchanges the one used has the smallest round trip. The
model's own choices in it: log 41, 57, 58. -/
def Obligations.YokeJoinsAndCalibrates : Prop :=
  ((∀ (s : State) (p : Nat), s.alive = true → s.yoke.phase = .none → s.secondMaster = false → s.joinPort? = some p →
     (s.otherField p = true → ∃ t, exec .yokeJoinStart s = .next t ∧ t.ftt.log = s.ftt.log.offer 1024 63
         { code := 0x80E, arg := BitVec.ofNat 64 p } [s.recordOf { code := 0x80E, arg := BitVec.ofNat 64 p }] s.dlyNow s.now false
       ∧ s.only t [.ftt, .mdu, .mesh, .hv])
     ∧ (s.otherField p = false → ∃ t, exec .yokeJoinStart s = .next t ∧ t.yoke = { s.yoke with
           phase := .joining 0 s.now, recal := false, port := p, exch := [], hops := s.hopsVia p, parentTick := none, delay := 0 }
       ∧ (s.su.alignDone = true → s.pins.lsUp.getLsbD p = true → t.pins.linkOut.look? p = some (s.yokeFrame 1 [s.yoke.role, s.fm.active.chip.chips,
           s.fm.active.chip.tickPeriod, s.fm.active.chip.headland, s.fm.active.chip.cycleTicks, s.hopsVia p]))
       ∧ s.only t [.yoke, .pins]))
   ∧ (∀ (s : State) (n a : Nat), s.alive = true → s.yoke.phase = .joining n a → n < 16 → (n = 0 ∨ a + 512 ≤ s.now) →
     ∃ t, exec .calReqSend s = .next t ∧ t.yoke = { s.yoke with phase := .joining (n + 1) s.now }
       ∧ (s.su.alignDone = true → s.pins.lsUp.getLsbD s.yoke.port = true → t.pins.linkOut.look? s.yoke.port
           = some (s.yokeFrame 2 [s.tcs.tick.toNat, s.now - s.tcs.start]))
       ∧ s.only t [.yoke, .pins])
   ∧ (∀ (s : State) (port : Fin 96) (t0 : Stamp), s.alive = true → s.pins.lsUp.getLsbD port = true → s.yoke.joined = true →
     s.yoke.kids.look? port ≠ none →
     ∃ t, exec (.calReq port t0) s = .next t ∧ s.only t [.pins]
       ∧ (s.su.alignDone = true → t.pins.linkOut.look? port = some (s.yokeFrame 3 [t0.tick.toNat, t0.phase,
           s.tcs.tick.toNat, s.now - s.tcs.start, s.tcs.tick.toNat, s.now - s.tcs.start])))
   ∧ (∀ (s : State) (port : Fin 96) (t0 t1 t2 : Stamp) (n a : Nat), s.alive = true → s.pins.lsUp.getLsbD port = true →
     s.yoke.phase = .joining n a →
     port.val = s.yoke.port → s.yoke.exch.length < n →
     let x := exchangeOf s.period t0 t1 t2 ⟨s.tcs.tick, s.now - s.tcs.start⟩
     ∃ t, exec (.calRsp port t0 t1 t2) s = .next t ∧ t.yoke.exch = s.yoke.exch ++ [x] ∧ s.only t [.yoke]
       ∧ (s.yoke.exch.length ≠ 15 → t.yoke.phase = s.yoke.phase)
       ∧ (s.yoke.exch.length = 15 → t.yoke.phase = .ready ∧ t.yoke.delay = (bestExchange (s.yoke.exch ++ [x])).rtt.tdiv 2)))
  ∧ ((∀ (p : Nat) (t0 t1 t2 t3 : Stamp) (d a : Int), t0.tick = t3.tick → t1.tick = t2.tick → -(p : Int) ≤ 2 * a → 2 * a < p →
     (t1.phase : Int) = t0.phase + d + a → (t3.phase : Int) = t2.phase + d - a →
     exchangeOf p t0 t1 t2 t3 = ⟨2 * d, 2 * a⟩ ∧ (exchangeOf p t0 t1 t2 t3).theta = a)
   ∧ (∀ l : List Exchange, l ≠ [] → bestExchange l ∈ l ∧ ∀ y ∈ l, (bestExchange l).rtt ≤ y.rtt))

/-- R52, R321, R323, R326, R327, R330: frames are taken on ports that are up. JOIN is accepted from a chip of the same
configuration at most 2 hops from the master, else logged, and the port is no child's any more. A TICK of the joined port marks the master as seen; one more than 2 sc early starts calibration again, one early or
late by less is taken. STATUS records its port's count, and a loss of chips aborts the master's barriers. A standby hears from other members
that the master is seen; one whose parent is gone for two ticks of STATUS becomes the acting master. R334: a twin's result with the entry and the firing tick
of one held here is compared with it, and both are gone: equal results are counted, others reported in a pair of records.
One with no partner is held, and reported once it is 2 ticks old. The model's own choices in it: log 42, 57, 60, 61. -/
def Obligations.YokeTraffic : Prop :=
  ((∀ (s : State) (port : Fin 96) (f : JoinFrame), s.alive = true → s.pins.lsUp.getLsbD port = true → s.yoke.joined = true →
     s.isMaster = false →
     let out (t : State) : Prop := t.yoke = { s.yoke with kids := s.yoke.kids.del port } ∧ s.only t [.yoke, .ftt, .mdu, .mesh, .hv]
     (s.joinAgrees port f = true →
       (max f.hops (s.yoke.hops + 1) ≤ 2 → s.mirrorKid port = false → exec (.join port f) s
         = .next { s with yoke := { s.yoke with kids := s.yoke.kids.ins port 0 } })
       ∧ (2 < max f.hops (s.yoke.hops + 1) → s.mirrorKid port = false → ∃ t, exec (.join port f) s = .next t
         ∧ t.ftt.log = s.ftt.log.offer 1024 63 { code := 0x80F, arg := BitVec.ofNat 64 (max f.hops (s.yoke.hops + 1)) }
             [s.recordOf { code := 0x80F, arg := BitVec.ofNat 64 (max f.hops (s.yoke.hops + 1)) }] s.dlyNow s.now false
         ∧ out t))
     ∧ (s.joinAgrees port f = false → ∃ t, exec (.join port f) s = .next t
         ∧ t.ftt.log = s.ftt.log.offer 1024 63 { code := 0x80E, arg := BitVec.ofNat 64 port.val }
             [s.recordOf { code := 0x80E, arg := BitVec.ofNat 64 port.val }] s.dlyNow s.now false
         ∧ out t))
   ∧ (∀ (s : State) (port : Fin 96) (number : BitVec 48) (sent : Nat), s.alive = true → s.pins.lsUp.getLsbD port = true → s.yoke.phase = .joined →
     port.val = s.yoke.port → s.isMaster = true ∨ s.yoke.kids = [] →
     let p := s.period
     let early : Int := (sent + s.yoke.delay - (s.now - s.tcs.start : Nat) + p / 2) % p - p / 2
     (0 ≤ early → early ≤ 2 → exec (.tick port number sent) s = .next { s with yoke := { s.yoke with seen := true } })
     ∧ (early < 0 → ∃ t, exec (.tick port number sent) s = .next t ∧ t.yoke = { s.yoke with seen := true } ∧ s.only t [.yoke, .hv])
     ∧ (2 < early → ∃ t, exec (.tick port number sent) s = .next t
         ∧ t.yoke = { s.yoke with seen := true, phase := .joining 0 s.now, recal := true, exch := [] }
         ∧ t.ftt.log = s.ftt.log.offer 1024 63 { code := 0x810, arg := BitVec.ofInt 64 early }
             [s.recordOf { code := 0x810, arg := BitVec.ofInt 64 early }] s.dlyNow s.now false
         ∧ s.only t [.yoke, .ftt, .mdu, .mesh, .hv]))
   ∧ (∀ (s : State) (port : Fin 96) (joined hops old : Nat) (seen : Bool), s.alive = true → s.pins.lsUp.getLsbD port = true →
     s.yoke.kids.look? port = some old →
     (old ≤ joined ∨ s.isMaster = false → ∃ t, exec (.status port joined seen hops) s = .next t
       ∧ t.yoke.kids = s.yoke.kids.ins port joined ∧ t.yoke.kidSeen = (s.yoke.kidSeen || seen)
       ∧ (s.isMaster = false → t.yoke.count = s.yoke.count)
       ∧ (s.isMaster = true → s.yoke.joined = true → t.yoke.count = min 256 t.joinedSum)
       ∧ s.only t [.yoke])
     ∧ (∀ f b q, joined < old → s.isMaster = true → s.yoke.joined = true → s.mirrorKid port = false →
       s.barriers = [(f, b)] → s.barrierQueues f b = [q] → (s.queue q).head = .yoke none →
       ∃ u : State, exec (.status port joined seen hops) s = .next (u.retire q 0x52 0) ∧ u.hcf = s.hcf
         ∧ s.only u [.yoke, .pins]))
   ∧ (∀ (s : State) (port : Fin 96) (joined hops : Nat), s.alive = true → s.pins.lsUp.getLsbD port = true → s.yoke.role = 3 →
     s.yoke.kids.look? port = none → exec (.status port joined true hops) s
       = .next { s with yoke := { s.yoke with kidSeen := true, via := some port.val } })
   ∧ (∀ s : State, s.alive = true → s.yoke.role = 3 → s.fm.active.chip.role = 3 → s.hasPartner s.fm.active.chip.parent = false →
     2 ≤ s.yoke.missed → s.barriers = [] → ∃ t, exec .yokePromote s = .next t ∧ t.yoke.role = 2 ∧ t.yoke.promoted = true
       ∧ t.yoke.phase = .joined ∧ t.yoke.hops = 0 ∧ t.yoke.kids = s.yoke.kids ∧ t.yoke.count = min 256 t.joinedSum
       ∧ t.ftt.log = s.ftt.log.offer 1024 63 { code := 0x811, detail := 2 } [s.recordOf { code := 0x811, detail := 2 }]
           s.dlyNow s.now false
       ∧ s.only t [.yoke, .ftt, .mdu, .mesh, .hv]))
  ∧ ((∀ (s : State) (entry : Fin 4096) (firing : BitVec 48) (st : BitVec 16) (v : W64), s.alive = true →
     s.fm.active.chip.mirrorV = true → s.pins.lsUp.getLsbD s.fm.active.chip.mirrorPort = true →
     let b : Compare := ⟨entry, firing, st, v, s.entryFn entry, s.entryPlot entry, s.now⟩
     ((∀ x ∈ s.tcs.mine, ¬ (x.entry = entry.val ∧ x.tick = firing)) → exec (.digest entry firing st v) s
       = .next { s with tcs := { s.tcs with twins := s.tcs.twins ++ [b] } })
     ∧ (∀ a r, s.tcs.mine = a :: r → a.entry = entry.val → a.tick = firing →
       (a.status = 0 → st = 0 → a.digest = v → ∃ t, exec (.digest entry firing st v) s = .next t
         ∧ t.tcs = { s.tcs with mine := r } ∧ s.only t [.tcs, .hv])
       ∧ (¬ (a.status = 0 ∧ st = 0 ∧ a.digest = v) → (s.faultQ a.fn).recs.length + 2 ≤ 64 →
         (s.faultQ a.fn).quiet 0x308 s.now = true → (s.faultQ a.fn).freshAt ≠ s.now →
         ∃ t, exec (.digest entry firing st v) s = .next t ∧ t.tcs = { s.tcs with mine := r }
           ∧ (t.faultQ a.fn).recs = (s.faultQ a.fn).recs
               ++ [s.recordOf { code := 0x308, fn := some a.fn, plot := some a.plot, index := a.entry
                                detail := a.status.toNat, arg := a.digest },
                   s.recordOf { code := 0x308, fn := some a.fn, plot := some a.plot, index := entry.val + 4096
                                detail := st.toNat, arg := v }]
           ∧ s.only t (.tcs :: reporting))))
   ∧ (∀ (s : State) (x : Compare) (r : List Compare), s.alive = true →
     (s.faultQ x.fn).recs.length < 64 → (s.faultQ x.fn).quiet 0x309 s.now = true → (s.faultQ x.fn).freshAt ≠ s.now →
     x.at' + 2 * s.period ≤ s.now →
     let told (t : State) (why : Nat) : Prop := (t.faultQ x.fn).recs = (s.faultQ x.fn).recs
       ++ [s.recordOf { code := 0x309, fn := some x.fn, plot := some x.plot, index := x.entry, detail := why }]
     (s.tcs.mine = x :: r → ∃ t, exec .mirrorMissing s = .next t ∧ t.tcs = { s.tcs with mine := r } ∧ told t 1
       ∧ s.only t (.tcs :: reporting))
     ∧ (s.tcs.mine = [] → s.tcs.twins = x :: r → ∃ t, exec .mirrorMissing s = .next t ∧ t.tcs = { s.tcs with twins := r }
       ∧ told t 2 ∧ s.only t (.tcs :: reporting))))

/-- R52, R53: on a port that is up two HELLOs that agree announce their sender, once; 65,536 sc of silence, or the port's going
down, end the partnership. Every 16,384 sc a HELLO goes out on every port that is up. A frame of a reserved type is counted
and does nothing. The model's own choices in it: log 3, 47, 75. -/
def Obligations.LinksFindPartners : Prop :=
  (∀ (s : State) (port : Fin 96), s.alive = true →
    let r := s.port port
    let others (t : State) : Prop := ∀ p, p ≠ port.val → t.port p = s.port p
    (s.pins.lsUp.getLsbD port = false → ∃ t, exec (.linkUp port) s = .next t ∧ t.pins.lsUp.getLsbD port = true
      ∧ t.port port = { r with last := none, lastAt := s.now, agreed := 0 } ∧ others t ∧ s.only t [.pins, .link])
    ∧ (s.pins.lsUp.getLsbD port = true → r.partner = none → ∃ t, exec (.partnerDepart port) s = .next t
      ∧ t.pins.lsUp.getLsbD port = false ∧ t.pins.linkOut.look? port = none ∧ t.port port = r ∧ others t ∧ s.only t [.pins])
    ∧ (∀ h, s.pins.lsUp.getLsbD port = true → r.partner = some h → ∃ t, exec (.partnerDepart port) s = .next t
      ∧ t.pins.lsUp.getLsbD port = false ∧ (t.port port).partner = none ∧ others t)
    ∧ (∀ h, r.partner = some h → r.lastAt + 65536 ≤ s.now → h.field.toNat ≠ s.fm.active.chip.field →
      s.yoke.kids.look? port = none → port.val ≠ s.yoke.port → s.isMaster = false →
      ∃ t, exec (.helloSilenceTimeout port) s = .next t ∧ t.port port = { r with partner := none, last := none, agreed := 0 }
        ∧ t.ftt.log = s.ftt.log.offer 1024 63 { code := 0x80D, arg := partnerArg port h }
            [s.recordOf { code := 0x80D, arg := partnerArg port h }] s.dlyNow s.now false
        ∧ others t ∧ s.only t [.link, .free, .ccx, .ftt, .mdu, .mesh, .hv, .yoke])
    ∧ (∀ f, s.pins.lsUp.getLsbD port = true →
      (r.last ≠ some f → ∃ t, exec (.hello port f) s = .next t
        ∧ t.port port = { r with last := some f, lastAt := s.now, agreed := 1 } ∧ others t ∧ s.only t [.link])
      ∧ (r.last = some f → r.partner = some f → ∃ t, exec (.hello port f) s = .next t
        ∧ t.port port = { r with last := some f, lastAt := s.now, agreed := 2 } ∧ others t ∧ s.only t [.link])
      ∧ (r.last = some f → r.partner ≠ some f → s.isMaster = false → s.su.step ≠ 6 → s.su.step ≠ 7 →
        ∃ t, exec (.hello port f) s = .next t
        ∧ t.port port = { r with last := some f, lastAt := s.now, agreed := 2, partner := some f } ∧ others t
        ∧ t.ftt.log = s.ftt.log.offer 1024 63 { code := 0x80C, arg := partnerArg port f }
            [s.recordOf { code := 0x80C, arg := partnerArg port f }] s.dlyNow s.now false
        ∧ s.only t [.link, .free, .ccx, .ftt, .mdu, .mesh, .hv]))
    ∧ (∀ ty sub : BitVec 8, s.pins.lsUp.getLsbD port = true → ¬ (1 ≤ ty.toNat ∧ ty.toNat ≤ 4) →
      ∃ t, exec (.reservedFrame port ty sub) s = .next t ∧ t.port port = { r with discarded := r.discarded + 1 } ∧ others t
        ∧ s.only t [.link]))
  ∧ (∀ s : State, s.alive = true → s.su.alignDone = true → s.link.helloAt + 16384 ≤ s.now →
    ∃ t, exec .helloSend s = .next t ∧ t.link = { s.link with helloAt := s.now } ∧ s.only t [.link, .pins]
      ∧ (∀ p, p < 96 → s.pins.lsUp.getLsbD p = true → t.pins.linkOut.look? p = some [pack [(0, 8, 1),
          (16, 8, s.fm.active.chip.chip), (24, 16, s.fm.active.chip.field), (40, 2, s.yoke.role)]])
      ∧ (∀ p, s.pins.lsUp.getLsbD p = false → t.pins.linkOut.look? p = s.pins.linkOut.look? p))

/-- R48 to R51, R414, R415, R448: a request starts a function reset with its cause, which ends every sowing of the function; a
request while one is in progress merges with it. Before release an FLR is answered at once; an
answer is a pulse of hb_flr_done_o, one to an sc, and waits for the alignment (R23). Fewer virtual functions reset
those that are gone, more enable them; bus mastering is a function's own bit. R414: an engine that has not answered 500 µs
after the reset began is given up and counted. With no engine left to wait for the reset completes: the function has no
graph, model or sequence left, its queues are at their reset values but for their plot, its fault queue holds the one
FN_RESET record, and an FLR is answered. The model's own choices in it: log 51, 81, 82, 109. -/
def Obligations.FunctionResetsBeginAndComplete : Prop :=
  (∀ (s : State) (fn : Fin 256), s.alive = true →
     let answered (s t : State) : Prop := if s.su.alignDone then ∃ a, s.now ≤ a ∧ (a, fn.val) ∈ t.pins.flrDone
         ∧ (∀ x ∈ s.pins.flrDone, s.now ≤ x.1 → x ∈ t.pins.flrDone) else fn.val ∈ t.pins.flrHeld
     let merged (r : FnReset) (pulse : Bool) : State :=
       { s with ftt := { s.ftt with resets := s.ftt.resets.ins fn { r with pulse := r.pulse || pulse } } }
     let starts (c : Instr) (cause : BitVec 3) (pulse : Bool) : Prop := ∃ t r, exec c s = .next t
       ∧ t.ftt.resets.look? fn = some r ∧ r.cause = cause ∧ r.pulse = pulse ∧ r.at' = s.now
       ∧ r.sowings = ((s.sowingsOf fn).filter fun kv => kv.2.st != .retired).length
       ∧ (∀ m, m ≠ fn.val → (t.ftt.resets.look? m).isSome = (s.ftt.resets.look? m).isSome)
       ∧ (∀ k, ofFn fn k = true → t.sowing? k = none)
     (s.su.released = false →
       exec (.flrRequest fn) s = .next (s.flrPulse fn) ∧ answered s (s.flrPulse fn) ∧ s.only (s.flrPulse fn) [.pins])
     ∧ (s.su.released = true →
       (∀ r, s.ftt.resets.look? fn = some r → exec (.flrRequest fn) s = .next (merged r true))
       ∧ (s.ftt.resets.look? fn = none → starts (.flrRequest fn) 1 true))
     ∧ (∀ (req : Req) (v : W64), s.globalOk req = true → fld v 0 8 = fn.val →
       (bit v 8 = false → exec (.fttFnrstGo req v) s = .next (s.respond 0 0))
       ∧ (∀ r, bit v 8 = true → s.ftt.resets.look? fn = some r →
           exec (.fttFnrstGo req v) s = .next ((merged r false).respond 0 0))
       ∧ (bit v 8 = true → s.ftt.resets.look? fn = none → starts (.fttFnrstGo req v) 2 false))
     ∧ (∀ v : BitVec 8, s.su.released = true →
       (s.pins.numvf.toNat < v.toNat → exec (.vfEnable v) s = .next { s with pins := { s.pins with numvf := v } })
       ∧ (v.toNat < s.pins.numvf.toNat → ∃ t, exec (.vfDisable v) s = .next t ∧ t.pins.numvf = v
           ∧ (∀ n, v.toNat < n → n ≤ s.pins.numvf.toNat → t.ftt.resets.look? n ≠ none)
           ∧ (∀ n, (n ≤ v.toNat ∨ s.pins.numvf.toNat < n) → (t.ftt.resets.look? n).isSome = (s.ftt.resets.look? n).isSome)))
     ∧ (s.su.released = true →
       (exec (.busMasterEnableChange fn false) s
         = .next { s with pins := { s.pins with bme := s.pins.bme &&& ~~~BitVec.ofNat 256 (2 ^ fn.val) } })
       ∧ (∃ t, exec (.busMasterEnableChange fn true) s = .next t)
       ∧ (s.mesh.waiting = [] → ∃ t, exec (.busMasterEnableChange fn true) s = .next t ∧ t.pins.bme.getLsbD fn = true
           ∧ (∀ n, n ≠ fn.val → t.pins.bme.getLsbD n = s.pins.bme.getLsbD n)
           ∧ (∀ q, fnOfQueue q ≠ fn.val → t.queue q = s.queue q) ∧ s.only t [.pins, .hcf])))
  ∧ (∀ (s : State) (fn : Fin 256) (r : FnReset), s.alive = true →
     let answered (s t : State) : Prop := if s.su.alignDone then ∃ a, s.now ≤ a ∧ (a, fn.val) ∈ t.pins.flrDone
         ∧ (∀ x ∈ s.pins.flrDone, s.now ≤ x.1 → x ∈ t.pins.flrDone) else fn.val ∈ t.pins.flrHeld
     s.ftt.resets.look? fn = some r →
     let counts : W64 := pack [(0, 16, r.sowings), (16, 24, r.tasks),
       (40, 16, (s.gs.graphs.filter fun kv => kv.2.owner == fn.val).length), (56, 8, r.silent)]
     (∀ eng : Fin 512, r.at' + 1000000 ≤ s.now → r.wait.contains eng.val = true →
       ∃ t r', exec (.fnResetEngineTimeout fn eng) s = .next t ∧ t.ftt.resets.look? fn = some r'
         ∧ r'.silent = r.silent + 1 ∧ r'.cause = r.cause ∧ r'.at' = r.at' ∧ (t.engine eng).service = .out)
     ∧ (r.wait ≠ [] → exec (.fnResetComplete fn) s = .next s)
     ∧ (r.wait = [] → r.at' + 8 * s.semBlocks fn ≤ s.now → (∀ e ∈ engineIds, s.holdsFn e fn = false) →
       s.sm.waiters = [] → ∃ t, exec (.fnResetComplete fn) s = .next t ∧ t.ftt.resets.look? fn = none
         ∧ (∀ m, m ≠ fn.val → t.ftt.resets.look? m = s.ftt.resets.look? m)
         ∧ (r.pulse = true → t.pins = (s.flrPulse fn).pins ∧ answered s t) ∧ (r.pulse = false → t.pins = s.pins)
         ∧ (∀ h g, t.graph? h = some g → g.owner ≠ fn.val) ∧ (∀ h, (∀ kv ∈ s.gs.graphs, kv.1 = h → kv.2.owner ≠ fn.val) → t.graph? h = s.graph? h)
         ∧ (∀ kv ∈ t.stu.models, kv.2.fn ≠ fn.val) ∧ (∀ kv ∈ t.stu.seqs, kv.2.fn ≠ fn.val)
         ∧ (∀ q, fnOfQueue q = fn.val →
             t.queue q = { Queue.reset with plot := (s.queue q).plot, held := (s.queue q).held })
         ∧ (∀ q, fnOfQueue q ≠ fn.val → t.queue q = s.queue q)
         ∧ (t.channel (2 + fn.val)).hostOut.bits = 0x80000000
         ∧ (t.faultQ fn).recs = [s.recordOf { code := 0x30A, fn := some fn.val, detail := r.cause.toNat, arg := counts }]))

/-- R393, R394, R395, R396: while a command of FM_CTRL is in progress another is ignored with BUSY. LOAD reads the image at
FM_SRC, its header and then the rest of its SIZE bytes, and clears SHVALID, RECALL reads the saved map from the store; the
checks that follow decide SHVALID and leave the active map alone. SWAP fails with NO_SHADOW without SHVALID and with LATE for a tick that is past or too near, and is pending
otherwise. SAVE writes the active map to the store. R62, R63, R65, R394: an operation of the persistent store that succeeds
writes its word and the next one follows; the last one ends its job. A failed one is repeated once, with its word unknown,
and a second failure gives the record up with NV_FAIL; an operation that reaches its bound counts as failed, and is repeated
when the port is free; the store is unavailable when it stays busy, or the repeat reaches its bound. The model's own choices
in it: log 34, 35, 37, 103. -/
def Obligations.FieldMapCommandsAct : Prop :=
  ((∀ (s : State) (req : Req) (atv : Bool) (tick : BitVec 48), s.ftt.fatal = false → s.globalOk req = true →
     let late := tickGe s.tcs.tick tick || (tick == s.tcs.tick + 1 && decide (s.tcs.edge < s.now + 64))
     let gives (c : Instr) (f : FieldMaps) : Prop := ∃ t, exec c s = .next t ∧ t.fm = f ∧ t.mt.resp = 0 ∧ s.only t [.mt, .fm]
     (∀ c ∈ [Instr.fmLoad req, .fmRecall req, .fmSave req, .fmSwap req atv tick], s.fm.state ≠ .idle →
       gives c { s.fm with err := 16 })
     ∧ (s.fm.state = .idle →
       (∃ t, exec (.fmLoad req) s = .next t ∧ t.fm = { s.fm with
             busyAt := s.now, state := .loading, shvalid := false, image := none, failed := false, head := [] }
           ∧ s.asks t (.mapImage true) 0 false s.fm.src.toNat 64 [] ∧ t.mt.resp = 0 ∧ s.only t [.mt, .fm, .mesh])
       ∧ (s.nv.job = none → s.nv.next = [] → s.nv.gone = false → ∃ t, exec (.fmRecall req) s = .next t
           ∧ t.fm = { s.fm with
             busyAt := s.now, state := .recalling, shvalid := false, image := none, failed := false, head := [] }
           ∧ t.nv.job = some .recall ∧ t.nv.ops = s.recallReads ∧ t.nv.issued = some s.now ∧ t.mt.resp = 0
           ∧ t.nv.words = s.nv.words ∧ s.only t [.mt, .fm, .nv])
       ∧ (∀ j, s.nv.job = some j → ∀ c k st, (c = Instr.fmRecall req ∧ k = NvJob.recall ∧ st = FmState.recalling
             ∨ c = Instr.fmSave req ∧ k = NvJob.save ∧ st = FmState.saving) → ∃ t, exec c s = .next t ∧ t.fm.state = st
           ∧ t.nv = { s.nv with next := s.nv.next ++ [k] } ∧ t.mt.resp = 0 ∧ s.only t [.mt, .fm, .nv])
       ∧ (s.fm.shvalid = false → gives (.fmSwap req atv tick) { s.fm with
           busyAt := s.now, state := .idle, err := 14, erridx := 0, image := none, failed := false })
       ∧ (s.fm.shvalid = true → atv = true → late = true → gives (.fmSwap req atv tick) { s.fm with
           busyAt := s.now, state := .idle, err := 15, erridx := 0, image := none, failed := false })
       ∧ (s.fm.shvalid = true → (atv = false ∨ late = false) → gives (.fmSwap req atv tick) { s.fm with
           busyAt := s.now, state := .swapPending, swap := some (s.now, if atv then some tick else none) })
       ∧ (s.nv.job = none → s.nv.next = [] → s.nv.gone = false → ∃ t, exec (.fmSave req) s = .next t
           ∧ t.fm = { s.fm with busyAt := s.now, state := .saving } ∧ t.nv.job = some .save ∧ t.nv.ops = s.saveOps
           ∧ t.nv.issued = some s.now ∧ t.nv.words = s.nv.words ∧ s.only t [.mt, .fm, .nv])))
   ∧ (∀ (s : State) (id : Fin 512) (x : Xfer) (ws : Words), s.alive = true → s.mesh.waiting = [] → s.xfer? id = some x →
     x.retryAt = none → x.last = true → x.fits ws = true →
     let h := x.got ++ ws
     (x.purpose = .mapImage true → headerBad h = false → ∃ t, exec (.meshResponse id .ok ws) s = .next t
       ∧ t.fm = { s.fm with head := h }
       ∧ (s.dropXfer x).asks t (.mapImage false) 0 false (x.addr + 64) (fld (h.at 1) 0 32 - 64) [] ∧ s.only t [.fm, .mesh])
     ∧ (x.purpose = .mapImage true → headerBad h = true → ∃ t, exec (.meshResponse id .ok ws) s = .next t
       ∧ t.fm = { s.fm with image := some h } ∧ t.mesh = (s.dropXfer x).mesh ∧ s.only t [.fm, .mesh])
     ∧ (x.purpose = .mapImage false → ∃ t, exec (.meshResponse id .ok ws) s = .next t
       ∧ t.fm = { s.fm with image := some (s.fm.head ++ h) } ∧ t.mesh = (s.dropXfer x).mesh ∧ s.only t [.fm, .mesh]))
   ∧ (∀ s : State, s.alive = true → s.fm.boot = .none →
     let ends (code idx : Nat) : Prop := ∃ t, exec .fmLoadDone s = .next t ∧ t.fm.state = .idle
       ∧ t.fm.err = BitVec.ofNat 5 code ∧ t.fm.erridx = BitVec.ofNat 13 idx ∧ t.fm.active = s.fm.active
       ∧ t.fm.swap = s.fm.swap ∧ s.only t [.fm, .free, .ccx]
     (s.fm.state = .loading → s.fm.failed = true → ends 1 0)
     ∧ (∀ ws, (s.fm.state = .loading ∨ s.fm.state = .recalling) → s.fm.failed = false → s.fm.image = some ws →
         ends (s.checkImage ws).2.1 (s.checkImage ws).2.2 ∧ ∃ t, exec .fmLoadDone s = .next t
           ∧ t.fm.shadow = (s.checkImage ws).1 ∧ t.fm.shvalid = ((s.checkImage ws).2.1 == 0))
     ∧ (s.fm.state = .recalling → s.fm.failed = true → ends 17 0)))
  ∧ (∀ (s : State) (op : NvOp) (rest : List NvOp) (a : Nat), s.alive = true → s.nv.ops = op :: rest → s.nv.issued = some a →
     let failed (detail : Nat) (t : State) : Prop := t.ftt.log = s.ftt.log.offer 1024 63
       { code := 0x80A, detail := detail, arg := BitVec.ofNat 64 op.addr }
       [s.recordOf { code := 0x80A, detail := detail, arg := BitVec.ofNat 64 op.addr }] s.dlyNow s.now false
     (s.nv.bound = false → nvRest s.nv.ops ≠ [] → ∃ t, exec (.nvOpDone false) s = .next t ∧ t.nv.ops = nvRest s.nv.ops
       ∧ t.nv.job = s.nv.job ∧ t.nv.second = false ∧ t.nv.issued = some s.now ∧ s.only t [.nv, .pins]
       ∧ (∀ i w, op = .program i w → t.nvWord i = w ∧ ∀ j, j ≠ i → t.nvWord j = s.nvWord j))
     ∧ (s.nv.bound = false → nvRest s.nv.ops = [] → s.nv.job = some .recall → s.nv.next = [] → (∃ i, op = .read i 1) →
       ∃ t, exec (.nvOpDone false) s = .next t ∧ t.nv.ops = [] ∧ t.nv.job = none ∧ t.fm.image = s.savedMap?
       ∧ t.fm.failed = s.savedMap?.isNone ∧ t.fm.state = s.fm.state ∧ s.only t [.nv, .fm, .pins])
     ∧ (s.nv.bound = false → nvRest s.nv.ops = [] → s.nv.job = some .save → s.nv.next = [] → ∃ t, exec (.nvOpDone false) s = .next t
       ∧ t.nv.ops = [] ∧ t.nv.job = none ∧ t.nv.issued = none ∧ t.fm.state = .idle ∧ t.fm.err = 0
       ∧ t.fm.active = s.fm.active ∧ s.only t [.nv, .fm, .free, .ccx, .pins])
     ∧ (s.nv.bound = false → s.nv.second = false → ∃ t, exec (.nvOpDone true) s = .next t ∧ t.nv.ops = s.nv.ops
       ∧ t.nv.job = s.nv.job ∧ t.nv.second = true ∧ t.nv.issued = some s.now ∧ s.only t [.nv, .free, .pins]
       ∧ (∀ i w j, op = .program i w → j ≠ i → t.nvWord j = s.nvWord j))
     ∧ (s.nv.bound = false → s.nv.second = true → s.nv.job = some .save → s.nv.next = [] →
       ∃ t, exec (.nvOpDone true) s = .next t ∧ failed 1 t ∧ t.nv.ops = [] ∧ t.nv.job = none ∧ t.fm.state = .idle
         ∧ t.fm.err = 17 ∧ s.only t [.nv, .free, .fm, .ftt, .mdu, .mesh, .hv, .pins])
     ∧ (s.nv.bound = true → ∀ err, ∃ t, exec (.nvOpDone err) s = .next t ∧ s.only t [.nv, .pins]
       ∧ t.nv = { s.nv with second := true, bound := false, issued := some s.now })
     ∧ (s.nv.bound = false → a + op.bound ≤ s.now → s.nv.second = false → ∃ t, exec .nvOpTimeout s = .next t ∧ failed 2 t
       ∧ t.nv.ops = s.nv.ops ∧ t.nv.job = s.nv.job ∧ t.nv.issued = some s.now
       ∧ t.nv.bound = s.drawBit.1 ∧ t.nv.second = !s.drawBit.1
       ∧ (∀ i w j, op = .program i w → j ≠ i → t.nvWord j = s.nvWord j)
       ∧ s.only t [.nv, .free, .pins, .ftt, .mdu, .mesh, .hv])
     ∧ (s.nv.job = some .save → s.nv.next = [] → ∃ t, exec .nvOpTimeout s = .next t
       ∧ s.only t [.nv, .free, .pins, .fm, .ftt, .mdu, .mesh, .hv]
       ∧ (let givenUp : Prop := t.nv.gone = true ∧ t.nv.job = none ∧ t.fm.err = 17 ∧ t.fm.state = .idle
          (s.nv.bound = true → if s.drawBit.1 then a + 20000000 ≤ s.now → failed 3 t ∧ givenUp
            else t.nv = { s.nv with second := true, bound := false, issued := some s.now })
          ∧ (s.nv.bound = false → s.nv.second = true → a + op.bound ≤ s.now → givenUp))))

/-- R16, R42, R43, R45, R46, R195, R413: a beat of a burst waits for the one that commits; an abort drops the burst. An access
that is not aligned to its width, that another function makes to the global page, or that writes in the FATAL state is
refused: TGT_ERR, read data 0, and a log record. A read of 1 to 4 beats answers the words of the harvest and the trace
aperture. The firmware reads its side of a mailbox. A write of a queue's register acts as the command of that register, or
clamps the value into its field; a read answers the register and changes nothing. R43: a function page answers no other
function: an access to a register of page m by a requester that is neither function m, nor secure, nor an engine, is
refused. The model's own choices in it: log 16, 101. -/
def Obligations.RegisterAccessesAreTakenOrRefused : Prop :=
  ((∀ (s : State) (req : Req), exec (.writeBurstAbort req) s
       = .next { s with mt := { s.mt with bursts := s.mt.bursts.filter fun x => x.req != req } })
   ∧ (∀ (s : State) (acc : Access), acc.mapped = false → acc.write = true → acc.commit = false → exec (.registerWrite acc) s
       = .next { s with mt := { s.mt with bursts := s.mt.bursts ++ [acc] } })
   ∧ (∀ (s : State) (acc : Access), acc.mapped = false → (acc.write = false ∨ (acc.commit = true ∧ s.openBeats acc.req = [])) →
     let refused : Prop := ∃ o, exec (.registerWrite acc) s = .next (s.refuse acc.req o)
     ((∀ n, acc.width ≠ .beats n) → acc.aligned = false → refused)
     ∧ (acc.write = true → s.ftt.fatal = true → refused)
     ∧ (acc.base < 0x100000 → acc.req.fn ≠ 0 → acc.req.sec = false → s.globalWord? acc.base ≠ none → refused))
   ∧ (∀ (s : State) (req : Req) (o : Nat), ∃ t, s.refuse req o = t ∧ t.mt = { s.mt with resp := 1, rdata := 0, rbeats := [] }
       ∧ s.only t [.mt, .ftt, .mdu, .mesh, .hv]
       ∧ (s.su.step ≠ 1 → s.su.step ≠ 2 → s.su.step ≠ 3 →
           let r : Report := { code := 0x801, fn := some req.fn.val, aux := o, detail := Source.code req.src }
           t.ftt.log = s.ftt.log.offer 1024 63 r [s.recordOf r] s.dlyNow s.now false))
   ∧ (∀ (s : State) (acc : Access) (n : Fin 4), acc.mapped = false → acc.write = false → acc.width = .beats n →
     s.globalOk acc.req = true → 0x2200000 ≤ acc.offset.val / 64 * 64 → reservedPart (acc.offset.val / 64 * 64) = false →
     ∃ t, exec (.registerWrite acc) s = .next t ∧ t.mt.resp = 0 ∧ s.only t [.mt]
       ∧ t.mt.rbeats = (List.range (8 * (n.val + 1))).map fun i => s.apertureWord (acc.offset.val / 64 * 64 + 8 * i))
   ∧ (∀ (s : State) (acc : Access) (c : Nat), acc.mapped = true → acc.write = false → acc.width = .word64 → c < 258 →
     acc.offset.val = 0x2000000 + c * 0x100 + 0x38 →
     exec (.registerWrite acc) s = .next (s.respond 0 ((s.channel c).qstat true)))
   ∧ (∀ (s : State) (acc : Access) (q : Fin 16384), acc.mapped = false → acc.width = .word64 → acc.commit = true → s.openBeats acc.req = [] →
     let v := acc.value
     let same (c : Instr) : Prop := ∃ t, exec c s = .next t ∧ exec (.registerWrite acc) s = .next t
     (acc.write = true →
       (acc.offset.val = queueAt q 0x18 → s.pageOk acc.req (fnOfQueue q) = true → same (.hcfQdb acc.req q (v.truncate 32)))
       ∧ (acc.offset.val = queueAt q 0x20 → s.pageOk acc.req (fnOfQueue q) = true → same (.hcfQptrWrite acc.req q (v.truncate 32)))
       ∧ (acc.offset.val = queueAt q 0x38 → s.pageOk acc.req (fnOfQueue q) = true → v = 2 → same (.resume acc.req q))
       ∧ (acc.offset.val = queueAt q 0x10 → s.pageOk acc.req (fnOfQueue q) = true → s.ftt.fatal = false →
           ∃ t, exec (.registerWrite acc) s = .next t ∧ t.mt.resp = 0
             ∧ t.queue q = { s.queue q with limit := max 1 (min 3600000000 (fld v 0 32)) }
             ∧ s.otherQueues t q ∧ s.only t [.mt, .hcf]))
     ∧ (acc.write = false → s.pageOk acc.req (fnOfQueue q) = true →
       (acc.offset.val = queueAt q 0x28 → exec (.registerWrite acc) s = .next (s.respond 0 (s.queue q).stat))
       ∧ (acc.offset.val = queueAt q 0x20 → exec (.registerWrite acc) s = .next (s.respond 0
           (pack [(0, 32, (s.queue q).rptr.toNat), (32, 32, (s.queue q).wptr.toNat)]))))))
  ∧ (∀ (s : State) (acc : Access) (m : Fin 256) (o : Nat), acc.base = 0x1000000 + m.val * 0x10000 + o → o < 0x10000 →
     s.pageWord? m o ≠ none → acc.req.fn ≠ m → acc.req.sec = false → acc.req.src ≠ .engine → acc.mapped = false →
     (acc.write = false ∨ (acc.commit = true ∧ s.openBeats acc.req = [])) →
     ∃ r, exec (.registerWrite acc) s = .next (s.refuse acc.req r))
end

