-- ==== Sys2Proof/Laws/Tab.lean ====
section
/-! SUPPORT. Reading a table after a write, and that every table operation keeps the canonical form. -/
namespace Sys2Proof.Machine

variable {β : Type}

@[simp] theorem Tab.look?_nil (k : Nat) : Tab.look? ([] : Tab β) k = none := rfl

@[simp] theorem Tab.look_nil (d : β) (k : Nat) : Tab.look d [] k = d := rfl

@[simp] theorem Tab.look?_ins_same (t : Tab β) (k : Nat) (v : β) : (t.ins k v).look? k = some v := by
  induction t with
  | nil => simp [Tab.ins, Tab.look?]
  | cons e r ih =>
    obtain ⟨k', v'⟩ := e
    unfold Tab.ins
    split
    · simp [Tab.look?]
    · split
      · simp [Tab.look?]
      · have : k' ≠ k := by omega
        simp [Tab.look?, this, ih]

theorem Tab.look?_ins_of_ne (t : Tab β) {j k : Nat} (v : β) (h : j ≠ k) : (t.ins k v).look? j = t.look? j := by
  induction t with
  | nil => simp [Tab.ins, Tab.look?, Ne.symm h]
  | cons e r ih =>
    obtain ⟨k', v'⟩ := e
    unfold Tab.ins
    split
    · simp [Tab.look?, Ne.symm h]
    · split
      · rename_i hk; subst hk; simp [Tab.look?, Ne.symm h]
      · simp [Tab.look?, ih]

@[simp] theorem Tab.look?_del_same (t : Tab β) (k : Nat) : (t.del k).look? k = none := by
  induction t with
  | nil => rfl
  | cons e r ih =>
    obtain ⟨k', v'⟩ := e
    unfold Tab.del
    split
    · exact ih
    · rename_i hk; simp [Tab.look?, hk, ih]

theorem Tab.look?_del_of_ne (t : Tab β) {j k : Nat} (h : j ≠ k) : (t.del k).look? j = t.look? j := by
  induction t with
  | nil => rfl
  | cons e r ih =>
    obtain ⟨k', v'⟩ := e
    unfold Tab.del
    split
    · rename_i hk; subst hk; simp [Tab.look?, Ne.symm h, ih]
    · simp [Tab.look?, ih]

variable [DecidableEq β]

/-- A read after a write to the same index gives the value written. -/
@[simp] theorem Tab.look_put_same (d : β) (t : Tab β) (k : Nat) (v : β) : Tab.look d (t.put d k v) k = v := by
  unfold Tab.put Tab.look
  split
  · rename_i h; simp [h]
  · simp

/-- A write leaves every other index alone. -/
theorem Tab.look_put_of_ne (d : β) (t : Tab β) {j k : Nat} (v : β) (h : j ≠ k) :
    Tab.look d (t.put d k v) j = Tab.look d t j := by
  unfold Tab.put Tab.look
  split
  · rw [Tab.look?_del_of_ne t h]
  · rw [Tab.look?_ins_of_ne t v h]

@[simp] theorem Tab.look_adj_same (d : β) (t : Tab β) (k : Nat) (f : β → β) :
    Tab.look d (t.adj d k f) k = f (Tab.look d t k) := by simp [Tab.adj]

theorem Tab.look_adj_of_ne (d : β) (t : Tab β) {j k : Nat} (f : β → β) (h : j ≠ k) :
    Tab.look d (t.adj d k f) j = Tab.look d t j := Tab.look_put_of_ne d t _ h

omit [DecidableEq β] in
/-- Every index listed after an insertion is above `a` when those before and the new one are. -/
theorem Tab.above_ins {a k : Nat} (t : Tab β) (v : β) (ha : a < k) (h : Tab.above a t = true) :
    Tab.above a (t.ins k v) = true := by
  induction t with
  | nil => simp [Tab.ins, Tab.above, ha]
  | cons e r ih =>
    obtain ⟨k', v'⟩ := e
    simp only [Tab.above, List.all_cons, Bool.and_eq_true, decide_eq_true_eq] at h ih
    unfold Tab.ins
    split
    · simp [Tab.above, ha, h.1]; simpa using h.2
    · split
      · simp [Tab.above, ha]; simpa using h.2
      · simp [Tab.above, h.1]; simpa using ih h.2

omit [DecidableEq β] in
theorem Tab.above_del {a k : Nat} (t : Tab β) (h : Tab.above a t = true) : Tab.above a (t.del k) = true := by
  induction t with
  | nil => rfl
  | cons e r ih =>
    obtain ⟨k', v'⟩ := e
    simp only [Tab.above, List.all_cons, Bool.and_eq_true, decide_eq_true_eq] at h ih
    unfold Tab.del
    split
    · exact ih h.2
    · simp [Tab.above, h.1]; simpa using ih h.2

theorem Tab.wf_ins (d : β) (t : Tab β) {k : Nat} {v : β} (hv : v ≠ d) (h : Tab.wf d t = true) :
    Tab.wf d (t.ins k v) = true := by
  induction t with
  | nil => simp [Tab.ins, Tab.wf, Tab.above, hv]
  | cons e r ih =>
    obtain ⟨k', v'⟩ := e
    simp only [Tab.wf, Bool.and_eq_true] at h
    obtain ⟨⟨h1, h2⟩, h3⟩ := h
    have hup : ∀ j, j < k' → Tab.above j r = true := by
      intro j hj
      simp only [Tab.above, List.all_eq_true, decide_eq_true_eq] at h2 ⊢
      intro x hx; exact lt_trans hj (h2 x hx)
    unfold Tab.ins
    split
    · rename_i hk
      have hr := hup k hk
      simp only [Tab.above] at hr h2
      simp [Tab.wf, Tab.above, hv, hk, h3]
      refine ⟨by simpa using hr, by simpa using h1, by simpa using h2⟩
    · split
      · rename_i _ hk; subst hk; simp [Tab.wf, hv, h2, h3]
      · rename_i hk hne
        have hlt : k' < k := by omega
        have := Tab.above_ins (a := k') r v hlt h2
        simp [Tab.wf, this, ih h3]; simpa using h1

theorem Tab.wf_del (d : β) (t : Tab β) {k : Nat} (h : Tab.wf d t = true) : Tab.wf d (t.del k) = true := by
  induction t with
  | nil => rfl
  | cons e r ih =>
    obtain ⟨k', v'⟩ := e
    simp only [Tab.wf, Bool.and_eq_true] at h
    unfold Tab.del
    split
    · exact ih h.2
    · simp [Tab.wf, Tab.above_del r h.1.2, ih h.2]; simpa using h.1.1

/-- A write keeps the canonical form. -/
theorem Tab.wf_put (d : β) (t : Tab β) (k : Nat) (v : β) (h : Tab.wf d t = true) : Tab.wf d (t.put d k v) = true := by
  unfold Tab.put
  split
  · exact Tab.wf_del d t h
  · rename_i hv; exact Tab.wf_ins d t hv h

theorem Tab.wf_adj (d : β) (t : Tab β) (k : Nat) (f : β → β) (h : Tab.wf d t = true) : Tab.wf d (t.adj d k f) = true :=
  Tab.wf_put d t k _ h

theorem Tab.wf_putAll (d : β) (vs : List β) : ∀ (t : Tab β) (k : Nat), Tab.wf d t = true → Tab.wf d (t.putAll d k vs) = true := by
  induction vs with
  | nil => intro t k h; exact h
  | cons v vs ih => intro t k h; exact ih _ _ (Tab.wf_put d t k v h)

end Sys2Proof.Machine
end

