-- ==== Sys2Proof/Laws/State.lean ====
section
/-! SUPPORT. What each plain update of the state leaves alone: one lemma per field per update. -/
namespace Sys2Proof.Machine

@[simp] theorem State.setEngine_pending (s : State) (e : Nat) (v : Engine) : (s.setEngine e v).pending = s.pending := rfl
@[simp] theorem State.setEngine_now (s : State) (e : Nat) (v : Engine) : (s.setEngine e v).now = s.now := rfl
@[simp] theorem State.setEngine_free (s : State) (e : Nat) (v : Engine) : (s.setEngine e v).free = s.free := rfl
@[simp] theorem State.setEngine_su (s : State) (e : Nat) (v : Engine) : (s.setEngine e v).su = s.su := rfl
@[simp] theorem State.setEngine_pins (s : State) (e : Nat) (v : Engine) : (s.setEngine e v).pins = s.pins := rfl
@[simp] theorem State.setEngine_mt (s : State) (e : Nat) (v : Engine) : (s.setEngine e v).mt = s.mt := rfl
@[simp] theorem State.setEngine_mesh (s : State) (e : Nat) (v : Engine) : (s.setEngine e v).mesh = s.mesh := rfl
@[simp] theorem State.setEngine_fm (s : State) (e : Nat) (v : Engine) : (s.setEngine e v).fm = s.fm := rfl
@[simp] theorem State.setEngine_gs (s : State) (e : Nat) (v : Engine) : (s.setEngine e v).gs = s.gs := rfl
@[simp] theorem State.setEngine_sow (s : State) (e : Nat) (v : Engine) : (s.setEngine e v).sow = s.sow := rfl
@[simp] theorem State.setEngine_de (s : State) (e : Nat) (v : Engine) : (s.setEngine e v).de = s.de := rfl
@[simp] theorem State.setEngine_rla (s : State) (e : Nat) (v : Engine) : (s.setEngine e v).rla = s.rla := rfl
@[simp] theorem State.setEngine_dcs (s : State) (e : Nat) (v : Engine) : (s.setEngine e v).dcs = s.dcs := rfl
@[simp] theorem State.setEngine_hcf (s : State) (e : Nat) (v : Engine) : (s.setEngine e v).hcf = s.hcf := rfl
@[simp] theorem State.setEngine_sm (s : State) (e : Nat) (v : Engine) : (s.setEngine e v).sm = s.sm := rfl
@[simp] theorem State.setEngine_cc (s : State) (e : Nat) (v : Engine) : (s.setEngine e v).cc = s.cc := rfl
@[simp] theorem State.setEngine_inSc (s : State) (e : Nat) (v : Engine) : (s.setEngine e v).inSc = s.inSc := rfl
@[simp] theorem State.setEngine_mrs (s : State) (e : Nat) (v : Engine) : (s.setEngine e v).mrs = s.mrs := rfl
@[simp] theorem State.setEngine_link (s : State) (e : Nat) (v : Engine) : (s.setEngine e v).link = s.link := rfl
@[simp] theorem State.setEngine_shf (s : State) (e : Nat) (v : Engine) : (s.setEngine e v).shf = s.shf := rfl
@[simp] theorem State.setEngine_stu (s : State) (e : Nat) (v : Engine) : (s.setEngine e v).stu = s.stu := rfl
@[simp] theorem State.setEngine_tcs (s : State) (e : Nat) (v : Engine) : (s.setEngine e v).tcs = s.tcs := rfl
@[simp] theorem State.setEngine_yoke (s : State) (e : Nat) (v : Engine) : (s.setEngine e v).yoke = s.yoke := rfl
@[simp] theorem State.setEngine_pru (s : State) (e : Nat) (v : Engine) : (s.setEngine e v).pru = s.pru := rfl
@[simp] theorem State.setEngine_mdu (s : State) (e : Nat) (v : Engine) : (s.setEngine e v).mdu = s.mdu := rfl
@[simp] theorem State.setEngine_ccx (s : State) (e : Nat) (v : Engine) : (s.setEngine e v).ccx = s.ccx := rfl
@[simp] theorem State.setEngine_ftt (s : State) (e : Nat) (v : Engine) : (s.setEngine e v).ftt = s.ftt := rfl
@[simp] theorem State.setEngine_nv (s : State) (e : Nat) (v : Engine) : (s.setEngine e v).nv = s.nv := rfl
@[simp] theorem State.setEngine_tr (s : State) (e : Nat) (v : Engine) : (s.setEngine e v).tr = s.tr := rfl
@[simp] theorem State.setEngine_hv (s : State) (e : Nat) (v : Engine) : (s.setEngine e v).hv = s.hv := rfl

@[simp] theorem State.modEngine_pending (s : State) (e : Nat) (f : Engine → Engine) : (s.modEngine e f).pending = s.pending := rfl
@[simp] theorem State.modEngine_now (s : State) (e : Nat) (f : Engine → Engine) : (s.modEngine e f).now = s.now := rfl
@[simp] theorem State.modEngine_free (s : State) (e : Nat) (f : Engine → Engine) : (s.modEngine e f).free = s.free := rfl
@[simp] theorem State.modEngine_su (s : State) (e : Nat) (f : Engine → Engine) : (s.modEngine e f).su = s.su := rfl
@[simp] theorem State.modEngine_pins (s : State) (e : Nat) (f : Engine → Engine) : (s.modEngine e f).pins = s.pins := rfl
@[simp] theorem State.modEngine_mt (s : State) (e : Nat) (f : Engine → Engine) : (s.modEngine e f).mt = s.mt := rfl
@[simp] theorem State.modEngine_mesh (s : State) (e : Nat) (f : Engine → Engine) : (s.modEngine e f).mesh = s.mesh := rfl
@[simp] theorem State.modEngine_fm (s : State) (e : Nat) (f : Engine → Engine) : (s.modEngine e f).fm = s.fm := rfl
@[simp] theorem State.modEngine_gs (s : State) (e : Nat) (f : Engine → Engine) : (s.modEngine e f).gs = s.gs := rfl
@[simp] theorem State.modEngine_sow (s : State) (e : Nat) (f : Engine → Engine) : (s.modEngine e f).sow = s.sow := rfl
@[simp] theorem State.modEngine_de (s : State) (e : Nat) (f : Engine → Engine) : (s.modEngine e f).de = s.de := rfl
@[simp] theorem State.modEngine_rla (s : State) (e : Nat) (f : Engine → Engine) : (s.modEngine e f).rla = s.rla := rfl
@[simp] theorem State.modEngine_dcs (s : State) (e : Nat) (f : Engine → Engine) : (s.modEngine e f).dcs = s.dcs := rfl
@[simp] theorem State.modEngine_hcf (s : State) (e : Nat) (f : Engine → Engine) : (s.modEngine e f).hcf = s.hcf := rfl
@[simp] theorem State.modEngine_sm (s : State) (e : Nat) (f : Engine → Engine) : (s.modEngine e f).sm = s.sm := rfl
@[simp] theorem State.modEngine_cc (s : State) (e : Nat) (f : Engine → Engine) : (s.modEngine e f).cc = s.cc := rfl
@[simp] theorem State.modEngine_inSc (s : State) (e : Nat) (f : Engine → Engine) : (s.modEngine e f).inSc = s.inSc := rfl
@[simp] theorem State.modEngine_mrs (s : State) (e : Nat) (f : Engine → Engine) : (s.modEngine e f).mrs = s.mrs := rfl
@[simp] theorem State.modEngine_link (s : State) (e : Nat) (f : Engine → Engine) : (s.modEngine e f).link = s.link := rfl
@[simp] theorem State.modEngine_shf (s : State) (e : Nat) (f : Engine → Engine) : (s.modEngine e f).shf = s.shf := rfl
@[simp] theorem State.modEngine_stu (s : State) (e : Nat) (f : Engine → Engine) : (s.modEngine e f).stu = s.stu := rfl
@[simp] theorem State.modEngine_tcs (s : State) (e : Nat) (f : Engine → Engine) : (s.modEngine e f).tcs = s.tcs := rfl
@[simp] theorem State.modEngine_yoke (s : State) (e : Nat) (f : Engine → Engine) : (s.modEngine e f).yoke = s.yoke := rfl
@[simp] theorem State.modEngine_pru (s : State) (e : Nat) (f : Engine → Engine) : (s.modEngine e f).pru = s.pru := rfl
@[simp] theorem State.modEngine_mdu (s : State) (e : Nat) (f : Engine → Engine) : (s.modEngine e f).mdu = s.mdu := rfl
@[simp] theorem State.modEngine_ccx (s : State) (e : Nat) (f : Engine → Engine) : (s.modEngine e f).ccx = s.ccx := rfl
@[simp] theorem State.modEngine_ftt (s : State) (e : Nat) (f : Engine → Engine) : (s.modEngine e f).ftt = s.ftt := rfl
@[simp] theorem State.modEngine_nv (s : State) (e : Nat) (f : Engine → Engine) : (s.modEngine e f).nv = s.nv := rfl
@[simp] theorem State.modEngine_tr (s : State) (e : Nat) (f : Engine → Engine) : (s.modEngine e f).tr = s.tr := rfl
@[simp] theorem State.modEngine_hv (s : State) (e : Nat) (f : Engine → Engine) : (s.modEngine e f).hv = s.hv := rfl

@[simp] theorem State.setQueue_pending (s : State) (q : Nat) (v : Queue) : (s.setQueue q v).pending = s.pending := rfl
@[simp] theorem State.setQueue_now (s : State) (q : Nat) (v : Queue) : (s.setQueue q v).now = s.now := rfl
@[simp] theorem State.setQueue_free (s : State) (q : Nat) (v : Queue) : (s.setQueue q v).free = s.free := rfl
@[simp] theorem State.setQueue_su (s : State) (q : Nat) (v : Queue) : (s.setQueue q v).su = s.su := rfl
@[simp] theorem State.setQueue_pins (s : State) (q : Nat) (v : Queue) : (s.setQueue q v).pins = s.pins := rfl
@[simp] theorem State.setQueue_mt (s : State) (q : Nat) (v : Queue) : (s.setQueue q v).mt = s.mt := rfl
@[simp] theorem State.setQueue_mesh (s : State) (q : Nat) (v : Queue) : (s.setQueue q v).mesh = s.mesh := rfl
@[simp] theorem State.setQueue_fm (s : State) (q : Nat) (v : Queue) : (s.setQueue q v).fm = s.fm := rfl
@[simp] theorem State.setQueue_gs (s : State) (q : Nat) (v : Queue) : (s.setQueue q v).gs = s.gs := rfl
@[simp] theorem State.setQueue_sow (s : State) (q : Nat) (v : Queue) : (s.setQueue q v).sow = s.sow := rfl
@[simp] theorem State.setQueue_de (s : State) (q : Nat) (v : Queue) : (s.setQueue q v).de = s.de := rfl
@[simp] theorem State.setQueue_rla (s : State) (q : Nat) (v : Queue) : (s.setQueue q v).rla = s.rla := rfl
@[simp] theorem State.setQueue_eng (s : State) (q : Nat) (v : Queue) : (s.setQueue q v).eng = s.eng := rfl
@[simp] theorem State.setQueue_dcs (s : State) (q : Nat) (v : Queue) : (s.setQueue q v).dcs = s.dcs := rfl
@[simp] theorem State.setQueue_sm (s : State) (q : Nat) (v : Queue) : (s.setQueue q v).sm = s.sm := rfl
@[simp] theorem State.setQueue_cc (s : State) (q : Nat) (v : Queue) : (s.setQueue q v).cc = s.cc := rfl
@[simp] theorem State.setQueue_inSc (s : State) (q : Nat) (v : Queue) : (s.setQueue q v).inSc = s.inSc := rfl
@[simp] theorem State.setQueue_mrs (s : State) (q : Nat) (v : Queue) : (s.setQueue q v).mrs = s.mrs := rfl
@[simp] theorem State.setQueue_link (s : State) (q : Nat) (v : Queue) : (s.setQueue q v).link = s.link := rfl
@[simp] theorem State.setQueue_shf (s : State) (q : Nat) (v : Queue) : (s.setQueue q v).shf = s.shf := rfl
@[simp] theorem State.setQueue_stu (s : State) (q : Nat) (v : Queue) : (s.setQueue q v).stu = s.stu := rfl
@[simp] theorem State.setQueue_tcs (s : State) (q : Nat) (v : Queue) : (s.setQueue q v).tcs = s.tcs := rfl
@[simp] theorem State.setQueue_yoke (s : State) (q : Nat) (v : Queue) : (s.setQueue q v).yoke = s.yoke := rfl
@[simp] theorem State.setQueue_pru (s : State) (q : Nat) (v : Queue) : (s.setQueue q v).pru = s.pru := rfl
@[simp] theorem State.setQueue_mdu (s : State) (q : Nat) (v : Queue) : (s.setQueue q v).mdu = s.mdu := rfl
@[simp] theorem State.setQueue_ccx (s : State) (q : Nat) (v : Queue) : (s.setQueue q v).ccx = s.ccx := rfl
@[simp] theorem State.setQueue_ftt (s : State) (q : Nat) (v : Queue) : (s.setQueue q v).ftt = s.ftt := rfl
@[simp] theorem State.setQueue_nv (s : State) (q : Nat) (v : Queue) : (s.setQueue q v).nv = s.nv := rfl
@[simp] theorem State.setQueue_tr (s : State) (q : Nat) (v : Queue) : (s.setQueue q v).tr = s.tr := rfl
@[simp] theorem State.setQueue_hv (s : State) (q : Nat) (v : Queue) : (s.setQueue q v).hv = s.hv := rfl

@[simp] theorem State.modQueue_pending (s : State) (q : Nat) (f : Queue → Queue) : (s.modQueue q f).pending = s.pending := rfl
@[simp] theorem State.modQueue_now (s : State) (q : Nat) (f : Queue → Queue) : (s.modQueue q f).now = s.now := rfl
@[simp] theorem State.modQueue_free (s : State) (q : Nat) (f : Queue → Queue) : (s.modQueue q f).free = s.free := rfl
@[simp] theorem State.modQueue_su (s : State) (q : Nat) (f : Queue → Queue) : (s.modQueue q f).su = s.su := rfl
@[simp] theorem State.modQueue_pins (s : State) (q : Nat) (f : Queue → Queue) : (s.modQueue q f).pins = s.pins := rfl
@[simp] theorem State.modQueue_mt (s : State) (q : Nat) (f : Queue → Queue) : (s.modQueue q f).mt = s.mt := rfl
@[simp] theorem State.modQueue_mesh (s : State) (q : Nat) (f : Queue → Queue) : (s.modQueue q f).mesh = s.mesh := rfl
@[simp] theorem State.modQueue_fm (s : State) (q : Nat) (f : Queue → Queue) : (s.modQueue q f).fm = s.fm := rfl
@[simp] theorem State.modQueue_gs (s : State) (q : Nat) (f : Queue → Queue) : (s.modQueue q f).gs = s.gs := rfl
@[simp] theorem State.modQueue_sow (s : State) (q : Nat) (f : Queue → Queue) : (s.modQueue q f).sow = s.sow := rfl
@[simp] theorem State.modQueue_de (s : State) (q : Nat) (f : Queue → Queue) : (s.modQueue q f).de = s.de := rfl
@[simp] theorem State.modQueue_rla (s : State) (q : Nat) (f : Queue → Queue) : (s.modQueue q f).rla = s.rla := rfl
@[simp] theorem State.modQueue_eng (s : State) (q : Nat) (f : Queue → Queue) : (s.modQueue q f).eng = s.eng := rfl
@[simp] theorem State.modQueue_dcs (s : State) (q : Nat) (f : Queue → Queue) : (s.modQueue q f).dcs = s.dcs := rfl
@[simp] theorem State.modQueue_sm (s : State) (q : Nat) (f : Queue → Queue) : (s.modQueue q f).sm = s.sm := rfl
@[simp] theorem State.modQueue_cc (s : State) (q : Nat) (f : Queue → Queue) : (s.modQueue q f).cc = s.cc := rfl
@[simp] theorem State.modQueue_inSc (s : State) (q : Nat) (f : Queue → Queue) : (s.modQueue q f).inSc = s.inSc := rfl
@[simp] theorem State.modQueue_mrs (s : State) (q : Nat) (f : Queue → Queue) : (s.modQueue q f).mrs = s.mrs := rfl
@[simp] theorem State.modQueue_link (s : State) (q : Nat) (f : Queue → Queue) : (s.modQueue q f).link = s.link := rfl
@[simp] theorem State.modQueue_shf (s : State) (q : Nat) (f : Queue → Queue) : (s.modQueue q f).shf = s.shf := rfl
@[simp] theorem State.modQueue_stu (s : State) (q : Nat) (f : Queue → Queue) : (s.modQueue q f).stu = s.stu := rfl
@[simp] theorem State.modQueue_tcs (s : State) (q : Nat) (f : Queue → Queue) : (s.modQueue q f).tcs = s.tcs := rfl
@[simp] theorem State.modQueue_yoke (s : State) (q : Nat) (f : Queue → Queue) : (s.modQueue q f).yoke = s.yoke := rfl
@[simp] theorem State.modQueue_pru (s : State) (q : Nat) (f : Queue → Queue) : (s.modQueue q f).pru = s.pru := rfl
@[simp] theorem State.modQueue_mdu (s : State) (q : Nat) (f : Queue → Queue) : (s.modQueue q f).mdu = s.mdu := rfl
@[simp] theorem State.modQueue_ccx (s : State) (q : Nat) (f : Queue → Queue) : (s.modQueue q f).ccx = s.ccx := rfl
@[simp] theorem State.modQueue_ftt (s : State) (q : Nat) (f : Queue → Queue) : (s.modQueue q f).ftt = s.ftt := rfl
@[simp] theorem State.modQueue_nv (s : State) (q : Nat) (f : Queue → Queue) : (s.modQueue q f).nv = s.nv := rfl
@[simp] theorem State.modQueue_tr (s : State) (q : Nat) (f : Queue → Queue) : (s.modQueue q f).tr = s.tr := rfl
@[simp] theorem State.modQueue_hv (s : State) (q : Nat) (f : Queue → Queue) : (s.modQueue q f).hv = s.hv := rfl

@[simp] theorem State.setGraph_pending (s : State) (h : Nat) (v : Graph) : (s.setGraph h v).pending = s.pending := rfl
@[simp] theorem State.setGraph_now (s : State) (h : Nat) (v : Graph) : (s.setGraph h v).now = s.now := rfl
@[simp] theorem State.setGraph_free (s : State) (h : Nat) (v : Graph) : (s.setGraph h v).free = s.free := rfl
@[simp] theorem State.setGraph_su (s : State) (h : Nat) (v : Graph) : (s.setGraph h v).su = s.su := rfl
@[simp] theorem State.setGraph_pins (s : State) (h : Nat) (v : Graph) : (s.setGraph h v).pins = s.pins := rfl
@[simp] theorem State.setGraph_mt (s : State) (h : Nat) (v : Graph) : (s.setGraph h v).mt = s.mt := rfl
@[simp] theorem State.setGraph_mesh (s : State) (h : Nat) (v : Graph) : (s.setGraph h v).mesh = s.mesh := rfl
@[simp] theorem State.setGraph_fm (s : State) (h : Nat) (v : Graph) : (s.setGraph h v).fm = s.fm := rfl
@[simp] theorem State.setGraph_sow (s : State) (h : Nat) (v : Graph) : (s.setGraph h v).sow = s.sow := rfl
@[simp] theorem State.setGraph_de (s : State) (h : Nat) (v : Graph) : (s.setGraph h v).de = s.de := rfl
@[simp] theorem State.setGraph_rla (s : State) (h : Nat) (v : Graph) : (s.setGraph h v).rla = s.rla := rfl
@[simp] theorem State.setGraph_eng (s : State) (h : Nat) (v : Graph) : (s.setGraph h v).eng = s.eng := rfl
@[simp] theorem State.setGraph_dcs (s : State) (h : Nat) (v : Graph) : (s.setGraph h v).dcs = s.dcs := rfl
@[simp] theorem State.setGraph_hcf (s : State) (h : Nat) (v : Graph) : (s.setGraph h v).hcf = s.hcf := rfl
@[simp] theorem State.setGraph_sm (s : State) (h : Nat) (v : Graph) : (s.setGraph h v).sm = s.sm := rfl
@[simp] theorem State.setGraph_cc (s : State) (h : Nat) (v : Graph) : (s.setGraph h v).cc = s.cc := rfl
@[simp] theorem State.setGraph_inSc (s : State) (h : Nat) (v : Graph) : (s.setGraph h v).inSc = s.inSc := rfl
@[simp] theorem State.setGraph_mrs (s : State) (h : Nat) (v : Graph) : (s.setGraph h v).mrs = s.mrs := rfl
@[simp] theorem State.setGraph_link (s : State) (h : Nat) (v : Graph) : (s.setGraph h v).link = s.link := rfl
@[simp] theorem State.setGraph_shf (s : State) (h : Nat) (v : Graph) : (s.setGraph h v).shf = s.shf := rfl
@[simp] theorem State.setGraph_stu (s : State) (h : Nat) (v : Graph) : (s.setGraph h v).stu = s.stu := rfl
@[simp] theorem State.setGraph_tcs (s : State) (h : Nat) (v : Graph) : (s.setGraph h v).tcs = s.tcs := rfl
@[simp] theorem State.setGraph_yoke (s : State) (h : Nat) (v : Graph) : (s.setGraph h v).yoke = s.yoke := rfl
@[simp] theorem State.setGraph_pru (s : State) (h : Nat) (v : Graph) : (s.setGraph h v).pru = s.pru := rfl
@[simp] theorem State.setGraph_mdu (s : State) (h : Nat) (v : Graph) : (s.setGraph h v).mdu = s.mdu := rfl
@[simp] theorem State.setGraph_ccx (s : State) (h : Nat) (v : Graph) : (s.setGraph h v).ccx = s.ccx := rfl
@[simp] theorem State.setGraph_ftt (s : State) (h : Nat) (v : Graph) : (s.setGraph h v).ftt = s.ftt := rfl
@[simp] theorem State.setGraph_nv (s : State) (h : Nat) (v : Graph) : (s.setGraph h v).nv = s.nv := rfl
@[simp] theorem State.setGraph_tr (s : State) (h : Nat) (v : Graph) : (s.setGraph h v).tr = s.tr := rfl
@[simp] theorem State.setGraph_hv (s : State) (h : Nat) (v : Graph) : (s.setGraph h v).hv = s.hv := rfl

@[simp] theorem State.setSowing_pending (s : State) (k : Nat) (v : Sowing) : (s.setSowing k v).pending = s.pending := rfl
@[simp] theorem State.setSowing_now (s : State) (k : Nat) (v : Sowing) : (s.setSowing k v).now = s.now := rfl
@[simp] theorem State.setSowing_free (s : State) (k : Nat) (v : Sowing) : (s.setSowing k v).free = s.free := rfl
@[simp] theorem State.setSowing_su (s : State) (k : Nat) (v : Sowing) : (s.setSowing k v).su = s.su := rfl
@[simp] theorem State.setSowing_pins (s : State) (k : Nat) (v : Sowing) : (s.setSowing k v).pins = s.pins := rfl
@[simp] theorem State.setSowing_mt (s : State) (k : Nat) (v : Sowing) : (s.setSowing k v).mt = s.mt := rfl
@[simp] theorem State.setSowing_mesh (s : State) (k : Nat) (v : Sowing) : (s.setSowing k v).mesh = s.mesh := rfl
@[simp] theorem State.setSowing_fm (s : State) (k : Nat) (v : Sowing) : (s.setSowing k v).fm = s.fm := rfl
@[simp] theorem State.setSowing_gs (s : State) (k : Nat) (v : Sowing) : (s.setSowing k v).gs = s.gs := rfl
@[simp] theorem State.setSowing_de (s : State) (k : Nat) (v : Sowing) : (s.setSowing k v).de = s.de := rfl
@[simp] theorem State.setSowing_rla (s : State) (k : Nat) (v : Sowing) : (s.setSowing k v).rla = s.rla := rfl
@[simp] theorem State.setSowing_eng (s : State) (k : Nat) (v : Sowing) : (s.setSowing k v).eng = s.eng := rfl
@[simp] theorem State.setSowing_dcs (s : State) (k : Nat) (v : Sowing) : (s.setSowing k v).dcs = s.dcs := rfl
@[simp] theorem State.setSowing_hcf (s : State) (k : Nat) (v : Sowing) : (s.setSowing k v).hcf = s.hcf := rfl
@[simp] theorem State.setSowing_sm (s : State) (k : Nat) (v : Sowing) : (s.setSowing k v).sm = s.sm := rfl
@[simp] theorem State.setSowing_cc (s : State) (k : Nat) (v : Sowing) : (s.setSowing k v).cc = s.cc := rfl
@[simp] theorem State.setSowing_inSc (s : State) (k : Nat) (v : Sowing) : (s.setSowing k v).inSc = s.inSc := rfl
@[simp] theorem State.setSowing_mrs (s : State) (k : Nat) (v : Sowing) : (s.setSowing k v).mrs = s.mrs := rfl
@[simp] theorem State.setSowing_link (s : State) (k : Nat) (v : Sowing) : (s.setSowing k v).link = s.link := rfl
@[simp] theorem State.setSowing_shf (s : State) (k : Nat) (v : Sowing) : (s.setSowing k v).shf = s.shf := rfl
@[simp] theorem State.setSowing_stu (s : State) (k : Nat) (v : Sowing) : (s.setSowing k v).stu = s.stu := rfl
@[simp] theorem State.setSowing_tcs (s : State) (k : Nat) (v : Sowing) : (s.setSowing k v).tcs = s.tcs := rfl
@[simp] theorem State.setSowing_yoke (s : State) (k : Nat) (v : Sowing) : (s.setSowing k v).yoke = s.yoke := rfl
@[simp] theorem State.setSowing_pru (s : State) (k : Nat) (v : Sowing) : (s.setSowing k v).pru = s.pru := rfl
@[simp] theorem State.setSowing_mdu (s : State) (k : Nat) (v : Sowing) : (s.setSowing k v).mdu = s.mdu := rfl
@[simp] theorem State.setSowing_ccx (s : State) (k : Nat) (v : Sowing) : (s.setSowing k v).ccx = s.ccx := rfl
@[simp] theorem State.setSowing_ftt (s : State) (k : Nat) (v : Sowing) : (s.setSowing k v).ftt = s.ftt := rfl
@[simp] theorem State.setSowing_nv (s : State) (k : Nat) (v : Sowing) : (s.setSowing k v).nv = s.nv := rfl
@[simp] theorem State.setSowing_tr (s : State) (k : Nat) (v : Sowing) : (s.setSowing k v).tr = s.tr := rfl
@[simp] theorem State.setSowing_hv (s : State) (k : Nat) (v : Sowing) : (s.setSowing k v).hv = s.hv := rfl

@[simp] theorem State.setPlot_pending (s : State) (p : Nat) (v : Plot) : (s.setPlot p v).pending = s.pending := rfl
@[simp] theorem State.setPlot_now (s : State) (p : Nat) (v : Plot) : (s.setPlot p v).now = s.now := rfl
@[simp] theorem State.setPlot_free (s : State) (p : Nat) (v : Plot) : (s.setPlot p v).free = s.free := rfl
@[simp] theorem State.setPlot_su (s : State) (p : Nat) (v : Plot) : (s.setPlot p v).su = s.su := rfl
@[simp] theorem State.setPlot_pins (s : State) (p : Nat) (v : Plot) : (s.setPlot p v).pins = s.pins := rfl
@[simp] theorem State.setPlot_mt (s : State) (p : Nat) (v : Plot) : (s.setPlot p v).mt = s.mt := rfl
@[simp] theorem State.setPlot_mesh (s : State) (p : Nat) (v : Plot) : (s.setPlot p v).mesh = s.mesh := rfl
@[simp] theorem State.setPlot_fm (s : State) (p : Nat) (v : Plot) : (s.setPlot p v).fm = s.fm := rfl
@[simp] theorem State.setPlot_gs (s : State) (p : Nat) (v : Plot) : (s.setPlot p v).gs = s.gs := rfl
@[simp] theorem State.setPlot_sow (s : State) (p : Nat) (v : Plot) : (s.setPlot p v).sow = s.sow := rfl
@[simp] theorem State.setPlot_de (s : State) (p : Nat) (v : Plot) : (s.setPlot p v).de = s.de := rfl
@[simp] theorem State.setPlot_rla (s : State) (p : Nat) (v : Plot) : (s.setPlot p v).rla = s.rla := rfl
@[simp] theorem State.setPlot_eng (s : State) (p : Nat) (v : Plot) : (s.setPlot p v).eng = s.eng := rfl
@[simp] theorem State.setPlot_dcs (s : State) (p : Nat) (v : Plot) : (s.setPlot p v).dcs = s.dcs := rfl
@[simp] theorem State.setPlot_hcf (s : State) (p : Nat) (v : Plot) : (s.setPlot p v).hcf = s.hcf := rfl
@[simp] theorem State.setPlot_sm (s : State) (p : Nat) (v : Plot) : (s.setPlot p v).sm = s.sm := rfl
@[simp] theorem State.setPlot_cc (s : State) (p : Nat) (v : Plot) : (s.setPlot p v).cc = s.cc := rfl
@[simp] theorem State.setPlot_inSc (s : State) (p : Nat) (v : Plot) : (s.setPlot p v).inSc = s.inSc := rfl
@[simp] theorem State.setPlot_mrs (s : State) (p : Nat) (v : Plot) : (s.setPlot p v).mrs = s.mrs := rfl
@[simp] theorem State.setPlot_link (s : State) (p : Nat) (v : Plot) : (s.setPlot p v).link = s.link := rfl
@[simp] theorem State.setPlot_shf (s : State) (p : Nat) (v : Plot) : (s.setPlot p v).shf = s.shf := rfl
@[simp] theorem State.setPlot_stu (s : State) (p : Nat) (v : Plot) : (s.setPlot p v).stu = s.stu := rfl
@[simp] theorem State.setPlot_tcs (s : State) (p : Nat) (v : Plot) : (s.setPlot p v).tcs = s.tcs := rfl
@[simp] theorem State.setPlot_yoke (s : State) (p : Nat) (v : Plot) : (s.setPlot p v).yoke = s.yoke := rfl
@[simp] theorem State.setPlot_mdu (s : State) (p : Nat) (v : Plot) : (s.setPlot p v).mdu = s.mdu := rfl
@[simp] theorem State.setPlot_ccx (s : State) (p : Nat) (v : Plot) : (s.setPlot p v).ccx = s.ccx := rfl
@[simp] theorem State.setPlot_ftt (s : State) (p : Nat) (v : Plot) : (s.setPlot p v).ftt = s.ftt := rfl
@[simp] theorem State.setPlot_nv (s : State) (p : Nat) (v : Plot) : (s.setPlot p v).nv = s.nv := rfl
@[simp] theorem State.setPlot_tr (s : State) (p : Nat) (v : Plot) : (s.setPlot p v).tr = s.tr := rfl
@[simp] theorem State.setPlot_hv (s : State) (p : Nat) (v : Plot) : (s.setPlot p v).hv = s.hv := rfl

@[simp] theorem State.modPlot_pending (s : State) (p : Nat) (f : Plot → Plot) : (s.modPlot p f).pending = s.pending := rfl
@[simp] theorem State.modPlot_now (s : State) (p : Nat) (f : Plot → Plot) : (s.modPlot p f).now = s.now := rfl
@[simp] theorem State.modPlot_free (s : State) (p : Nat) (f : Plot → Plot) : (s.modPlot p f).free = s.free := rfl
@[simp] theorem State.modPlot_su (s : State) (p : Nat) (f : Plot → Plot) : (s.modPlot p f).su = s.su := rfl
@[simp] theorem State.modPlot_pins (s : State) (p : Nat) (f : Plot → Plot) : (s.modPlot p f).pins = s.pins := rfl
@[simp] theorem State.modPlot_mt (s : State) (p : Nat) (f : Plot → Plot) : (s.modPlot p f).mt = s.mt := rfl
@[simp] theorem State.modPlot_mesh (s : State) (p : Nat) (f : Plot → Plot) : (s.modPlot p f).mesh = s.mesh := rfl
@[simp] theorem State.modPlot_fm (s : State) (p : Nat) (f : Plot → Plot) : (s.modPlot p f).fm = s.fm := rfl
@[simp] theorem State.modPlot_gs (s : State) (p : Nat) (f : Plot → Plot) : (s.modPlot p f).gs = s.gs := rfl
@[simp] theorem State.modPlot_sow (s : State) (p : Nat) (f : Plot → Plot) : (s.modPlot p f).sow = s.sow := rfl
@[simp] theorem State.modPlot_de (s : State) (p : Nat) (f : Plot → Plot) : (s.modPlot p f).de = s.de := rfl
@[simp] theorem State.modPlot_rla (s : State) (p : Nat) (f : Plot → Plot) : (s.modPlot p f).rla = s.rla := rfl
@[simp] theorem State.modPlot_eng (s : State) (p : Nat) (f : Plot → Plot) : (s.modPlot p f).eng = s.eng := rfl
@[simp] theorem State.modPlot_dcs (s : State) (p : Nat) (f : Plot → Plot) : (s.modPlot p f).dcs = s.dcs := rfl
@[simp] theorem State.modPlot_hcf (s : State) (p : Nat) (f : Plot → Plot) : (s.modPlot p f).hcf = s.hcf := rfl
@[simp] theorem State.modPlot_sm (s : State) (p : Nat) (f : Plot → Plot) : (s.modPlot p f).sm = s.sm := rfl
@[simp] theorem State.modPlot_cc (s : State) (p : Nat) (f : Plot → Plot) : (s.modPlot p f).cc = s.cc := rfl
@[simp] theorem State.modPlot_inSc (s : State) (p : Nat) (f : Plot → Plot) : (s.modPlot p f).inSc = s.inSc := rfl
@[simp] theorem State.modPlot_mrs (s : State) (p : Nat) (f : Plot → Plot) : (s.modPlot p f).mrs = s.mrs := rfl
@[simp] theorem State.modPlot_link (s : State) (p : Nat) (f : Plot → Plot) : (s.modPlot p f).link = s.link := rfl
@[simp] theorem State.modPlot_shf (s : State) (p : Nat) (f : Plot → Plot) : (s.modPlot p f).shf = s.shf := rfl
@[simp] theorem State.modPlot_stu (s : State) (p : Nat) (f : Plot → Plot) : (s.modPlot p f).stu = s.stu := rfl
@[simp] theorem State.modPlot_tcs (s : State) (p : Nat) (f : Plot → Plot) : (s.modPlot p f).tcs = s.tcs := rfl
@[simp] theorem State.modPlot_yoke (s : State) (p : Nat) (f : Plot → Plot) : (s.modPlot p f).yoke = s.yoke := rfl
@[simp] theorem State.modPlot_mdu (s : State) (p : Nat) (f : Plot → Plot) : (s.modPlot p f).mdu = s.mdu := rfl
@[simp] theorem State.modPlot_ccx (s : State) (p : Nat) (f : Plot → Plot) : (s.modPlot p f).ccx = s.ccx := rfl
@[simp] theorem State.modPlot_ftt (s : State) (p : Nat) (f : Plot → Plot) : (s.modPlot p f).ftt = s.ftt := rfl
@[simp] theorem State.modPlot_nv (s : State) (p : Nat) (f : Plot → Plot) : (s.modPlot p f).nv = s.nv := rfl
@[simp] theorem State.modPlot_tr (s : State) (p : Nat) (f : Plot → Plot) : (s.modPlot p f).tr = s.tr := rfl
@[simp] theorem State.modPlot_hv (s : State) (p : Nat) (f : Plot → Plot) : (s.modPlot p f).hv = s.hv := rfl

@[simp] theorem State.modSegment_pending (s : State) (n g : Nat) (f : Seg → Seg) : (s.modSegment n g f).pending = s.pending := rfl
@[simp] theorem State.modSegment_now (s : State) (n g : Nat) (f : Seg → Seg) : (s.modSegment n g f).now = s.now := rfl
@[simp] theorem State.modSegment_free (s : State) (n g : Nat) (f : Seg → Seg) : (s.modSegment n g f).free = s.free := rfl
@[simp] theorem State.modSegment_su (s : State) (n g : Nat) (f : Seg → Seg) : (s.modSegment n g f).su = s.su := rfl
@[simp] theorem State.modSegment_pins (s : State) (n g : Nat) (f : Seg → Seg) : (s.modSegment n g f).pins = s.pins := rfl
@[simp] theorem State.modSegment_mt (s : State) (n g : Nat) (f : Seg → Seg) : (s.modSegment n g f).mt = s.mt := rfl
@[simp] theorem State.modSegment_mesh (s : State) (n g : Nat) (f : Seg → Seg) : (s.modSegment n g f).mesh = s.mesh := rfl
@[simp] theorem State.modSegment_fm (s : State) (n g : Nat) (f : Seg → Seg) : (s.modSegment n g f).fm = s.fm := rfl
@[simp] theorem State.modSegment_gs (s : State) (n g : Nat) (f : Seg → Seg) : (s.modSegment n g f).gs = s.gs := rfl
@[simp] theorem State.modSegment_sow (s : State) (n g : Nat) (f : Seg → Seg) : (s.modSegment n g f).sow = s.sow := rfl
@[simp] theorem State.modSegment_de (s : State) (n g : Nat) (f : Seg → Seg) : (s.modSegment n g f).de = s.de := rfl
@[simp] theorem State.modSegment_rla (s : State) (n g : Nat) (f : Seg → Seg) : (s.modSegment n g f).rla = s.rla := rfl
@[simp] theorem State.modSegment_eng (s : State) (n g : Nat) (f : Seg → Seg) : (s.modSegment n g f).eng = s.eng := rfl
@[simp] theorem State.modSegment_dcs (s : State) (n g : Nat) (f : Seg → Seg) : (s.modSegment n g f).dcs = s.dcs := rfl
@[simp] theorem State.modSegment_hcf (s : State) (n g : Nat) (f : Seg → Seg) : (s.modSegment n g f).hcf = s.hcf := rfl
@[simp] theorem State.modSegment_sm (s : State) (n g : Nat) (f : Seg → Seg) : (s.modSegment n g f).sm = s.sm := rfl
@[simp] theorem State.modSegment_cc (s : State) (n g : Nat) (f : Seg → Seg) : (s.modSegment n g f).cc = s.cc := rfl
@[simp] theorem State.modSegment_inSc (s : State) (n g : Nat) (f : Seg → Seg) : (s.modSegment n g f).inSc = s.inSc := rfl
@[simp] theorem State.modSegment_mrs (s : State) (n g : Nat) (f : Seg → Seg) : (s.modSegment n g f).mrs = s.mrs := rfl
@[simp] theorem State.modSegment_link (s : State) (n g : Nat) (f : Seg → Seg) : (s.modSegment n g f).link = s.link := rfl
@[simp] theorem State.modSegment_shf (s : State) (n g : Nat) (f : Seg → Seg) : (s.modSegment n g f).shf = s.shf := rfl
@[simp] theorem State.modSegment_stu (s : State) (n g : Nat) (f : Seg → Seg) : (s.modSegment n g f).stu = s.stu := rfl
@[simp] theorem State.modSegment_tcs (s : State) (n g : Nat) (f : Seg → Seg) : (s.modSegment n g f).tcs = s.tcs := rfl
@[simp] theorem State.modSegment_yoke (s : State) (n g : Nat) (f : Seg → Seg) : (s.modSegment n g f).yoke = s.yoke := rfl
@[simp] theorem State.modSegment_mdu (s : State) (n g : Nat) (f : Seg → Seg) : (s.modSegment n g f).mdu = s.mdu := rfl
@[simp] theorem State.modSegment_ccx (s : State) (n g : Nat) (f : Seg → Seg) : (s.modSegment n g f).ccx = s.ccx := rfl
@[simp] theorem State.modSegment_ftt (s : State) (n g : Nat) (f : Seg → Seg) : (s.modSegment n g f).ftt = s.ftt := rfl
@[simp] theorem State.modSegment_nv (s : State) (n g : Nat) (f : Seg → Seg) : (s.modSegment n g f).nv = s.nv := rfl
@[simp] theorem State.modSegment_tr (s : State) (n g : Nat) (f : Seg → Seg) : (s.modSegment n g f).tr = s.tr := rfl
@[simp] theorem State.modSegment_hv (s : State) (n g : Nat) (f : Seg → Seg) : (s.modSegment n g f).hv = s.hv := rfl

@[simp] theorem State.modChannel_pending (s : State) (c : Nat) (f : Channel → Channel) : (s.modChannel c f).pending = s.pending := rfl
@[simp] theorem State.modChannel_now (s : State) (c : Nat) (f : Channel → Channel) : (s.modChannel c f).now = s.now := rfl
@[simp] theorem State.modChannel_free (s : State) (c : Nat) (f : Channel → Channel) : (s.modChannel c f).free = s.free := rfl
@[simp] theorem State.modChannel_su (s : State) (c : Nat) (f : Channel → Channel) : (s.modChannel c f).su = s.su := rfl
@[simp] theorem State.modChannel_pins (s : State) (c : Nat) (f : Channel → Channel) : (s.modChannel c f).pins = s.pins := rfl
@[simp] theorem State.modChannel_mt (s : State) (c : Nat) (f : Channel → Channel) : (s.modChannel c f).mt = s.mt := rfl
@[simp] theorem State.modChannel_mesh (s : State) (c : Nat) (f : Channel → Channel) : (s.modChannel c f).mesh = s.mesh := rfl
@[simp] theorem State.modChannel_fm (s : State) (c : Nat) (f : Channel → Channel) : (s.modChannel c f).fm = s.fm := rfl
@[simp] theorem State.modChannel_gs (s : State) (c : Nat) (f : Channel → Channel) : (s.modChannel c f).gs = s.gs := rfl
@[simp] theorem State.modChannel_sow (s : State) (c : Nat) (f : Channel → Channel) : (s.modChannel c f).sow = s.sow := rfl
@[simp] theorem State.modChannel_de (s : State) (c : Nat) (f : Channel → Channel) : (s.modChannel c f).de = s.de := rfl
@[simp] theorem State.modChannel_rla (s : State) (c : Nat) (f : Channel → Channel) : (s.modChannel c f).rla = s.rla := rfl
@[simp] theorem State.modChannel_eng (s : State) (c : Nat) (f : Channel → Channel) : (s.modChannel c f).eng = s.eng := rfl
@[simp] theorem State.modChannel_dcs (s : State) (c : Nat) (f : Channel → Channel) : (s.modChannel c f).dcs = s.dcs := rfl
@[simp] theorem State.modChannel_hcf (s : State) (c : Nat) (f : Channel → Channel) : (s.modChannel c f).hcf = s.hcf := rfl
@[simp] theorem State.modChannel_sm (s : State) (c : Nat) (f : Channel → Channel) : (s.modChannel c f).sm = s.sm := rfl
@[simp] theorem State.modChannel_cc (s : State) (c : Nat) (f : Channel → Channel) : (s.modChannel c f).cc = s.cc := rfl
@[simp] theorem State.modChannel_inSc (s : State) (c : Nat) (f : Channel → Channel) : (s.modChannel c f).inSc = s.inSc := rfl
@[simp] theorem State.modChannel_mrs (s : State) (c : Nat) (f : Channel → Channel) : (s.modChannel c f).mrs = s.mrs := rfl
@[simp] theorem State.modChannel_link (s : State) (c : Nat) (f : Channel → Channel) : (s.modChannel c f).link = s.link := rfl
@[simp] theorem State.modChannel_shf (s : State) (c : Nat) (f : Channel → Channel) : (s.modChannel c f).shf = s.shf := rfl
@[simp] theorem State.modChannel_stu (s : State) (c : Nat) (f : Channel → Channel) : (s.modChannel c f).stu = s.stu := rfl
@[simp] theorem State.modChannel_tcs (s : State) (c : Nat) (f : Channel → Channel) : (s.modChannel c f).tcs = s.tcs := rfl
@[simp] theorem State.modChannel_yoke (s : State) (c : Nat) (f : Channel → Channel) : (s.modChannel c f).yoke = s.yoke := rfl
@[simp] theorem State.modChannel_pru (s : State) (c : Nat) (f : Channel → Channel) : (s.modChannel c f).pru = s.pru := rfl
@[simp] theorem State.modChannel_ccx (s : State) (c : Nat) (f : Channel → Channel) : (s.modChannel c f).ccx = s.ccx := rfl
@[simp] theorem State.modChannel_ftt (s : State) (c : Nat) (f : Channel → Channel) : (s.modChannel c f).ftt = s.ftt := rfl
@[simp] theorem State.modChannel_nv (s : State) (c : Nat) (f : Channel → Channel) : (s.modChannel c f).nv = s.nv := rfl
@[simp] theorem State.modChannel_tr (s : State) (c : Nat) (f : Channel → Channel) : (s.modChannel c f).tr = s.tr := rfl
@[simp] theorem State.modChannel_hv (s : State) (c : Nat) (f : Channel → Channel) : (s.modChannel c f).hv = s.hv := rfl

@[simp] theorem State.modFaultQ_pending (s : State) (n : Nat) (f : FaultQ → FaultQ) : (s.modFaultQ n f).pending = s.pending := rfl
@[simp] theorem State.modFaultQ_now (s : State) (n : Nat) (f : FaultQ → FaultQ) : (s.modFaultQ n f).now = s.now := rfl
@[simp] theorem State.modFaultQ_free (s : State) (n : Nat) (f : FaultQ → FaultQ) : (s.modFaultQ n f).free = s.free := rfl
@[simp] theorem State.modFaultQ_su (s : State) (n : Nat) (f : FaultQ → FaultQ) : (s.modFaultQ n f).su = s.su := rfl
@[simp] theorem State.modFaultQ_pins (s : State) (n : Nat) (f : FaultQ → FaultQ) : (s.modFaultQ n f).pins = s.pins := rfl
@[simp] theorem State.modFaultQ_mt (s : State) (n : Nat) (f : FaultQ → FaultQ) : (s.modFaultQ n f).mt = s.mt := rfl
@[simp] theorem State.modFaultQ_mesh (s : State) (n : Nat) (f : FaultQ → FaultQ) : (s.modFaultQ n f).mesh = s.mesh := rfl
@[simp] theorem State.modFaultQ_fm (s : State) (n : Nat) (f : FaultQ → FaultQ) : (s.modFaultQ n f).fm = s.fm := rfl
@[simp] theorem State.modFaultQ_gs (s : State) (n : Nat) (f : FaultQ → FaultQ) : (s.modFaultQ n f).gs = s.gs := rfl
@[simp] theorem State.modFaultQ_sow (s : State) (n : Nat) (f : FaultQ → FaultQ) : (s.modFaultQ n f).sow = s.sow := rfl
@[simp] theorem State.modFaultQ_de (s : State) (n : Nat) (f : FaultQ → FaultQ) : (s.modFaultQ n f).de = s.de := rfl
@[simp] theorem State.modFaultQ_rla (s : State) (n : Nat) (f : FaultQ → FaultQ) : (s.modFaultQ n f).rla = s.rla := rfl
@[simp] theorem State.modFaultQ_eng (s : State) (n : Nat) (f : FaultQ → FaultQ) : (s.modFaultQ n f).eng = s.eng := rfl
@[simp] theorem State.modFaultQ_dcs (s : State) (n : Nat) (f : FaultQ → FaultQ) : (s.modFaultQ n f).dcs = s.dcs := rfl
@[simp] theorem State.modFaultQ_hcf (s : State) (n : Nat) (f : FaultQ → FaultQ) : (s.modFaultQ n f).hcf = s.hcf := rfl
@[simp] theorem State.modFaultQ_sm (s : State) (n : Nat) (f : FaultQ → FaultQ) : (s.modFaultQ n f).sm = s.sm := rfl
@[simp] theorem State.modFaultQ_cc (s : State) (n : Nat) (f : FaultQ → FaultQ) : (s.modFaultQ n f).cc = s.cc := rfl
@[simp] theorem State.modFaultQ_inSc (s : State) (n : Nat) (f : FaultQ → FaultQ) : (s.modFaultQ n f).inSc = s.inSc := rfl
@[simp] theorem State.modFaultQ_mrs (s : State) (n : Nat) (f : FaultQ → FaultQ) : (s.modFaultQ n f).mrs = s.mrs := rfl
@[simp] theorem State.modFaultQ_link (s : State) (n : Nat) (f : FaultQ → FaultQ) : (s.modFaultQ n f).link = s.link := rfl
@[simp] theorem State.modFaultQ_shf (s : State) (n : Nat) (f : FaultQ → FaultQ) : (s.modFaultQ n f).shf = s.shf := rfl
@[simp] theorem State.modFaultQ_stu (s : State) (n : Nat) (f : FaultQ → FaultQ) : (s.modFaultQ n f).stu = s.stu := rfl
@[simp] theorem State.modFaultQ_tcs (s : State) (n : Nat) (f : FaultQ → FaultQ) : (s.modFaultQ n f).tcs = s.tcs := rfl
@[simp] theorem State.modFaultQ_yoke (s : State) (n : Nat) (f : FaultQ → FaultQ) : (s.modFaultQ n f).yoke = s.yoke := rfl
@[simp] theorem State.modFaultQ_pru (s : State) (n : Nat) (f : FaultQ → FaultQ) : (s.modFaultQ n f).pru = s.pru := rfl
@[simp] theorem State.modFaultQ_mdu (s : State) (n : Nat) (f : FaultQ → FaultQ) : (s.modFaultQ n f).mdu = s.mdu := rfl
@[simp] theorem State.modFaultQ_ccx (s : State) (n : Nat) (f : FaultQ → FaultQ) : (s.modFaultQ n f).ccx = s.ccx := rfl
@[simp] theorem State.modFaultQ_nv (s : State) (n : Nat) (f : FaultQ → FaultQ) : (s.modFaultQ n f).nv = s.nv := rfl
@[simp] theorem State.modFaultQ_tr (s : State) (n : Nat) (f : FaultQ → FaultQ) : (s.modFaultQ n f).tr = s.tr := rfl
@[simp] theorem State.modFaultQ_hv (s : State) (n : Nat) (f : FaultQ → FaultQ) : (s.modFaultQ n f).hv = s.hv := rfl

@[simp] theorem State.setDomain_pending (s : State) (c : Nat) (d : Domain) : (s.setDomain c d).pending = s.pending := rfl
@[simp] theorem State.setDomain_now (s : State) (c : Nat) (d : Domain) : (s.setDomain c d).now = s.now := rfl
@[simp] theorem State.setDomain_free (s : State) (c : Nat) (d : Domain) : (s.setDomain c d).free = s.free := rfl
@[simp] theorem State.setDomain_su (s : State) (c : Nat) (d : Domain) : (s.setDomain c d).su = s.su := rfl
@[simp] theorem State.setDomain_pins (s : State) (c : Nat) (d : Domain) : (s.setDomain c d).pins = s.pins := rfl
@[simp] theorem State.setDomain_mt (s : State) (c : Nat) (d : Domain) : (s.setDomain c d).mt = s.mt := rfl
@[simp] theorem State.setDomain_mesh (s : State) (c : Nat) (d : Domain) : (s.setDomain c d).mesh = s.mesh := rfl
@[simp] theorem State.setDomain_fm (s : State) (c : Nat) (d : Domain) : (s.setDomain c d).fm = s.fm := rfl
@[simp] theorem State.setDomain_gs (s : State) (c : Nat) (d : Domain) : (s.setDomain c d).gs = s.gs := rfl
@[simp] theorem State.setDomain_sow (s : State) (c : Nat) (d : Domain) : (s.setDomain c d).sow = s.sow := rfl
@[simp] theorem State.setDomain_de (s : State) (c : Nat) (d : Domain) : (s.setDomain c d).de = s.de := rfl
@[simp] theorem State.setDomain_rla (s : State) (c : Nat) (d : Domain) : (s.setDomain c d).rla = s.rla := rfl
@[simp] theorem State.setDomain_eng (s : State) (c : Nat) (d : Domain) : (s.setDomain c d).eng = s.eng := rfl
@[simp] theorem State.setDomain_hcf (s : State) (c : Nat) (d : Domain) : (s.setDomain c d).hcf = s.hcf := rfl
@[simp] theorem State.setDomain_sm (s : State) (c : Nat) (d : Domain) : (s.setDomain c d).sm = s.sm := rfl
@[simp] theorem State.setDomain_cc (s : State) (c : Nat) (d : Domain) : (s.setDomain c d).cc = s.cc := rfl
@[simp] theorem State.setDomain_inSc (s : State) (c : Nat) (d : Domain) : (s.setDomain c d).inSc = s.inSc := rfl
@[simp] theorem State.setDomain_mrs (s : State) (c : Nat) (d : Domain) : (s.setDomain c d).mrs = s.mrs := rfl
@[simp] theorem State.setDomain_link (s : State) (c : Nat) (d : Domain) : (s.setDomain c d).link = s.link := rfl
@[simp] theorem State.setDomain_shf (s : State) (c : Nat) (d : Domain) : (s.setDomain c d).shf = s.shf := rfl
@[simp] theorem State.setDomain_stu (s : State) (c : Nat) (d : Domain) : (s.setDomain c d).stu = s.stu := rfl
@[simp] theorem State.setDomain_tcs (s : State) (c : Nat) (d : Domain) : (s.setDomain c d).tcs = s.tcs := rfl
@[simp] theorem State.setDomain_yoke (s : State) (c : Nat) (d : Domain) : (s.setDomain c d).yoke = s.yoke := rfl
@[simp] theorem State.setDomain_pru (s : State) (c : Nat) (d : Domain) : (s.setDomain c d).pru = s.pru := rfl
@[simp] theorem State.setDomain_mdu (s : State) (c : Nat) (d : Domain) : (s.setDomain c d).mdu = s.mdu := rfl
@[simp] theorem State.setDomain_ccx (s : State) (c : Nat) (d : Domain) : (s.setDomain c d).ccx = s.ccx := rfl
@[simp] theorem State.setDomain_ftt (s : State) (c : Nat) (d : Domain) : (s.setDomain c d).ftt = s.ftt := rfl
@[simp] theorem State.setDomain_nv (s : State) (c : Nat) (d : Domain) : (s.setDomain c d).nv = s.nv := rfl
@[simp] theorem State.setDomain_tr (s : State) (c : Nat) (d : Domain) : (s.setDomain c d).tr = s.tr := rfl
@[simp] theorem State.setDomain_hv (s : State) (c : Nat) (d : Domain) : (s.setDomain c d).hv = s.hv := rfl

@[simp] theorem State.bump_pending (s : State) (i n : Nat) : (s.bump i n).pending = s.pending := rfl
@[simp] theorem State.bump_now (s : State) (i n : Nat) : (s.bump i n).now = s.now := rfl
@[simp] theorem State.bump_free (s : State) (i n : Nat) : (s.bump i n).free = s.free := rfl
@[simp] theorem State.bump_su (s : State) (i n : Nat) : (s.bump i n).su = s.su := rfl
@[simp] theorem State.bump_pins (s : State) (i n : Nat) : (s.bump i n).pins = s.pins := rfl
@[simp] theorem State.bump_mt (s : State) (i n : Nat) : (s.bump i n).mt = s.mt := rfl
@[simp] theorem State.bump_mesh (s : State) (i n : Nat) : (s.bump i n).mesh = s.mesh := rfl
@[simp] theorem State.bump_fm (s : State) (i n : Nat) : (s.bump i n).fm = s.fm := rfl
@[simp] theorem State.bump_gs (s : State) (i n : Nat) : (s.bump i n).gs = s.gs := rfl
@[simp] theorem State.bump_sow (s : State) (i n : Nat) : (s.bump i n).sow = s.sow := rfl
@[simp] theorem State.bump_de (s : State) (i n : Nat) : (s.bump i n).de = s.de := rfl
@[simp] theorem State.bump_rla (s : State) (i n : Nat) : (s.bump i n).rla = s.rla := rfl
@[simp] theorem State.bump_eng (s : State) (i n : Nat) : (s.bump i n).eng = s.eng := rfl
@[simp] theorem State.bump_dcs (s : State) (i n : Nat) : (s.bump i n).dcs = s.dcs := rfl
@[simp] theorem State.bump_hcf (s : State) (i n : Nat) : (s.bump i n).hcf = s.hcf := rfl
@[simp] theorem State.bump_sm (s : State) (i n : Nat) : (s.bump i n).sm = s.sm := rfl
@[simp] theorem State.bump_cc (s : State) (i n : Nat) : (s.bump i n).cc = s.cc := rfl
@[simp] theorem State.bump_inSc (s : State) (i n : Nat) : (s.bump i n).inSc = s.inSc := rfl
@[simp] theorem State.bump_mrs (s : State) (i n : Nat) : (s.bump i n).mrs = s.mrs := rfl
@[simp] theorem State.bump_link (s : State) (i n : Nat) : (s.bump i n).link = s.link := rfl
@[simp] theorem State.bump_shf (s : State) (i n : Nat) : (s.bump i n).shf = s.shf := rfl
@[simp] theorem State.bump_stu (s : State) (i n : Nat) : (s.bump i n).stu = s.stu := rfl
@[simp] theorem State.bump_tcs (s : State) (i n : Nat) : (s.bump i n).tcs = s.tcs := rfl
@[simp] theorem State.bump_yoke (s : State) (i n : Nat) : (s.bump i n).yoke = s.yoke := rfl
@[simp] theorem State.bump_pru (s : State) (i n : Nat) : (s.bump i n).pru = s.pru := rfl
@[simp] theorem State.bump_mdu (s : State) (i n : Nat) : (s.bump i n).mdu = s.mdu := rfl
@[simp] theorem State.bump_ccx (s : State) (i n : Nat) : (s.bump i n).ccx = s.ccx := rfl
@[simp] theorem State.bump_ftt (s : State) (i n : Nat) : (s.bump i n).ftt = s.ftt := rfl
@[simp] theorem State.bump_nv (s : State) (i n : Nat) : (s.bump i n).nv = s.nv := rfl
@[simp] theorem State.bump_tr (s : State) (i n : Nat) : (s.bump i n).tr = s.tr := rfl

@[simp] theorem State.bumpEng_pending (s : State) (e k n : Nat) : (s.bumpEng e k n).pending = s.pending := rfl
@[simp] theorem State.bumpEng_now (s : State) (e k n : Nat) : (s.bumpEng e k n).now = s.now := rfl
@[simp] theorem State.bumpEng_free (s : State) (e k n : Nat) : (s.bumpEng e k n).free = s.free := rfl
@[simp] theorem State.bumpEng_su (s : State) (e k n : Nat) : (s.bumpEng e k n).su = s.su := rfl
@[simp] theorem State.bumpEng_pins (s : State) (e k n : Nat) : (s.bumpEng e k n).pins = s.pins := rfl
@[simp] theorem State.bumpEng_mt (s : State) (e k n : Nat) : (s.bumpEng e k n).mt = s.mt := rfl
@[simp] theorem State.bumpEng_mesh (s : State) (e k n : Nat) : (s.bumpEng e k n).mesh = s.mesh := rfl
@[simp] theorem State.bumpEng_fm (s : State) (e k n : Nat) : (s.bumpEng e k n).fm = s.fm := rfl
@[simp] theorem State.bumpEng_gs (s : State) (e k n : Nat) : (s.bumpEng e k n).gs = s.gs := rfl
@[simp] theorem State.bumpEng_sow (s : State) (e k n : Nat) : (s.bumpEng e k n).sow = s.sow := rfl
@[simp] theorem State.bumpEng_de (s : State) (e k n : Nat) : (s.bumpEng e k n).de = s.de := rfl
@[simp] theorem State.bumpEng_rla (s : State) (e k n : Nat) : (s.bumpEng e k n).rla = s.rla := rfl
@[simp] theorem State.bumpEng_eng (s : State) (e k n : Nat) : (s.bumpEng e k n).eng = s.eng := rfl
@[simp] theorem State.bumpEng_dcs (s : State) (e k n : Nat) : (s.bumpEng e k n).dcs = s.dcs := rfl
@[simp] theorem State.bumpEng_hcf (s : State) (e k n : Nat) : (s.bumpEng e k n).hcf = s.hcf := rfl
@[simp] theorem State.bumpEng_sm (s : State) (e k n : Nat) : (s.bumpEng e k n).sm = s.sm := rfl
@[simp] theorem State.bumpEng_cc (s : State) (e k n : Nat) : (s.bumpEng e k n).cc = s.cc := rfl
@[simp] theorem State.bumpEng_inSc (s : State) (e k n : Nat) : (s.bumpEng e k n).inSc = s.inSc := rfl
@[simp] theorem State.bumpEng_mrs (s : State) (e k n : Nat) : (s.bumpEng e k n).mrs = s.mrs := rfl
@[simp] theorem State.bumpEng_link (s : State) (e k n : Nat) : (s.bumpEng e k n).link = s.link := rfl
@[simp] theorem State.bumpEng_shf (s : State) (e k n : Nat) : (s.bumpEng e k n).shf = s.shf := rfl
@[simp] theorem State.bumpEng_stu (s : State) (e k n : Nat) : (s.bumpEng e k n).stu = s.stu := rfl
@[simp] theorem State.bumpEng_tcs (s : State) (e k n : Nat) : (s.bumpEng e k n).tcs = s.tcs := rfl
@[simp] theorem State.bumpEng_yoke (s : State) (e k n : Nat) : (s.bumpEng e k n).yoke = s.yoke := rfl
@[simp] theorem State.bumpEng_pru (s : State) (e k n : Nat) : (s.bumpEng e k n).pru = s.pru := rfl
@[simp] theorem State.bumpEng_mdu (s : State) (e k n : Nat) : (s.bumpEng e k n).mdu = s.mdu := rfl
@[simp] theorem State.bumpEng_ccx (s : State) (e k n : Nat) : (s.bumpEng e k n).ccx = s.ccx := rfl
@[simp] theorem State.bumpEng_ftt (s : State) (e k n : Nat) : (s.bumpEng e k n).ftt = s.ftt := rfl
@[simp] theorem State.bumpEng_nv (s : State) (e k n : Nat) : (s.bumpEng e k n).nv = s.nv := rfl
@[simp] theorem State.bumpEng_tr (s : State) (e k n : Nat) : (s.bumpEng e k n).tr = s.tr := rfl

@[simp] theorem State.bumpPlot_pending (s : State) (p k n : Nat) : (s.bumpPlot p k n).pending = s.pending := rfl
@[simp] theorem State.bumpPlot_now (s : State) (p k n : Nat) : (s.bumpPlot p k n).now = s.now := rfl
@[simp] theorem State.bumpPlot_free (s : State) (p k n : Nat) : (s.bumpPlot p k n).free = s.free := rfl
@[simp] theorem State.bumpPlot_su (s : State) (p k n : Nat) : (s.bumpPlot p k n).su = s.su := rfl
@[simp] theorem State.bumpPlot_pins (s : State) (p k n : Nat) : (s.bumpPlot p k n).pins = s.pins := rfl
@[simp] theorem State.bumpPlot_mt (s : State) (p k n : Nat) : (s.bumpPlot p k n).mt = s.mt := rfl
@[simp] theorem State.bumpPlot_mesh (s : State) (p k n : Nat) : (s.bumpPlot p k n).mesh = s.mesh := rfl
@[simp] theorem State.bumpPlot_fm (s : State) (p k n : Nat) : (s.bumpPlot p k n).fm = s.fm := rfl
@[simp] theorem State.bumpPlot_gs (s : State) (p k n : Nat) : (s.bumpPlot p k n).gs = s.gs := rfl
@[simp] theorem State.bumpPlot_sow (s : State) (p k n : Nat) : (s.bumpPlot p k n).sow = s.sow := rfl
@[simp] theorem State.bumpPlot_de (s : State) (p k n : Nat) : (s.bumpPlot p k n).de = s.de := rfl
@[simp] theorem State.bumpPlot_rla (s : State) (p k n : Nat) : (s.bumpPlot p k n).rla = s.rla := rfl
@[simp] theorem State.bumpPlot_eng (s : State) (p k n : Nat) : (s.bumpPlot p k n).eng = s.eng := rfl
@[simp] theorem State.bumpPlot_dcs (s : State) (p k n : Nat) : (s.bumpPlot p k n).dcs = s.dcs := rfl
@[simp] theorem State.bumpPlot_hcf (s : State) (p k n : Nat) : (s.bumpPlot p k n).hcf = s.hcf := rfl
@[simp] theorem State.bumpPlot_sm (s : State) (p k n : Nat) : (s.bumpPlot p k n).sm = s.sm := rfl
@[simp] theorem State.bumpPlot_cc (s : State) (p k n : Nat) : (s.bumpPlot p k n).cc = s.cc := rfl
@[simp] theorem State.bumpPlot_inSc (s : State) (p k n : Nat) : (s.bumpPlot p k n).inSc = s.inSc := rfl
@[simp] theorem State.bumpPlot_mrs (s : State) (p k n : Nat) : (s.bumpPlot p k n).mrs = s.mrs := rfl
@[simp] theorem State.bumpPlot_link (s : State) (p k n : Nat) : (s.bumpPlot p k n).link = s.link := rfl
@[simp] theorem State.bumpPlot_shf (s : State) (p k n : Nat) : (s.bumpPlot p k n).shf = s.shf := rfl
@[simp] theorem State.bumpPlot_stu (s : State) (p k n : Nat) : (s.bumpPlot p k n).stu = s.stu := rfl
@[simp] theorem State.bumpPlot_tcs (s : State) (p k n : Nat) : (s.bumpPlot p k n).tcs = s.tcs := rfl
@[simp] theorem State.bumpPlot_yoke (s : State) (p k n : Nat) : (s.bumpPlot p k n).yoke = s.yoke := rfl
@[simp] theorem State.bumpPlot_pru (s : State) (p k n : Nat) : (s.bumpPlot p k n).pru = s.pru := rfl
@[simp] theorem State.bumpPlot_mdu (s : State) (p k n : Nat) : (s.bumpPlot p k n).mdu = s.mdu := rfl
@[simp] theorem State.bumpPlot_ccx (s : State) (p k n : Nat) : (s.bumpPlot p k n).ccx = s.ccx := rfl
@[simp] theorem State.bumpPlot_ftt (s : State) (p k n : Nat) : (s.bumpPlot p k n).ftt = s.ftt := rfl
@[simp] theorem State.bumpPlot_nv (s : State) (p k n : Nat) : (s.bumpPlot p k n).nv = s.nv := rfl
@[simp] theorem State.bumpPlot_tr (s : State) (p k n : Nat) : (s.bumpPlot p k n).tr = s.tr := rfl

@[simp] theorem State.bumpFn_pending (s : State) (n k m : Nat) : (s.bumpFn n k m).pending = s.pending := rfl
@[simp] theorem State.bumpFn_now (s : State) (n k m : Nat) : (s.bumpFn n k m).now = s.now := rfl
@[simp] theorem State.bumpFn_free (s : State) (n k m : Nat) : (s.bumpFn n k m).free = s.free := rfl
@[simp] theorem State.bumpFn_su (s : State) (n k m : Nat) : (s.bumpFn n k m).su = s.su := rfl
@[simp] theorem State.bumpFn_pins (s : State) (n k m : Nat) : (s.bumpFn n k m).pins = s.pins := rfl
@[simp] theorem State.bumpFn_mt (s : State) (n k m : Nat) : (s.bumpFn n k m).mt = s.mt := rfl
@[simp] theorem State.bumpFn_mesh (s : State) (n k m : Nat) : (s.bumpFn n k m).mesh = s.mesh := rfl
@[simp] theorem State.bumpFn_fm (s : State) (n k m : Nat) : (s.bumpFn n k m).fm = s.fm := rfl
@[simp] theorem State.bumpFn_gs (s : State) (n k m : Nat) : (s.bumpFn n k m).gs = s.gs := rfl
@[simp] theorem State.bumpFn_sow (s : State) (n k m : Nat) : (s.bumpFn n k m).sow = s.sow := rfl
@[simp] theorem State.bumpFn_de (s : State) (n k m : Nat) : (s.bumpFn n k m).de = s.de := rfl
@[simp] theorem State.bumpFn_rla (s : State) (n k m : Nat) : (s.bumpFn n k m).rla = s.rla := rfl
@[simp] theorem State.bumpFn_eng (s : State) (n k m : Nat) : (s.bumpFn n k m).eng = s.eng := rfl
@[simp] theorem State.bumpFn_dcs (s : State) (n k m : Nat) : (s.bumpFn n k m).dcs = s.dcs := rfl
@[simp] theorem State.bumpFn_hcf (s : State) (n k m : Nat) : (s.bumpFn n k m).hcf = s.hcf := rfl
@[simp] theorem State.bumpFn_sm (s : State) (n k m : Nat) : (s.bumpFn n k m).sm = s.sm := rfl
@[simp] theorem State.bumpFn_cc (s : State) (n k m : Nat) : (s.bumpFn n k m).cc = s.cc := rfl
@[simp] theorem State.bumpFn_inSc (s : State) (n k m : Nat) : (s.bumpFn n k m).inSc = s.inSc := rfl
@[simp] theorem State.bumpFn_mrs (s : State) (n k m : Nat) : (s.bumpFn n k m).mrs = s.mrs := rfl
@[simp] theorem State.bumpFn_link (s : State) (n k m : Nat) : (s.bumpFn n k m).link = s.link := rfl
@[simp] theorem State.bumpFn_shf (s : State) (n k m : Nat) : (s.bumpFn n k m).shf = s.shf := rfl
@[simp] theorem State.bumpFn_stu (s : State) (n k m : Nat) : (s.bumpFn n k m).stu = s.stu := rfl
@[simp] theorem State.bumpFn_tcs (s : State) (n k m : Nat) : (s.bumpFn n k m).tcs = s.tcs := rfl
@[simp] theorem State.bumpFn_yoke (s : State) (n k m : Nat) : (s.bumpFn n k m).yoke = s.yoke := rfl
@[simp] theorem State.bumpFn_pru (s : State) (n k m : Nat) : (s.bumpFn n k m).pru = s.pru := rfl
@[simp] theorem State.bumpFn_mdu (s : State) (n k m : Nat) : (s.bumpFn n k m).mdu = s.mdu := rfl
@[simp] theorem State.bumpFn_ccx (s : State) (n k m : Nat) : (s.bumpFn n k m).ccx = s.ccx := rfl
@[simp] theorem State.bumpFn_ftt (s : State) (n k m : Nat) : (s.bumpFn n k m).ftt = s.ftt := rfl
@[simp] theorem State.bumpFn_nv (s : State) (n k m : Nat) : (s.bumpFn n k m).nv = s.nv := rfl
@[simp] theorem State.bumpFn_tr (s : State) (n k m : Nat) : (s.bumpFn n k m).tr = s.tr := rfl

@[simp] theorem State.bumpChip_pending (s : State) (j n : Nat) : (s.bumpChip j n).pending = s.pending := rfl
@[simp] theorem State.bumpChip_now (s : State) (j n : Nat) : (s.bumpChip j n).now = s.now := rfl
@[simp] theorem State.bumpChip_free (s : State) (j n : Nat) : (s.bumpChip j n).free = s.free := rfl
@[simp] theorem State.bumpChip_su (s : State) (j n : Nat) : (s.bumpChip j n).su = s.su := rfl
@[simp] theorem State.bumpChip_pins (s : State) (j n : Nat) : (s.bumpChip j n).pins = s.pins := rfl
@[simp] theorem State.bumpChip_mt (s : State) (j n : Nat) : (s.bumpChip j n).mt = s.mt := rfl
@[simp] theorem State.bumpChip_mesh (s : State) (j n : Nat) : (s.bumpChip j n).mesh = s.mesh := rfl
@[simp] theorem State.bumpChip_fm (s : State) (j n : Nat) : (s.bumpChip j n).fm = s.fm := rfl
@[simp] theorem State.bumpChip_gs (s : State) (j n : Nat) : (s.bumpChip j n).gs = s.gs := rfl
@[simp] theorem State.bumpChip_sow (s : State) (j n : Nat) : (s.bumpChip j n).sow = s.sow := rfl
@[simp] theorem State.bumpChip_de (s : State) (j n : Nat) : (s.bumpChip j n).de = s.de := rfl
@[simp] theorem State.bumpChip_rla (s : State) (j n : Nat) : (s.bumpChip j n).rla = s.rla := rfl
@[simp] theorem State.bumpChip_eng (s : State) (j n : Nat) : (s.bumpChip j n).eng = s.eng := rfl
@[simp] theorem State.bumpChip_dcs (s : State) (j n : Nat) : (s.bumpChip j n).dcs = s.dcs := rfl
@[simp] theorem State.bumpChip_hcf (s : State) (j n : Nat) : (s.bumpChip j n).hcf = s.hcf := rfl
@[simp] theorem State.bumpChip_sm (s : State) (j n : Nat) : (s.bumpChip j n).sm = s.sm := rfl
@[simp] theorem State.bumpChip_cc (s : State) (j n : Nat) : (s.bumpChip j n).cc = s.cc := rfl
@[simp] theorem State.bumpChip_inSc (s : State) (j n : Nat) : (s.bumpChip j n).inSc = s.inSc := rfl
@[simp] theorem State.bumpChip_mrs (s : State) (j n : Nat) : (s.bumpChip j n).mrs = s.mrs := rfl
@[simp] theorem State.bumpChip_link (s : State) (j n : Nat) : (s.bumpChip j n).link = s.link := rfl
@[simp] theorem State.bumpChip_shf (s : State) (j n : Nat) : (s.bumpChip j n).shf = s.shf := rfl
@[simp] theorem State.bumpChip_stu (s : State) (j n : Nat) : (s.bumpChip j n).stu = s.stu := rfl
@[simp] theorem State.bumpChip_tcs (s : State) (j n : Nat) : (s.bumpChip j n).tcs = s.tcs := rfl
@[simp] theorem State.bumpChip_yoke (s : State) (j n : Nat) : (s.bumpChip j n).yoke = s.yoke := rfl
@[simp] theorem State.bumpChip_pru (s : State) (j n : Nat) : (s.bumpChip j n).pru = s.pru := rfl
@[simp] theorem State.bumpChip_mdu (s : State) (j n : Nat) : (s.bumpChip j n).mdu = s.mdu := rfl
@[simp] theorem State.bumpChip_ccx (s : State) (j n : Nat) : (s.bumpChip j n).ccx = s.ccx := rfl
@[simp] theorem State.bumpChip_ftt (s : State) (j n : Nat) : (s.bumpChip j n).ftt = s.ftt := rfl
@[simp] theorem State.bumpChip_nv (s : State) (j n : Nat) : (s.bumpChip j n).nv = s.nv := rfl
@[simp] theorem State.bumpChip_tr (s : State) (j n : Nat) : (s.bumpChip j n).tr = s.tr := rfl

@[simp] theorem State.modGraph_pending (s : State) (h : Nat) (f : Graph → Graph) : (s.modGraph h f).pending = s.pending := by
  unfold State.modGraph; split <;> rfl
@[simp] theorem State.modGraph_now (s : State) (h : Nat) (f : Graph → Graph) : (s.modGraph h f).now = s.now := by
  unfold State.modGraph; split <;> rfl
@[simp] theorem State.modGraph_free (s : State) (h : Nat) (f : Graph → Graph) : (s.modGraph h f).free = s.free := by
  unfold State.modGraph; split <;> rfl
@[simp] theorem State.modGraph_su (s : State) (h : Nat) (f : Graph → Graph) : (s.modGraph h f).su = s.su := by
  unfold State.modGraph; split <;> rfl
@[simp] theorem State.modGraph_pins (s : State) (h : Nat) (f : Graph → Graph) : (s.modGraph h f).pins = s.pins := by
  unfold State.modGraph; split <;> rfl
@[simp] theorem State.modGraph_mt (s : State) (h : Nat) (f : Graph → Graph) : (s.modGraph h f).mt = s.mt := by
  unfold State.modGraph; split <;> rfl
@[simp] theorem State.modGraph_mesh (s : State) (h : Nat) (f : Graph → Graph) : (s.modGraph h f).mesh = s.mesh := by
  unfold State.modGraph; split <;> rfl
@[simp] theorem State.modGraph_fm (s : State) (h : Nat) (f : Graph → Graph) : (s.modGraph h f).fm = s.fm := by
  unfold State.modGraph; split <;> rfl
@[simp] theorem State.modGraph_sow (s : State) (h : Nat) (f : Graph → Graph) : (s.modGraph h f).sow = s.sow := by
  unfold State.modGraph; split <;> rfl
@[simp] theorem State.modGraph_de (s : State) (h : Nat) (f : Graph → Graph) : (s.modGraph h f).de = s.de := by
  unfold State.modGraph; split <;> rfl
@[simp] theorem State.modGraph_rla (s : State) (h : Nat) (f : Graph → Graph) : (s.modGraph h f).rla = s.rla := by
  unfold State.modGraph; split <;> rfl
@[simp] theorem State.modGraph_eng (s : State) (h : Nat) (f : Graph → Graph) : (s.modGraph h f).eng = s.eng := by
  unfold State.modGraph; split <;> rfl
@[simp] theorem State.modGraph_dcs (s : State) (h : Nat) (f : Graph → Graph) : (s.modGraph h f).dcs = s.dcs := by
  unfold State.modGraph; split <;> rfl
@[simp] theorem State.modGraph_hcf (s : State) (h : Nat) (f : Graph → Graph) : (s.modGraph h f).hcf = s.hcf := by
  unfold State.modGraph; split <;> rfl
@[simp] theorem State.modGraph_sm (s : State) (h : Nat) (f : Graph → Graph) : (s.modGraph h f).sm = s.sm := by
  unfold State.modGraph; split <;> rfl
@[simp] theorem State.modGraph_cc (s : State) (h : Nat) (f : Graph → Graph) : (s.modGraph h f).cc = s.cc := by
  unfold State.modGraph; split <;> rfl
@[simp] theorem State.modGraph_inSc (s : State) (h : Nat) (f : Graph → Graph) : (s.modGraph h f).inSc = s.inSc := by
  unfold State.modGraph; split <;> rfl
@[simp] theorem State.modGraph_mrs (s : State) (h : Nat) (f : Graph → Graph) : (s.modGraph h f).mrs = s.mrs := by
  unfold State.modGraph; split <;> rfl
@[simp] theorem State.modGraph_link (s : State) (h : Nat) (f : Graph → Graph) : (s.modGraph h f).link = s.link := by
  unfold State.modGraph; split <;> rfl
@[simp] theorem State.modGraph_shf (s : State) (h : Nat) (f : Graph → Graph) : (s.modGraph h f).shf = s.shf := by
  unfold State.modGraph; split <;> rfl
@[simp] theorem State.modGraph_stu (s : State) (h : Nat) (f : Graph → Graph) : (s.modGraph h f).stu = s.stu := by
  unfold State.modGraph; split <;> rfl
@[simp] theorem State.modGraph_tcs (s : State) (h : Nat) (f : Graph → Graph) : (s.modGraph h f).tcs = s.tcs := by
  unfold State.modGraph; split <;> rfl
@[simp] theorem State.modGraph_yoke (s : State) (h : Nat) (f : Graph → Graph) : (s.modGraph h f).yoke = s.yoke := by
  unfold State.modGraph; split <;> rfl
@[simp] theorem State.modGraph_pru (s : State) (h : Nat) (f : Graph → Graph) : (s.modGraph h f).pru = s.pru := by
  unfold State.modGraph; split <;> rfl
@[simp] theorem State.modGraph_mdu (s : State) (h : Nat) (f : Graph → Graph) : (s.modGraph h f).mdu = s.mdu := by
  unfold State.modGraph; split <;> rfl
@[simp] theorem State.modGraph_ccx (s : State) (h : Nat) (f : Graph → Graph) : (s.modGraph h f).ccx = s.ccx := by
  unfold State.modGraph; split <;> rfl
@[simp] theorem State.modGraph_ftt (s : State) (h : Nat) (f : Graph → Graph) : (s.modGraph h f).ftt = s.ftt := by
  unfold State.modGraph; split <;> rfl
@[simp] theorem State.modGraph_nv (s : State) (h : Nat) (f : Graph → Graph) : (s.modGraph h f).nv = s.nv := by
  unfold State.modGraph; split <;> rfl
@[simp] theorem State.modGraph_tr (s : State) (h : Nat) (f : Graph → Graph) : (s.modGraph h f).tr = s.tr := by
  unfold State.modGraph; split <;> rfl
@[simp] theorem State.modGraph_hv (s : State) (h : Nat) (f : Graph → Graph) : (s.modGraph h f).hv = s.hv := by
  unfold State.modGraph; split <;> rfl

@[simp] theorem State.modSowing_pending (s : State) (k : Nat) (f : Sowing → Sowing) : (s.modSowing k f).pending = s.pending := by
  unfold State.modSowing; split <;> rfl
@[simp] theorem State.modSowing_now (s : State) (k : Nat) (f : Sowing → Sowing) : (s.modSowing k f).now = s.now := by
  unfold State.modSowing; split <;> rfl
@[simp] theorem State.modSowing_free (s : State) (k : Nat) (f : Sowing → Sowing) : (s.modSowing k f).free = s.free := by
  unfold State.modSowing; split <;> rfl
@[simp] theorem State.modSowing_su (s : State) (k : Nat) (f : Sowing → Sowing) : (s.modSowing k f).su = s.su := by
  unfold State.modSowing; split <;> rfl
@[simp] theorem State.modSowing_pins (s : State) (k : Nat) (f : Sowing → Sowing) : (s.modSowing k f).pins = s.pins := by
  unfold State.modSowing; split <;> rfl
@[simp] theorem State.modSowing_mt (s : State) (k : Nat) (f : Sowing → Sowing) : (s.modSowing k f).mt = s.mt := by
  unfold State.modSowing; split <;> rfl
@[simp] theorem State.modSowing_mesh (s : State) (k : Nat) (f : Sowing → Sowing) : (s.modSowing k f).mesh = s.mesh := by
  unfold State.modSowing; split <;> rfl
@[simp] theorem State.modSowing_fm (s : State) (k : Nat) (f : Sowing → Sowing) : (s.modSowing k f).fm = s.fm := by
  unfold State.modSowing; split <;> rfl
@[simp] theorem State.modSowing_gs (s : State) (k : Nat) (f : Sowing → Sowing) : (s.modSowing k f).gs = s.gs := by
  unfold State.modSowing; split <;> rfl
@[simp] theorem State.modSowing_de (s : State) (k : Nat) (f : Sowing → Sowing) : (s.modSowing k f).de = s.de := by
  unfold State.modSowing; split <;> rfl
@[simp] theorem State.modSowing_rla (s : State) (k : Nat) (f : Sowing → Sowing) : (s.modSowing k f).rla = s.rla := by
  unfold State.modSowing; split <;> rfl
@[simp] theorem State.modSowing_eng (s : State) (k : Nat) (f : Sowing → Sowing) : (s.modSowing k f).eng = s.eng := by
  unfold State.modSowing; split <;> rfl
@[simp] theorem State.modSowing_dcs (s : State) (k : Nat) (f : Sowing → Sowing) : (s.modSowing k f).dcs = s.dcs := by
  unfold State.modSowing; split <;> rfl
@[simp] theorem State.modSowing_hcf (s : State) (k : Nat) (f : Sowing → Sowing) : (s.modSowing k f).hcf = s.hcf := by
  unfold State.modSowing; split <;> rfl
@[simp] theorem State.modSowing_sm (s : State) (k : Nat) (f : Sowing → Sowing) : (s.modSowing k f).sm = s.sm := by
  unfold State.modSowing; split <;> rfl
@[simp] theorem State.modSowing_cc (s : State) (k : Nat) (f : Sowing → Sowing) : (s.modSowing k f).cc = s.cc := by
  unfold State.modSowing; split <;> rfl
@[simp] theorem State.modSowing_inSc (s : State) (k : Nat) (f : Sowing → Sowing) : (s.modSowing k f).inSc = s.inSc := by
  unfold State.modSowing; split <;> rfl
@[simp] theorem State.modSowing_mrs (s : State) (k : Nat) (f : Sowing → Sowing) : (s.modSowing k f).mrs = s.mrs := by
  unfold State.modSowing; split <;> rfl
@[simp] theorem State.modSowing_link (s : State) (k : Nat) (f : Sowing → Sowing) : (s.modSowing k f).link = s.link := by
  unfold State.modSowing; split <;> rfl
@[simp] theorem State.modSowing_shf (s : State) (k : Nat) (f : Sowing → Sowing) : (s.modSowing k f).shf = s.shf := by
  unfold State.modSowing; split <;> rfl
@[simp] theorem State.modSowing_stu (s : State) (k : Nat) (f : Sowing → Sowing) : (s.modSowing k f).stu = s.stu := by
  unfold State.modSowing; split <;> rfl
@[simp] theorem State.modSowing_tcs (s : State) (k : Nat) (f : Sowing → Sowing) : (s.modSowing k f).tcs = s.tcs := by
  unfold State.modSowing; split <;> rfl
@[simp] theorem State.modSowing_yoke (s : State) (k : Nat) (f : Sowing → Sowing) : (s.modSowing k f).yoke = s.yoke := by
  unfold State.modSowing; split <;> rfl
@[simp] theorem State.modSowing_pru (s : State) (k : Nat) (f : Sowing → Sowing) : (s.modSowing k f).pru = s.pru := by
  unfold State.modSowing; split <;> rfl
@[simp] theorem State.modSowing_mdu (s : State) (k : Nat) (f : Sowing → Sowing) : (s.modSowing k f).mdu = s.mdu := by
  unfold State.modSowing; split <;> rfl
@[simp] theorem State.modSowing_ccx (s : State) (k : Nat) (f : Sowing → Sowing) : (s.modSowing k f).ccx = s.ccx := by
  unfold State.modSowing; split <;> rfl
@[simp] theorem State.modSowing_ftt (s : State) (k : Nat) (f : Sowing → Sowing) : (s.modSowing k f).ftt = s.ftt := by
  unfold State.modSowing; split <;> rfl
@[simp] theorem State.modSowing_nv (s : State) (k : Nat) (f : Sowing → Sowing) : (s.modSowing k f).nv = s.nv := by
  unfold State.modSowing; split <;> rfl
@[simp] theorem State.modSowing_tr (s : State) (k : Nat) (f : Sowing → Sowing) : (s.modSowing k f).tr = s.tr := by
  unfold State.modSowing; split <;> rfl
@[simp] theorem State.modSowing_hv (s : State) (k : Nat) (f : Sowing → Sowing) : (s.modSowing k f).hv = s.hv := by
  unfold State.modSowing; split <;> rfl

/-! ### Reading back -/

@[simp] theorem State.engine_setEngine_same (s : State) (e : Nat) (v : Engine) : (s.setEngine e v).engine e = v :=
  Tab.look_put_same _ _ _ _
theorem State.engine_setEngine_of_ne (s : State) {j e : Nat} (v : Engine) (h : j ≠ e) :
    (s.setEngine e v).engine j = s.engine j := Tab.look_put_of_ne _ _ _ h
@[simp] theorem State.engine_modEngine_same (s : State) (e : Nat) (f : Engine → Engine) :
    (s.modEngine e f).engine e = f (s.engine e) := Tab.look_put_same _ _ _ _
theorem State.engine_modEngine_of_ne (s : State) {j e : Nat} (f : Engine → Engine) (h : j ≠ e) :
    (s.modEngine e f).engine j = s.engine j := Tab.look_put_of_ne _ _ _ h

@[simp] theorem State.queue_setQueue_same (s : State) (q : Nat) (v : Queue) : (s.setQueue q v).queue q = v :=
  Tab.look_put_same _ _ _ _
@[simp] theorem State.queue_modQueue_same (s : State) (q : Nat) (f : Queue → Queue) :
    (s.modQueue q f).queue q = f (s.queue q) := Tab.look_put_same _ _ _ _
theorem State.queue_modQueue_of_ne (s : State) {j q : Nat} (f : Queue → Queue) (h : j ≠ q) :
    (s.modQueue q f).queue j = s.queue j := Tab.look_put_of_ne _ _ _ h

@[simp] theorem State.graph?_setGraph_same (s : State) (h : Nat) (v : Graph) : (s.setGraph h v).graph? h = some v :=
  Tab.look?_ins_same _ _ _
theorem State.graph?_modGraph_same (s : State) (h : Nat) (f : Graph → Graph) :
    (s.modGraph h f).graph? h = (s.graph? h).map f := by
  unfold State.modGraph; split <;> rename_i hg <;> simp [hg]
theorem State.graph?_modGraph_of_ne (s : State) {j h : Nat} (f : Graph → Graph) (hj : j ≠ h) :
    (s.modGraph h f).graph? j = s.graph? j := by
  unfold State.modGraph; split
  · exact Tab.look?_ins_of_ne _ _ hj
  · rfl

@[simp] theorem State.sowing?_setSowing_same (s : State) (k : Nat) (v : Sowing) : (s.setSowing k v).sowing? k = some v :=
  Tab.look?_ins_same _ _ _
theorem State.sowing?_modSowing_same (s : State) (k : Nat) (f : Sowing → Sowing) :
    (s.modSowing k f).sowing? k = (s.sowing? k).map f := by
  unfold State.modSowing; split <;> rename_i hg <;> simp [hg]

@[simp] theorem State.plot_modPlot_same (s : State) (p : Nat) (f : Plot → Plot) :
    (s.modPlot p f).plot p = f (s.plot p) := Tab.look_put_same _ _ _ _
theorem State.plot_modPlot_of_ne (s : State) {j p : Nat} (f : Plot → Plot) (h : j ≠ p) :
    (s.modPlot p f).plot j = s.plot j := Tab.look_put_of_ne _ _ _ h

@[simp] theorem State.segment_modSegment_same (s : State) (n g : Nat) (f : Seg → Seg) :
    (s.modSegment n g f).segment n g = f (s.segment n g) := Tab.look_adj_same _ _ _ _

@[simp] theorem State.channel_modChannel_same (s : State) (c : Nat) (f : Channel → Channel) :
    (s.modChannel c f).channel c = f (s.channel c) := Tab.look_adj_same _ _ _ _
theorem State.channel_modChannel_of_ne (s : State) {j c : Nat} (f : Channel → Channel) (h : j ≠ c) :
    (s.modChannel c f).channel j = s.channel j := Tab.look_adj_of_ne _ _ _ h

@[simp] theorem State.faultQ_modFaultQ_same (s : State) (n : Nat) (f : FaultQ → FaultQ) :
    (s.modFaultQ n f).faultQ n = f (s.faultQ n) := Tab.look_adj_same _ _ _ _
theorem State.faultQ_modFaultQ_of_ne (s : State) {j n : Nat} (f : FaultQ → FaultQ) (h : j ≠ n) :
    (s.modFaultQ n f).faultQ j = s.faultQ j := Tab.look_adj_of_ne _ _ _ h

@[simp] theorem State.domain_setDomain_same (s : State) (c : Nat) (d : Domain) : (s.setDomain c d).domain c = d :=
  Tab.look_put_same _ _ _ _

end Sys2Proof.Machine
end

