-- ==== Sys2Proof/Laws/Ops.lean ====
section
/-! SUPPORT. What each shared operation over the mesh, the doorbells, the trace and the fault unit leaves alone. -/
namespace Sys2Proof.Machine

@[simp] theorem State.respond_pending (s : State) (c : BitVec 2) (v : W64) : (s.respond c v).pending = s.pending := rfl
@[simp] theorem State.respond_now (s : State) (c : BitVec 2) (v : W64) : (s.respond c v).now = s.now := rfl
@[simp] theorem State.respond_free (s : State) (c : BitVec 2) (v : W64) : (s.respond c v).free = s.free := rfl
@[simp] theorem State.respond_su (s : State) (c : BitVec 2) (v : W64) : (s.respond c v).su = s.su := rfl
@[simp] theorem State.respond_pins (s : State) (c : BitVec 2) (v : W64) : (s.respond c v).pins = s.pins := rfl
@[simp] theorem State.respond_mesh (s : State) (c : BitVec 2) (v : W64) : (s.respond c v).mesh = s.mesh := rfl
@[simp] theorem State.respond_fm (s : State) (c : BitVec 2) (v : W64) : (s.respond c v).fm = s.fm := rfl
@[simp] theorem State.respond_gs (s : State) (c : BitVec 2) (v : W64) : (s.respond c v).gs = s.gs := rfl
@[simp] theorem State.respond_sow (s : State) (c : BitVec 2) (v : W64) : (s.respond c v).sow = s.sow := rfl
@[simp] theorem State.respond_de (s : State) (c : BitVec 2) (v : W64) : (s.respond c v).de = s.de := rfl
@[simp] theorem State.respond_rla (s : State) (c : BitVec 2) (v : W64) : (s.respond c v).rla = s.rla := rfl
@[simp] theorem State.respond_eng (s : State) (c : BitVec 2) (v : W64) : (s.respond c v).eng = s.eng := rfl
@[simp] theorem State.respond_dcs (s : State) (c : BitVec 2) (v : W64) : (s.respond c v).dcs = s.dcs := rfl
@[simp] theorem State.respond_hcf (s : State) (c : BitVec 2) (v : W64) : (s.respond c v).hcf = s.hcf := rfl
@[simp] theorem State.respond_sm (s : State) (c : BitVec 2) (v : W64) : (s.respond c v).sm = s.sm := rfl
@[simp] theorem State.respond_cc (s : State) (c : BitVec 2) (v : W64) : (s.respond c v).cc = s.cc := rfl
@[simp] theorem State.respond_inSc (s : State) (c : BitVec 2) (v : W64) : (s.respond c v).inSc = s.inSc := rfl

@[simp] theorem State.respond_mrs (s : State) (c : BitVec 2) (v : W64) : (s.respond c v).mrs = s.mrs := rfl
@[simp] theorem State.respond_link (s : State) (c : BitVec 2) (v : W64) : (s.respond c v).link = s.link := rfl
@[simp] theorem State.respond_shf (s : State) (c : BitVec 2) (v : W64) : (s.respond c v).shf = s.shf := rfl
@[simp] theorem State.respond_stu (s : State) (c : BitVec 2) (v : W64) : (s.respond c v).stu = s.stu := rfl
@[simp] theorem State.respond_tcs (s : State) (c : BitVec 2) (v : W64) : (s.respond c v).tcs = s.tcs := rfl
@[simp] theorem State.respond_yoke (s : State) (c : BitVec 2) (v : W64) : (s.respond c v).yoke = s.yoke := rfl
@[simp] theorem State.respond_pru (s : State) (c : BitVec 2) (v : W64) : (s.respond c v).pru = s.pru := rfl
@[simp] theorem State.respond_mdu (s : State) (c : BitVec 2) (v : W64) : (s.respond c v).mdu = s.mdu := rfl
@[simp] theorem State.respond_ccx (s : State) (c : BitVec 2) (v : W64) : (s.respond c v).ccx = s.ccx := rfl
@[simp] theorem State.respond_ftt (s : State) (c : BitVec 2) (v : W64) : (s.respond c v).ftt = s.ftt := rfl
@[simp] theorem State.respond_nv (s : State) (c : BitVec 2) (v : W64) : (s.respond c v).nv = s.nv := rfl
@[simp] theorem State.respond_tr (s : State) (c : BitVec 2) (v : W64) : (s.respond c v).tr = s.tr := rfl
@[simp] theorem State.respond_hv (s : State) (c : BitVec 2) (v : W64) : (s.respond c v).hv = s.hv := rfl

/-- A capture changes what the sc in progress has captured, and nothing else. -/
theorem State.capture_only (s : State) (ev : Event) : s.capture ev = { s with inSc := (s.capture ev).inSc } := by
  unfold State.capture
  split <;> rfl

@[simp] theorem State.capture_pending (s : State) (ev : Event) : (s.capture ev).pending = s.pending := by
  rw [State.capture_only]
@[simp] theorem State.capture_now (s : State) (ev : Event) : (s.capture ev).now = s.now := by
  rw [State.capture_only]
@[simp] theorem State.capture_free (s : State) (ev : Event) : (s.capture ev).free = s.free := by
  rw [State.capture_only]
@[simp] theorem State.capture_su (s : State) (ev : Event) : (s.capture ev).su = s.su := by
  rw [State.capture_only]
@[simp] theorem State.capture_pins (s : State) (ev : Event) : (s.capture ev).pins = s.pins := by
  rw [State.capture_only]
@[simp] theorem State.capture_mt (s : State) (ev : Event) : (s.capture ev).mt = s.mt := by
  rw [State.capture_only]
@[simp] theorem State.capture_mesh (s : State) (ev : Event) : (s.capture ev).mesh = s.mesh := by
  rw [State.capture_only]
@[simp] theorem State.capture_fm (s : State) (ev : Event) : (s.capture ev).fm = s.fm := by
  rw [State.capture_only]
@[simp] theorem State.capture_gs (s : State) (ev : Event) : (s.capture ev).gs = s.gs := by
  rw [State.capture_only]
@[simp] theorem State.capture_sow (s : State) (ev : Event) : (s.capture ev).sow = s.sow := by
  rw [State.capture_only]
@[simp] theorem State.capture_de (s : State) (ev : Event) : (s.capture ev).de = s.de := by
  rw [State.capture_only]
@[simp] theorem State.capture_rla (s : State) (ev : Event) : (s.capture ev).rla = s.rla := by
  rw [State.capture_only]
@[simp] theorem State.capture_eng (s : State) (ev : Event) : (s.capture ev).eng = s.eng := by
  rw [State.capture_only]
@[simp] theorem State.capture_dcs (s : State) (ev : Event) : (s.capture ev).dcs = s.dcs := by
  rw [State.capture_only]
@[simp] theorem State.capture_hcf (s : State) (ev : Event) : (s.capture ev).hcf = s.hcf := by
  rw [State.capture_only]
@[simp] theorem State.capture_sm (s : State) (ev : Event) : (s.capture ev).sm = s.sm := by
  rw [State.capture_only]
@[simp] theorem State.capture_cc (s : State) (ev : Event) : (s.capture ev).cc = s.cc := by
  rw [State.capture_only]

@[simp] theorem State.capture_tr (s : State) (ev : Event) : (s.capture ev).tr = s.tr := by
  rw [State.capture_only]

@[simp] theorem State.capture_mrs (s : State) (ev : Event) : (s.capture ev).mrs = s.mrs := by
  rw [State.capture_only]
@[simp] theorem State.capture_link (s : State) (ev : Event) : (s.capture ev).link = s.link := by
  rw [State.capture_only]
@[simp] theorem State.capture_shf (s : State) (ev : Event) : (s.capture ev).shf = s.shf := by
  rw [State.capture_only]
@[simp] theorem State.capture_stu (s : State) (ev : Event) : (s.capture ev).stu = s.stu := by
  rw [State.capture_only]
@[simp] theorem State.capture_tcs (s : State) (ev : Event) : (s.capture ev).tcs = s.tcs := by
  rw [State.capture_only]
@[simp] theorem State.capture_yoke (s : State) (ev : Event) : (s.capture ev).yoke = s.yoke := by
  rw [State.capture_only]
@[simp] theorem State.capture_pru (s : State) (ev : Event) : (s.capture ev).pru = s.pru := by
  rw [State.capture_only]
@[simp] theorem State.capture_mdu (s : State) (ev : Event) : (s.capture ev).mdu = s.mdu := by
  rw [State.capture_only]
@[simp] theorem State.capture_ccx (s : State) (ev : Event) : (s.capture ev).ccx = s.ccx := by
  rw [State.capture_only]
@[simp] theorem State.capture_ftt (s : State) (ev : Event) : (s.capture ev).ftt = s.ftt := by
  rw [State.capture_only]
@[simp] theorem State.capture_nv (s : State) (ev : Event) : (s.capture ev).nv = s.nv := by
  rw [State.capture_only]
@[simp] theorem State.capture_hv (s : State) (ev : Event) : (s.capture ev).hv = s.hv := by
  rw [State.capture_only]

@[simp] theorem State.modPlot_segs (s : State) (p : Nat) (f : Plot → Plot) : (s.modPlot p f).pru.segs = s.pru.segs := rfl
@[simp] theorem State.launchXfer_pending (s : State) (x : Xfer) : (s.launchXfer x).pending = s.pending := by
  unfold State.launchXfer; dsimp only; split <;> simp
@[simp] theorem State.launchXfer_now (s : State) (x : Xfer) : (s.launchXfer x).now = s.now := by
  unfold State.launchXfer; dsimp only; split <;> simp
@[simp] theorem State.launchXfer_free (s : State) (x : Xfer) : (s.launchXfer x).free = s.free := by
  unfold State.launchXfer; dsimp only; split <;> simp
@[simp] theorem State.launchXfer_su (s : State) (x : Xfer) : (s.launchXfer x).su = s.su := by
  unfold State.launchXfer; dsimp only; split <;> simp
@[simp] theorem State.launchXfer_pins (s : State) (x : Xfer) : (s.launchXfer x).pins = s.pins := by
  unfold State.launchXfer; dsimp only; split <;> simp
@[simp] theorem State.launchXfer_mt (s : State) (x : Xfer) : (s.launchXfer x).mt = s.mt := by
  unfold State.launchXfer; dsimp only; split <;> simp
@[simp] theorem State.launchXfer_fm (s : State) (x : Xfer) : (s.launchXfer x).fm = s.fm := by
  unfold State.launchXfer; dsimp only; split <;> simp
@[simp] theorem State.launchXfer_gs (s : State) (x : Xfer) : (s.launchXfer x).gs = s.gs := by
  unfold State.launchXfer; dsimp only; split <;> simp
@[simp] theorem State.launchXfer_sow (s : State) (x : Xfer) : (s.launchXfer x).sow = s.sow := by
  unfold State.launchXfer; dsimp only; split <;> simp
@[simp] theorem State.launchXfer_de (s : State) (x : Xfer) : (s.launchXfer x).de = s.de := by
  unfold State.launchXfer; dsimp only; split <;> simp
@[simp] theorem State.launchXfer_rla (s : State) (x : Xfer) : (s.launchXfer x).rla = s.rla := by
  unfold State.launchXfer; dsimp only; split <;> simp
@[simp] theorem State.launchXfer_eng (s : State) (x : Xfer) : (s.launchXfer x).eng = s.eng := by
  unfold State.launchXfer; dsimp only; split <;> simp
@[simp] theorem State.launchXfer_dcs (s : State) (x : Xfer) : (s.launchXfer x).dcs = s.dcs := by
  unfold State.launchXfer; dsimp only; split <;> simp
@[simp] theorem State.launchXfer_hcf (s : State) (x : Xfer) : (s.launchXfer x).hcf = s.hcf := by
  unfold State.launchXfer; dsimp only; split <;> simp
@[simp] theorem State.launchXfer_sm (s : State) (x : Xfer) : (s.launchXfer x).sm = s.sm := by
  unfold State.launchXfer; dsimp only; split <;> simp
@[simp] theorem State.launchXfer_cc (s : State) (x : Xfer) : (s.launchXfer x).cc = s.cc := by
  unfold State.launchXfer; dsimp only; split <;> simp
@[simp] theorem State.launchXfer_inSc (s : State) (x : Xfer) : (s.launchXfer x).inSc = s.inSc := by
  unfold State.launchXfer; dsimp only; split <;> simp

@[simp] theorem State.launchXfer_mrs (s : State) (x : Xfer) : (s.launchXfer x).mrs = s.mrs := by
  unfold State.launchXfer; dsimp only; split <;> simp
@[simp] theorem State.launchXfer_link (s : State) (x : Xfer) : (s.launchXfer x).link = s.link := by
  unfold State.launchXfer; dsimp only; split <;> simp
@[simp] theorem State.launchXfer_shf (s : State) (x : Xfer) : (s.launchXfer x).shf = s.shf := by
  unfold State.launchXfer; dsimp only; split <;> simp
@[simp] theorem State.launchXfer_stu (s : State) (x : Xfer) : (s.launchXfer x).stu = s.stu := by
  unfold State.launchXfer; dsimp only; split <;> simp
@[simp] theorem State.launchXfer_tcs (s : State) (x : Xfer) : (s.launchXfer x).tcs = s.tcs := by
  unfold State.launchXfer; dsimp only; split <;> simp
@[simp] theorem State.launchXfer_yoke (s : State) (x : Xfer) : (s.launchXfer x).yoke = s.yoke := by
  unfold State.launchXfer; dsimp only; split <;> simp
@[simp] theorem State.launchXfer_mdu (s : State) (x : Xfer) : (s.launchXfer x).mdu = s.mdu := by
  unfold State.launchXfer; dsimp only; split <;> simp
@[simp] theorem State.launchXfer_ccx (s : State) (x : Xfer) : (s.launchXfer x).ccx = s.ccx := by
  unfold State.launchXfer; dsimp only; split <;> simp
@[simp] theorem State.launchXfer_ftt (s : State) (x : Xfer) : (s.launchXfer x).ftt = s.ftt := by
  unfold State.launchXfer; dsimp only; split <;> simp
@[simp] theorem State.launchXfer_nv (s : State) (x : Xfer) : (s.launchXfer x).nv = s.nv := by
  unfold State.launchXfer; dsimp only; split <;> simp
@[simp] theorem State.launchXfer_tr (s : State) (x : Xfer) : (s.launchXfer x).tr = s.tr := by
  unfold State.launchXfer; dsimp only; split <;> simp
@[simp] theorem State.launchXfer_pru_segs (s : State) (x : Xfer) : (s.launchXfer x).pru.segs = s.pru.segs := by
  unfold State.launchXfer; dsimp only; split <;> simp

@[simp] theorem State.issue_pending (s : State) (x : Xfer) : (s.issue x).pending = s.pending := by
  unfold State.issue; split <;> simp
@[simp] theorem State.issue_now (s : State) (x : Xfer) : (s.issue x).now = s.now := by
  unfold State.issue; split <;> simp
@[simp] theorem State.issue_free (s : State) (x : Xfer) : (s.issue x).free = s.free := by
  unfold State.issue; split <;> simp
@[simp] theorem State.issue_su (s : State) (x : Xfer) : (s.issue x).su = s.su := by
  unfold State.issue; split <;> simp
@[simp] theorem State.issue_pins (s : State) (x : Xfer) : (s.issue x).pins = s.pins := by
  unfold State.issue; split <;> simp
@[simp] theorem State.issue_mt (s : State) (x : Xfer) : (s.issue x).mt = s.mt := by
  unfold State.issue; split <;> simp
@[simp] theorem State.issue_fm (s : State) (x : Xfer) : (s.issue x).fm = s.fm := by
  unfold State.issue; split <;> simp
@[simp] theorem State.issue_gs (s : State) (x : Xfer) : (s.issue x).gs = s.gs := by
  unfold State.issue; split <;> simp
@[simp] theorem State.issue_sow (s : State) (x : Xfer) : (s.issue x).sow = s.sow := by
  unfold State.issue; split <;> simp
@[simp] theorem State.issue_de (s : State) (x : Xfer) : (s.issue x).de = s.de := by
  unfold State.issue; split <;> simp
@[simp] theorem State.issue_rla (s : State) (x : Xfer) : (s.issue x).rla = s.rla := by
  unfold State.issue; split <;> simp
@[simp] theorem State.issue_eng (s : State) (x : Xfer) : (s.issue x).eng = s.eng := by
  unfold State.issue; split <;> simp
@[simp] theorem State.issue_dcs (s : State) (x : Xfer) : (s.issue x).dcs = s.dcs := by
  unfold State.issue; split <;> simp
@[simp] theorem State.issue_hcf (s : State) (x : Xfer) : (s.issue x).hcf = s.hcf := by
  unfold State.issue; split <;> simp
@[simp] theorem State.issue_sm (s : State) (x : Xfer) : (s.issue x).sm = s.sm := by
  unfold State.issue; split <;> simp
@[simp] theorem State.issue_cc (s : State) (x : Xfer) : (s.issue x).cc = s.cc := by
  unfold State.issue; split <;> simp
@[simp] theorem State.issue_inSc (s : State) (x : Xfer) : (s.issue x).inSc = s.inSc := by
  unfold State.issue; split <;> simp

@[simp] theorem State.issue_mrs (s : State) (x : Xfer) : (s.issue x).mrs = s.mrs := by
  unfold State.issue; split <;> simp
@[simp] theorem State.issue_link (s : State) (x : Xfer) : (s.issue x).link = s.link := by
  unfold State.issue; split <;> simp
@[simp] theorem State.issue_shf (s : State) (x : Xfer) : (s.issue x).shf = s.shf := by
  unfold State.issue; split <;> simp
@[simp] theorem State.issue_stu (s : State) (x : Xfer) : (s.issue x).stu = s.stu := by
  unfold State.issue; split <;> simp
@[simp] theorem State.issue_tcs (s : State) (x : Xfer) : (s.issue x).tcs = s.tcs := by
  unfold State.issue; split <;> simp
@[simp] theorem State.issue_yoke (s : State) (x : Xfer) : (s.issue x).yoke = s.yoke := by
  unfold State.issue; split <;> simp
@[simp] theorem State.issue_mdu (s : State) (x : Xfer) : (s.issue x).mdu = s.mdu := by
  unfold State.issue; split <;> simp
@[simp] theorem State.issue_ccx (s : State) (x : Xfer) : (s.issue x).ccx = s.ccx := by
  unfold State.issue; split <;> simp
@[simp] theorem State.issue_ftt (s : State) (x : Xfer) : (s.issue x).ftt = s.ftt := by
  unfold State.issue; split <;> simp
@[simp] theorem State.issue_nv (s : State) (x : Xfer) : (s.issue x).nv = s.nv := by
  unfold State.issue; split <;> simp
@[simp] theorem State.issue_tr (s : State) (x : Xfer) : (s.issue x).tr = s.tr := by
  unfold State.issue; split <;> simp
@[simp] theorem State.issue_pru_segs (s : State) (x : Xfer) : (s.issue x).pru.segs = s.pru.segs := by
  unfold State.issue; split <;> simp

theorem State.foldl_issue {α : Type} (p : State → α) (h : ∀ t x, p (State.issue t x) = p t) (l : List Xfer) :
    ∀ s : State, p (l.foldl (fun t x => t.issue x) s) = p s := by
  induction l with
  | nil => intro s; rfl
  | cons x l ih => intro s; rw [List.foldl_cons, ih, h]

@[simp] theorem State.notifyWrite_pending (s : State) (c : Nat) : (s.notifyWrite c).pending = s.pending := by
  unfold State.notifyWrite; dsimp only; split <;> (try split) <;> simp
@[simp] theorem State.notifyWrite_now (s : State) (c : Nat) : (s.notifyWrite c).now = s.now := by
  unfold State.notifyWrite; dsimp only; split <;> (try split) <;> simp
@[simp] theorem State.notifyWrite_free (s : State) (c : Nat) : (s.notifyWrite c).free = s.free := by
  unfold State.notifyWrite; dsimp only; split <;> (try split) <;> simp
@[simp] theorem State.notifyWrite_su (s : State) (c : Nat) : (s.notifyWrite c).su = s.su := by
  unfold State.notifyWrite; dsimp only; split <;> (try split) <;> simp
@[simp] theorem State.notifyWrite_pins (s : State) (c : Nat) : (s.notifyWrite c).pins = s.pins := by
  unfold State.notifyWrite; dsimp only; split <;> (try split) <;> simp
@[simp] theorem State.notifyWrite_mt (s : State) (c : Nat) : (s.notifyWrite c).mt = s.mt := by
  unfold State.notifyWrite; dsimp only; split <;> (try split) <;> simp
@[simp] theorem State.notifyWrite_fm (s : State) (c : Nat) : (s.notifyWrite c).fm = s.fm := by
  unfold State.notifyWrite; dsimp only; split <;> (try split) <;> simp
@[simp] theorem State.notifyWrite_gs (s : State) (c : Nat) : (s.notifyWrite c).gs = s.gs := by
  unfold State.notifyWrite; dsimp only; split <;> (try split) <;> simp
@[simp] theorem State.notifyWrite_sow (s : State) (c : Nat) : (s.notifyWrite c).sow = s.sow := by
  unfold State.notifyWrite; dsimp only; split <;> (try split) <;> simp
@[simp] theorem State.notifyWrite_de (s : State) (c : Nat) : (s.notifyWrite c).de = s.de := by
  unfold State.notifyWrite; dsimp only; split <;> (try split) <;> simp
@[simp] theorem State.notifyWrite_rla (s : State) (c : Nat) : (s.notifyWrite c).rla = s.rla := by
  unfold State.notifyWrite; dsimp only; split <;> (try split) <;> simp
@[simp] theorem State.notifyWrite_eng (s : State) (c : Nat) : (s.notifyWrite c).eng = s.eng := by
  unfold State.notifyWrite; dsimp only; split <;> (try split) <;> simp
@[simp] theorem State.notifyWrite_dcs (s : State) (c : Nat) : (s.notifyWrite c).dcs = s.dcs := by
  unfold State.notifyWrite; dsimp only; split <;> (try split) <;> simp
@[simp] theorem State.notifyWrite_hcf (s : State) (c : Nat) : (s.notifyWrite c).hcf = s.hcf := by
  unfold State.notifyWrite; dsimp only; split <;> (try split) <;> simp
@[simp] theorem State.notifyWrite_sm (s : State) (c : Nat) : (s.notifyWrite c).sm = s.sm := by
  unfold State.notifyWrite; dsimp only; split <;> (try split) <;> simp
@[simp] theorem State.notifyWrite_cc (s : State) (c : Nat) : (s.notifyWrite c).cc = s.cc := by
  unfold State.notifyWrite; dsimp only; split <;> (try split) <;> simp
@[simp] theorem State.notifyWrite_inSc (s : State) (c : Nat) : (s.notifyWrite c).inSc = s.inSc := by
  unfold State.notifyWrite; dsimp only; split <;> (try split) <;> simp

@[simp] theorem State.notifyWrite_mrs (s : State) (c : Nat) : (s.notifyWrite c).mrs = s.mrs := by
  unfold State.notifyWrite; dsimp only; split <;> (try split) <;> simp
@[simp] theorem State.notifyWrite_link (s : State) (c : Nat) : (s.notifyWrite c).link = s.link := by
  unfold State.notifyWrite; dsimp only; split <;> (try split) <;> simp
@[simp] theorem State.notifyWrite_shf (s : State) (c : Nat) : (s.notifyWrite c).shf = s.shf := by
  unfold State.notifyWrite; dsimp only; split <;> (try split) <;> simp
@[simp] theorem State.notifyWrite_stu (s : State) (c : Nat) : (s.notifyWrite c).stu = s.stu := by
  unfold State.notifyWrite; dsimp only; split <;> (try split) <;> simp
@[simp] theorem State.notifyWrite_tcs (s : State) (c : Nat) : (s.notifyWrite c).tcs = s.tcs := by
  unfold State.notifyWrite; dsimp only; split <;> (try split) <;> simp
@[simp] theorem State.notifyWrite_yoke (s : State) (c : Nat) : (s.notifyWrite c).yoke = s.yoke := by
  unfold State.notifyWrite; dsimp only; split <;> (try split) <;> simp
@[simp] theorem State.notifyWrite_ccx (s : State) (c : Nat) : (s.notifyWrite c).ccx = s.ccx := by
  unfold State.notifyWrite; dsimp only; split <;> (try split) <;> simp
@[simp] theorem State.notifyWrite_ftt (s : State) (c : Nat) : (s.notifyWrite c).ftt = s.ftt := by
  unfold State.notifyWrite; dsimp only; split <;> (try split) <;> simp
@[simp] theorem State.notifyWrite_nv (s : State) (c : Nat) : (s.notifyWrite c).nv = s.nv := by
  unfold State.notifyWrite; dsimp only; split <;> (try split) <;> simp
@[simp] theorem State.notifyWrite_tr (s : State) (c : Nat) : (s.notifyWrite c).tr = s.tr := by
  unfold State.notifyWrite; dsimp only; split <;> (try split) <;> simp
@[simp] theorem State.notifyWrite_pru_segs (s : State) (c : Nat) : (s.notifyWrite c).pru.segs = s.pru.segs := by
  unfold State.notifyWrite; dsimp only; split <;> (try split) <;> simp

@[simp] theorem State.notify_pending (s : State) (c : Nat) (rose : Bool) : (s.notify c rose).pending = s.pending := by
  unfold State.notify; dsimp only; split <;> (try split) <;> (try split) <;> (try split) <;> simp
@[simp] theorem State.notify_now (s : State) (c : Nat) (rose : Bool) : (s.notify c rose).now = s.now := by
  unfold State.notify; dsimp only; split <;> (try split) <;> (try split) <;> (try split) <;> simp
@[simp] theorem State.notify_free (s : State) (c : Nat) (rose : Bool) : (s.notify c rose).free = s.free := by
  unfold State.notify; dsimp only; split <;> (try split) <;> (try split) <;> (try split) <;> simp
@[simp] theorem State.notify_su (s : State) (c : Nat) (rose : Bool) : (s.notify c rose).su = s.su := by
  unfold State.notify; dsimp only; split <;> (try split) <;> (try split) <;> (try split) <;> simp
@[simp] theorem State.notify_pins (s : State) (c : Nat) (rose : Bool) : (s.notify c rose).pins = s.pins := by
  unfold State.notify; dsimp only; split <;> (try split) <;> (try split) <;> (try split) <;> simp
@[simp] theorem State.notify_mt (s : State) (c : Nat) (rose : Bool) : (s.notify c rose).mt = s.mt := by
  unfold State.notify; dsimp only; split <;> (try split) <;> (try split) <;> (try split) <;> simp
@[simp] theorem State.notify_fm (s : State) (c : Nat) (rose : Bool) : (s.notify c rose).fm = s.fm := by
  unfold State.notify; dsimp only; split <;> (try split) <;> (try split) <;> (try split) <;> simp
@[simp] theorem State.notify_gs (s : State) (c : Nat) (rose : Bool) : (s.notify c rose).gs = s.gs := by
  unfold State.notify; dsimp only; split <;> (try split) <;> (try split) <;> (try split) <;> simp
@[simp] theorem State.notify_sow (s : State) (c : Nat) (rose : Bool) : (s.notify c rose).sow = s.sow := by
  unfold State.notify; dsimp only; split <;> (try split) <;> (try split) <;> (try split) <;> simp
@[simp] theorem State.notify_de (s : State) (c : Nat) (rose : Bool) : (s.notify c rose).de = s.de := by
  unfold State.notify; dsimp only; split <;> (try split) <;> (try split) <;> (try split) <;> simp
@[simp] theorem State.notify_rla (s : State) (c : Nat) (rose : Bool) : (s.notify c rose).rla = s.rla := by
  unfold State.notify; dsimp only; split <;> (try split) <;> (try split) <;> (try split) <;> simp
@[simp] theorem State.notify_eng (s : State) (c : Nat) (rose : Bool) : (s.notify c rose).eng = s.eng := by
  unfold State.notify; dsimp only; split <;> (try split) <;> (try split) <;> (try split) <;> simp
@[simp] theorem State.notify_dcs (s : State) (c : Nat) (rose : Bool) : (s.notify c rose).dcs = s.dcs := by
  unfold State.notify; dsimp only; split <;> (try split) <;> (try split) <;> (try split) <;> simp
@[simp] theorem State.notify_hcf (s : State) (c : Nat) (rose : Bool) : (s.notify c rose).hcf = s.hcf := by
  unfold State.notify; dsimp only; split <;> (try split) <;> (try split) <;> (try split) <;> simp
@[simp] theorem State.notify_sm (s : State) (c : Nat) (rose : Bool) : (s.notify c rose).sm = s.sm := by
  unfold State.notify; dsimp only; split <;> (try split) <;> (try split) <;> (try split) <;> simp
@[simp] theorem State.notify_cc (s : State) (c : Nat) (rose : Bool) : (s.notify c rose).cc = s.cc := by
  unfold State.notify; dsimp only; split <;> (try split) <;> (try split) <;> (try split) <;> simp
@[simp] theorem State.notify_inSc (s : State) (c : Nat) (rose : Bool) : (s.notify c rose).inSc = s.inSc := by
  unfold State.notify; dsimp only; split <;> (try split) <;> (try split) <;> (try split) <;> simp

@[simp] theorem State.notify_mrs (s : State) (c : Nat) (rose : Bool) : (s.notify c rose).mrs = s.mrs := by
  unfold State.notify; dsimp only; split <;> (try split) <;> (try split) <;> (try split) <;> simp
@[simp] theorem State.notify_link (s : State) (c : Nat) (rose : Bool) : (s.notify c rose).link = s.link := by
  unfold State.notify; dsimp only; split <;> (try split) <;> (try split) <;> (try split) <;> simp
@[simp] theorem State.notify_shf (s : State) (c : Nat) (rose : Bool) : (s.notify c rose).shf = s.shf := by
  unfold State.notify; dsimp only; split <;> (try split) <;> (try split) <;> (try split) <;> simp
@[simp] theorem State.notify_stu (s : State) (c : Nat) (rose : Bool) : (s.notify c rose).stu = s.stu := by
  unfold State.notify; dsimp only; split <;> (try split) <;> (try split) <;> (try split) <;> simp
@[simp] theorem State.notify_tcs (s : State) (c : Nat) (rose : Bool) : (s.notify c rose).tcs = s.tcs := by
  unfold State.notify; dsimp only; split <;> (try split) <;> (try split) <;> (try split) <;> simp
@[simp] theorem State.notify_yoke (s : State) (c : Nat) (rose : Bool) : (s.notify c rose).yoke = s.yoke := by
  unfold State.notify; dsimp only; split <;> (try split) <;> (try split) <;> (try split) <;> simp
@[simp] theorem State.notify_ccx (s : State) (c : Nat) (rose : Bool) : (s.notify c rose).ccx = s.ccx := by
  unfold State.notify; dsimp only; split <;> (try split) <;> (try split) <;> (try split) <;> simp
@[simp] theorem State.notify_ftt (s : State) (c : Nat) (rose : Bool) : (s.notify c rose).ftt = s.ftt := by
  unfold State.notify; dsimp only; split <;> (try split) <;> (try split) <;> (try split) <;> simp
@[simp] theorem State.notify_nv (s : State) (c : Nat) (rose : Bool) : (s.notify c rose).nv = s.nv := by
  unfold State.notify; dsimp only; split <;> (try split) <;> (try split) <;> (try split) <;> simp
@[simp] theorem State.notify_tr (s : State) (c : Nat) (rose : Bool) : (s.notify c rose).tr = s.tr := by
  unfold State.notify; dsimp only; split <;> (try split) <;> (try split) <;> (try split) <;> simp
@[simp] theorem State.notify_pru_segs (s : State) (c : Nat) (rose : Bool) : (s.notify c rose).pru.segs = s.pru.segs := by
  unfold State.notify; dsimp only; split <;> (try split) <;> (try split) <;> (try split) <;> simp

@[simp] theorem State.ringHost_pending (s : State) (c : Nat) (b : BitVec 32) : (s.ringHost c b).pending = s.pending := by
  simp [State.ringHost]
@[simp] theorem State.ringHost_now (s : State) (c : Nat) (b : BitVec 32) : (s.ringHost c b).now = s.now := by
  simp [State.ringHost]
@[simp] theorem State.ringHost_free (s : State) (c : Nat) (b : BitVec 32) : (s.ringHost c b).free = s.free := by
  simp [State.ringHost]
@[simp] theorem State.ringHost_su (s : State) (c : Nat) (b : BitVec 32) : (s.ringHost c b).su = s.su := by
  simp [State.ringHost]
@[simp] theorem State.ringHost_pins (s : State) (c : Nat) (b : BitVec 32) : (s.ringHost c b).pins = s.pins := by
  simp [State.ringHost]
@[simp] theorem State.ringHost_mt (s : State) (c : Nat) (b : BitVec 32) : (s.ringHost c b).mt = s.mt := by
  simp [State.ringHost]
@[simp] theorem State.ringHost_fm (s : State) (c : Nat) (b : BitVec 32) : (s.ringHost c b).fm = s.fm := by
  simp [State.ringHost]
@[simp] theorem State.ringHost_gs (s : State) (c : Nat) (b : BitVec 32) : (s.ringHost c b).gs = s.gs := by
  simp [State.ringHost]
@[simp] theorem State.ringHost_sow (s : State) (c : Nat) (b : BitVec 32) : (s.ringHost c b).sow = s.sow := by
  simp [State.ringHost]
@[simp] theorem State.ringHost_de (s : State) (c : Nat) (b : BitVec 32) : (s.ringHost c b).de = s.de := by
  simp [State.ringHost]
@[simp] theorem State.ringHost_rla (s : State) (c : Nat) (b : BitVec 32) : (s.ringHost c b).rla = s.rla := by
  simp [State.ringHost]
@[simp] theorem State.ringHost_eng (s : State) (c : Nat) (b : BitVec 32) : (s.ringHost c b).eng = s.eng := by
  simp [State.ringHost]
@[simp] theorem State.ringHost_dcs (s : State) (c : Nat) (b : BitVec 32) : (s.ringHost c b).dcs = s.dcs := by
  simp [State.ringHost]
@[simp] theorem State.ringHost_hcf (s : State) (c : Nat) (b : BitVec 32) : (s.ringHost c b).hcf = s.hcf := by
  simp [State.ringHost]
@[simp] theorem State.ringHost_sm (s : State) (c : Nat) (b : BitVec 32) : (s.ringHost c b).sm = s.sm := by
  simp [State.ringHost]
@[simp] theorem State.ringHost_cc (s : State) (c : Nat) (b : BitVec 32) : (s.ringHost c b).cc = s.cc := by
  simp [State.ringHost]
@[simp] theorem State.ringHost_inSc (s : State) (c : Nat) (b : BitVec 32) : (s.ringHost c b).inSc = s.inSc := by
  simp [State.ringHost]

@[simp] theorem State.ringHost_mrs (s : State) (c : Nat) (b : BitVec 32) : (s.ringHost c b).mrs = s.mrs := by
  simp [State.ringHost]
@[simp] theorem State.ringHost_link (s : State) (c : Nat) (b : BitVec 32) : (s.ringHost c b).link = s.link := by
  simp [State.ringHost]
@[simp] theorem State.ringHost_shf (s : State) (c : Nat) (b : BitVec 32) : (s.ringHost c b).shf = s.shf := by
  simp [State.ringHost]
@[simp] theorem State.ringHost_stu (s : State) (c : Nat) (b : BitVec 32) : (s.ringHost c b).stu = s.stu := by
  simp [State.ringHost]
@[simp] theorem State.ringHost_tcs (s : State) (c : Nat) (b : BitVec 32) : (s.ringHost c b).tcs = s.tcs := by
  simp [State.ringHost]
@[simp] theorem State.ringHost_yoke (s : State) (c : Nat) (b : BitVec 32) : (s.ringHost c b).yoke = s.yoke := by
  simp [State.ringHost]
@[simp] theorem State.ringHost_ccx (s : State) (c : Nat) (b : BitVec 32) : (s.ringHost c b).ccx = s.ccx := by
  simp [State.ringHost]
@[simp] theorem State.ringHost_ftt (s : State) (c : Nat) (b : BitVec 32) : (s.ringHost c b).ftt = s.ftt := by
  simp [State.ringHost]
@[simp] theorem State.ringHost_nv (s : State) (c : Nat) (b : BitVec 32) : (s.ringHost c b).nv = s.nv := by
  simp [State.ringHost]
@[simp] theorem State.ringHost_tr (s : State) (c : Nat) (b : BitVec 32) : (s.ringHost c b).tr = s.tr := by
  simp [State.ringHost]
@[simp] theorem State.ringHost_pru_segs (s : State) (c : Nat) (b : BitVec 32) : (s.ringHost c b).pru.segs = s.pru.segs := by
  simp [State.ringHost]

@[simp] theorem State.errlog_pending (s : State) (r : Report) : (s.errlog r).pending = s.pending := by
  simp [State.errlog]
@[simp] theorem State.errlog_now (s : State) (r : Report) : (s.errlog r).now = s.now := by
  simp [State.errlog]
@[simp] theorem State.errlog_free (s : State) (r : Report) : (s.errlog r).free = s.free := by
  simp [State.errlog]
@[simp] theorem State.errlog_su (s : State) (r : Report) : (s.errlog r).su = s.su := by
  simp [State.errlog]
@[simp] theorem State.errlog_pins (s : State) (r : Report) : (s.errlog r).pins = s.pins := by
  simp [State.errlog]
@[simp] theorem State.errlog_mt (s : State) (r : Report) : (s.errlog r).mt = s.mt := by
  simp [State.errlog]
@[simp] theorem State.errlog_fm (s : State) (r : Report) : (s.errlog r).fm = s.fm := by
  simp [State.errlog]
@[simp] theorem State.errlog_gs (s : State) (r : Report) : (s.errlog r).gs = s.gs := by
  simp [State.errlog]
@[simp] theorem State.errlog_sow (s : State) (r : Report) : (s.errlog r).sow = s.sow := by
  simp [State.errlog]
@[simp] theorem State.errlog_de (s : State) (r : Report) : (s.errlog r).de = s.de := by
  simp [State.errlog]
@[simp] theorem State.errlog_rla (s : State) (r : Report) : (s.errlog r).rla = s.rla := by
  simp [State.errlog]
@[simp] theorem State.errlog_eng (s : State) (r : Report) : (s.errlog r).eng = s.eng := by
  simp [State.errlog]
@[simp] theorem State.errlog_dcs (s : State) (r : Report) : (s.errlog r).dcs = s.dcs := by
  simp [State.errlog]
@[simp] theorem State.errlog_hcf (s : State) (r : Report) : (s.errlog r).hcf = s.hcf := by
  simp [State.errlog]
@[simp] theorem State.errlog_sm (s : State) (r : Report) : (s.errlog r).sm = s.sm := by
  simp [State.errlog]
@[simp] theorem State.errlog_cc (s : State) (r : Report) : (s.errlog r).cc = s.cc := by
  simp [State.errlog]

@[simp] theorem State.errlog_mrs (s : State) (r : Report) : (s.errlog r).mrs = s.mrs := by
  simp [State.errlog]
@[simp] theorem State.errlog_link (s : State) (r : Report) : (s.errlog r).link = s.link := by
  simp [State.errlog]
@[simp] theorem State.errlog_shf (s : State) (r : Report) : (s.errlog r).shf = s.shf := by
  simp [State.errlog]
@[simp] theorem State.errlog_stu (s : State) (r : Report) : (s.errlog r).stu = s.stu := by
  simp [State.errlog]
@[simp] theorem State.errlog_tcs (s : State) (r : Report) : (s.errlog r).tcs = s.tcs := by
  simp [State.errlog]
@[simp] theorem State.errlog_yoke (s : State) (r : Report) : (s.errlog r).yoke = s.yoke := by
  simp [State.errlog]
@[simp] theorem State.errlog_ccx (s : State) (r : Report) : (s.errlog r).ccx = s.ccx := by
  simp [State.errlog]
@[simp] theorem State.errlog_nv (s : State) (r : Report) : (s.errlog r).nv = s.nv := by
  simp [State.errlog]
@[simp] theorem State.errlog_tr (s : State) (r : Report) : (s.errlog r).tr = s.tr := by
  simp [State.errlog]
@[simp] theorem State.errlog_pru_segs (s : State) (r : Report) : (s.errlog r).pru.segs = s.pru.segs := by
  simp [State.errlog]
@[simp] theorem State.errlog_ftt_queues (s : State) (r : Report) : (s.errlog r).ftt.queues = s.ftt.queues := by
  simp [State.errlog]
@[simp] theorem State.errlog_ftt_fnstat (s : State) (r : Report) : (s.errlog r).ftt.fnstat = s.ftt.fnstat := by
  simp [State.errlog]
@[simp] theorem State.errlog_ftt_fatal (s : State) (r : Report) : (s.errlog r).ftt.fatal = s.ftt.fatal := by
  simp [State.errlog]
@[simp] theorem State.errlog_ftt_fatalInfo (s : State) (r : Report) : (s.errlog r).ftt.fatalInfo = s.ftt.fatalInfo := by
  simp [State.errlog]
@[simp] theorem State.errlog_ftt_resets (s : State) (r : Report) : (s.errlog r).ftt.resets = s.ftt.resets := by
  simp [State.errlog]
@[simp] theorem State.errlog_ftt_banks (s : State) (r : Report) : (s.errlog r).ftt.banks = s.ftt.banks := by
  simp [State.errlog]
@[simp] theorem State.errlog_ftt_entries (s : State) (r : Report) : (s.errlog r).ftt.entries = s.ftt.entries := by
  simp [State.errlog]

@[simp] theorem State.report_pending (s : State) (n : Nat) (r : Report) : (s.report n r).pending = s.pending := by
  unfold State.report; dsimp only; split <;> simp
@[simp] theorem State.report_now (s : State) (n : Nat) (r : Report) : (s.report n r).now = s.now := by
  unfold State.report; dsimp only; split <;> simp
@[simp] theorem State.report_free (s : State) (n : Nat) (r : Report) : (s.report n r).free = s.free := by
  unfold State.report; dsimp only; split <;> simp
@[simp] theorem State.report_su (s : State) (n : Nat) (r : Report) : (s.report n r).su = s.su := by
  unfold State.report; dsimp only; split <;> simp
@[simp] theorem State.report_pins (s : State) (n : Nat) (r : Report) : (s.report n r).pins = s.pins := by
  unfold State.report; dsimp only; split <;> simp
@[simp] theorem State.report_mt (s : State) (n : Nat) (r : Report) : (s.report n r).mt = s.mt := by
  unfold State.report; dsimp only; split <;> simp
@[simp] theorem State.report_fm (s : State) (n : Nat) (r : Report) : (s.report n r).fm = s.fm := by
  unfold State.report; dsimp only; split <;> simp
@[simp] theorem State.report_gs (s : State) (n : Nat) (r : Report) : (s.report n r).gs = s.gs := by
  unfold State.report; dsimp only; split <;> simp
@[simp] theorem State.report_sow (s : State) (n : Nat) (r : Report) : (s.report n r).sow = s.sow := by
  unfold State.report; dsimp only; split <;> simp
@[simp] theorem State.report_de (s : State) (n : Nat) (r : Report) : (s.report n r).de = s.de := by
  unfold State.report; dsimp only; split <;> simp
@[simp] theorem State.report_rla (s : State) (n : Nat) (r : Report) : (s.report n r).rla = s.rla := by
  unfold State.report; dsimp only; split <;> simp
@[simp] theorem State.report_eng (s : State) (n : Nat) (r : Report) : (s.report n r).eng = s.eng := by
  unfold State.report; dsimp only; split <;> simp
@[simp] theorem State.report_dcs (s : State) (n : Nat) (r : Report) : (s.report n r).dcs = s.dcs := by
  unfold State.report; dsimp only; split <;> simp
@[simp] theorem State.report_hcf (s : State) (n : Nat) (r : Report) : (s.report n r).hcf = s.hcf := by
  unfold State.report; dsimp only; split <;> simp
@[simp] theorem State.report_sm (s : State) (n : Nat) (r : Report) : (s.report n r).sm = s.sm := by
  unfold State.report; dsimp only; split <;> simp
@[simp] theorem State.report_cc (s : State) (n : Nat) (r : Report) : (s.report n r).cc = s.cc := by
  unfold State.report; dsimp only; split <;> simp

@[simp] theorem State.report_mrs (s : State) (n : Nat) (r : Report) : (s.report n r).mrs = s.mrs := by
  unfold State.report; dsimp only; split <;> simp
@[simp] theorem State.report_link (s : State) (n : Nat) (r : Report) : (s.report n r).link = s.link := by
  unfold State.report; dsimp only; split <;> simp
@[simp] theorem State.report_shf (s : State) (n : Nat) (r : Report) : (s.report n r).shf = s.shf := by
  unfold State.report; dsimp only; split <;> simp
@[simp] theorem State.report_stu (s : State) (n : Nat) (r : Report) : (s.report n r).stu = s.stu := by
  unfold State.report; dsimp only; split <;> simp
@[simp] theorem State.report_tcs (s : State) (n : Nat) (r : Report) : (s.report n r).tcs = s.tcs := by
  unfold State.report; dsimp only; split <;> simp
@[simp] theorem State.report_yoke (s : State) (n : Nat) (r : Report) : (s.report n r).yoke = s.yoke := by
  unfold State.report; dsimp only; split <;> simp
@[simp] theorem State.report_ccx (s : State) (n : Nat) (r : Report) : (s.report n r).ccx = s.ccx := by
  unfold State.report; dsimp only; split <;> simp
@[simp] theorem State.report_nv (s : State) (n : Nat) (r : Report) : (s.report n r).nv = s.nv := by
  unfold State.report; dsimp only; split <;> simp
@[simp] theorem State.report_pru_segs (s : State) (n : Nat) (r : Report) : (s.report n r).pru.segs = s.pru.segs := by
  unfold State.report; dsimp only; split <;> simp

@[simp] theorem State.modFaultQ_ftt_fatal (s : State) (n : Nat) (f : FaultQ → FaultQ) : (s.modFaultQ n f).ftt.fatal = s.ftt.fatal := rfl
@[simp] theorem State.modFaultQ_ftt_fatalInfo (s : State) (n : Nat) (f : FaultQ → FaultQ) : (s.modFaultQ n f).ftt.fatalInfo = s.ftt.fatalInfo := rfl
@[simp] theorem State.modFaultQ_ftt_resets (s : State) (n : Nat) (f : FaultQ → FaultQ) : (s.modFaultQ n f).ftt.resets = s.ftt.resets := rfl
@[simp] theorem State.modFaultQ_ftt_banks (s : State) (n : Nat) (f : FaultQ → FaultQ) : (s.modFaultQ n f).ftt.banks = s.ftt.banks := rfl
@[simp] theorem State.modFaultQ_ftt_entries (s : State) (n : Nat) (f : FaultQ → FaultQ) : (s.modFaultQ n f).ftt.entries = s.ftt.entries := rfl

@[simp] theorem State.report_ftt_fatal (s : State) (n : Nat) (r : Report) : (s.report n r).ftt.fatal = s.ftt.fatal := by
  unfold State.report; dsimp only; split <;> simp
@[simp] theorem State.report_ftt_fatalInfo (s : State) (n : Nat) (r : Report) : (s.report n r).ftt.fatalInfo = s.ftt.fatalInfo := by
  unfold State.report; dsimp only; split <;> simp
@[simp] theorem State.report_ftt_resets (s : State) (n : Nat) (r : Report) : (s.report n r).ftt.resets = s.ftt.resets := by
  unfold State.report; dsimp only; split <;> simp
@[simp] theorem State.report_ftt_banks (s : State) (n : Nat) (r : Report) : (s.report n r).ftt.banks = s.ftt.banks := by
  unfold State.report; dsimp only; split <;> simp
@[simp] theorem State.report_ftt_entries (s : State) (n : Nat) (r : Report) : (s.report n r).ftt.entries = s.ftt.entries := by
  unfold State.report; dsimp only; split <;> simp

@[simp] theorem State.reportPair_pending (s : State) (n : Nat) (a b : Report) : (s.reportPair n a b).pending = s.pending := by
  simp [State.reportPair]
@[simp] theorem State.reportPair_now (s : State) (n : Nat) (a b : Report) : (s.reportPair n a b).now = s.now := by
  simp [State.reportPair]
@[simp] theorem State.reportPair_free (s : State) (n : Nat) (a b : Report) : (s.reportPair n a b).free = s.free := by
  simp [State.reportPair]
@[simp] theorem State.reportPair_su (s : State) (n : Nat) (a b : Report) : (s.reportPair n a b).su = s.su := by
  simp [State.reportPair]
@[simp] theorem State.reportPair_pins (s : State) (n : Nat) (a b : Report) : (s.reportPair n a b).pins = s.pins := by
  simp [State.reportPair]
@[simp] theorem State.reportPair_mt (s : State) (n : Nat) (a b : Report) : (s.reportPair n a b).mt = s.mt := by
  simp [State.reportPair]
@[simp] theorem State.reportPair_fm (s : State) (n : Nat) (a b : Report) : (s.reportPair n a b).fm = s.fm := by
  simp [State.reportPair]
@[simp] theorem State.reportPair_gs (s : State) (n : Nat) (a b : Report) : (s.reportPair n a b).gs = s.gs := by
  simp [State.reportPair]
@[simp] theorem State.reportPair_sow (s : State) (n : Nat) (a b : Report) : (s.reportPair n a b).sow = s.sow := by
  simp [State.reportPair]
@[simp] theorem State.reportPair_de (s : State) (n : Nat) (a b : Report) : (s.reportPair n a b).de = s.de := by
  simp [State.reportPair]
@[simp] theorem State.reportPair_rla (s : State) (n : Nat) (a b : Report) : (s.reportPair n a b).rla = s.rla := by
  simp [State.reportPair]
@[simp] theorem State.reportPair_eng (s : State) (n : Nat) (a b : Report) : (s.reportPair n a b).eng = s.eng := by
  simp [State.reportPair]
@[simp] theorem State.reportPair_dcs (s : State) (n : Nat) (a b : Report) : (s.reportPair n a b).dcs = s.dcs := by
  simp [State.reportPair]
@[simp] theorem State.reportPair_hcf (s : State) (n : Nat) (a b : Report) : (s.reportPair n a b).hcf = s.hcf := by
  simp [State.reportPair]
@[simp] theorem State.reportPair_sm (s : State) (n : Nat) (a b : Report) : (s.reportPair n a b).sm = s.sm := by
  simp [State.reportPair]
@[simp] theorem State.reportPair_cc (s : State) (n : Nat) (a b : Report) : (s.reportPair n a b).cc = s.cc := by
  simp [State.reportPair]

@[simp] theorem State.reportPair_mrs (s : State) (n : Nat) (a b : Report) : (s.reportPair n a b).mrs = s.mrs := by
  simp [State.reportPair]
@[simp] theorem State.reportPair_link (s : State) (n : Nat) (a b : Report) : (s.reportPair n a b).link = s.link := by
  simp [State.reportPair]
@[simp] theorem State.reportPair_shf (s : State) (n : Nat) (a b : Report) : (s.reportPair n a b).shf = s.shf := by
  simp [State.reportPair]
@[simp] theorem State.reportPair_stu (s : State) (n : Nat) (a b : Report) : (s.reportPair n a b).stu = s.stu := by
  simp [State.reportPair]
@[simp] theorem State.reportPair_tcs (s : State) (n : Nat) (a b : Report) : (s.reportPair n a b).tcs = s.tcs := by
  simp [State.reportPair]
@[simp] theorem State.reportPair_yoke (s : State) (n : Nat) (a b : Report) : (s.reportPair n a b).yoke = s.yoke := by
  simp [State.reportPair]
@[simp] theorem State.reportPair_ccx (s : State) (n : Nat) (a b : Report) : (s.reportPair n a b).ccx = s.ccx := by
  simp [State.reportPair]
@[simp] theorem State.reportPair_nv (s : State) (n : Nat) (a b : Report) : (s.reportPair n a b).nv = s.nv := by
  simp [State.reportPair]
@[simp] theorem State.reportPair_pru_segs (s : State) (n : Nat) (a b : Report) : (s.reportPair n a b).pru.segs = s.pru.segs := by
  simp [State.reportPair]
@[simp] theorem State.reportPair_ftt_fatal (s : State) (n : Nat) (a b : Report) : (s.reportPair n a b).ftt.fatal = s.ftt.fatal := by
  simp [State.reportPair]
@[simp] theorem State.reportPair_ftt_fatalInfo (s : State) (n : Nat) (a b : Report) : (s.reportPair n a b).ftt.fatalInfo = s.ftt.fatalInfo := by
  simp [State.reportPair]
@[simp] theorem State.reportPair_ftt_resets (s : State) (n : Nat) (a b : Report) : (s.reportPair n a b).ftt.resets = s.ftt.resets := by
  simp [State.reportPair]
@[simp] theorem State.reportPair_ftt_banks (s : State) (n : Nat) (a b : Report) : (s.reportPair n a b).ftt.banks = s.ftt.banks := by
  simp [State.reportPair]
@[simp] theorem State.reportPair_ftt_entries (s : State) (n : Nat) (a b : Report) : (s.reportPair n a b).ftt.entries = s.ftt.entries := by
  simp [State.reportPair]

@[simp] theorem State.refuse_pending (s : State) (req : Req) (o : Nat) : (s.refuse req o).pending = s.pending := by
  unfold State.refuse; dsimp only; split <;> simp
@[simp] theorem State.refuse_now (s : State) (req : Req) (o : Nat) : (s.refuse req o).now = s.now := by
  unfold State.refuse; dsimp only; split <;> simp
@[simp] theorem State.refuse_free (s : State) (req : Req) (o : Nat) : (s.refuse req o).free = s.free := by
  unfold State.refuse; dsimp only; split <;> simp
@[simp] theorem State.refuse_su (s : State) (req : Req) (o : Nat) : (s.refuse req o).su = s.su := by
  unfold State.refuse; dsimp only; split <;> simp
@[simp] theorem State.refuse_pins (s : State) (req : Req) (o : Nat) : (s.refuse req o).pins = s.pins := by
  unfold State.refuse; dsimp only; split <;> simp
@[simp] theorem State.refuse_fm (s : State) (req : Req) (o : Nat) : (s.refuse req o).fm = s.fm := by
  unfold State.refuse; dsimp only; split <;> simp
@[simp] theorem State.refuse_gs (s : State) (req : Req) (o : Nat) : (s.refuse req o).gs = s.gs := by
  unfold State.refuse; dsimp only; split <;> simp
@[simp] theorem State.refuse_sow (s : State) (req : Req) (o : Nat) : (s.refuse req o).sow = s.sow := by
  unfold State.refuse; dsimp only; split <;> simp
@[simp] theorem State.refuse_de (s : State) (req : Req) (o : Nat) : (s.refuse req o).de = s.de := by
  unfold State.refuse; dsimp only; split <;> simp
@[simp] theorem State.refuse_rla (s : State) (req : Req) (o : Nat) : (s.refuse req o).rla = s.rla := by
  unfold State.refuse; dsimp only; split <;> simp
@[simp] theorem State.refuse_eng (s : State) (req : Req) (o : Nat) : (s.refuse req o).eng = s.eng := by
  unfold State.refuse; dsimp only; split <;> simp
@[simp] theorem State.refuse_dcs (s : State) (req : Req) (o : Nat) : (s.refuse req o).dcs = s.dcs := by
  unfold State.refuse; dsimp only; split <;> simp
@[simp] theorem State.refuse_hcf (s : State) (req : Req) (o : Nat) : (s.refuse req o).hcf = s.hcf := by
  unfold State.refuse; dsimp only; split <;> simp
@[simp] theorem State.refuse_sm (s : State) (req : Req) (o : Nat) : (s.refuse req o).sm = s.sm := by
  unfold State.refuse; dsimp only; split <;> simp
@[simp] theorem State.refuse_cc (s : State) (req : Req) (o : Nat) : (s.refuse req o).cc = s.cc := by
  unfold State.refuse; dsimp only; split <;> simp

@[simp] theorem State.refuse_mrs (s : State) (req : Req) (o : Nat) : (s.refuse req o).mrs = s.mrs := by
  unfold State.refuse; dsimp only; split <;> simp
@[simp] theorem State.refuse_link (s : State) (req : Req) (o : Nat) : (s.refuse req o).link = s.link := by
  unfold State.refuse; dsimp only; split <;> simp
@[simp] theorem State.refuse_shf (s : State) (req : Req) (o : Nat) : (s.refuse req o).shf = s.shf := by
  unfold State.refuse; dsimp only; split <;> simp
@[simp] theorem State.refuse_stu (s : State) (req : Req) (o : Nat) : (s.refuse req o).stu = s.stu := by
  unfold State.refuse; dsimp only; split <;> simp
@[simp] theorem State.refuse_tcs (s : State) (req : Req) (o : Nat) : (s.refuse req o).tcs = s.tcs := by
  unfold State.refuse; dsimp only; split <;> simp
@[simp] theorem State.refuse_yoke (s : State) (req : Req) (o : Nat) : (s.refuse req o).yoke = s.yoke := by
  unfold State.refuse; dsimp only; split <;> simp
@[simp] theorem State.refuse_ccx (s : State) (req : Req) (o : Nat) : (s.refuse req o).ccx = s.ccx := by
  unfold State.refuse; dsimp only; split <;> simp
@[simp] theorem State.refuse_nv (s : State) (req : Req) (o : Nat) : (s.refuse req o).nv = s.nv := by
  unfold State.refuse; dsimp only; split <;> simp
@[simp] theorem State.refuse_tr (s : State) (req : Req) (o : Nat) : (s.refuse req o).tr = s.tr := by
  unfold State.refuse; dsimp only; split <;> simp
@[simp] theorem State.refuse_pru_segs (s : State) (req : Req) (o : Nat) : (s.refuse req o).pru.segs = s.pru.segs := by
  unfold State.refuse; dsimp only; split <;> simp
@[simp] theorem State.refuse_ftt_queues (s : State) (req : Req) (o : Nat) : (s.refuse req o).ftt.queues = s.ftt.queues := by
  unfold State.refuse; dsimp only; split <;> simp
@[simp] theorem State.refuse_ftt_fnstat (s : State) (req : Req) (o : Nat) : (s.refuse req o).ftt.fnstat = s.ftt.fnstat := by
  unfold State.refuse; dsimp only; split <;> simp
@[simp] theorem State.refuse_ftt_fatal (s : State) (req : Req) (o : Nat) : (s.refuse req o).ftt.fatal = s.ftt.fatal := by
  unfold State.refuse; dsimp only; split <;> simp
@[simp] theorem State.refuse_ftt_fatalInfo (s : State) (req : Req) (o : Nat) : (s.refuse req o).ftt.fatalInfo = s.ftt.fatalInfo := by
  unfold State.refuse; dsimp only; split <;> simp
@[simp] theorem State.refuse_ftt_resets (s : State) (req : Req) (o : Nat) : (s.refuse req o).ftt.resets = s.ftt.resets := by
  unfold State.refuse; dsimp only; split <;> simp
@[simp] theorem State.refuse_ftt_banks (s : State) (req : Req) (o : Nat) : (s.refuse req o).ftt.banks = s.ftt.banks := by
  unfold State.refuse; dsimp only; split <;> simp
@[simp] theorem State.refuse_ftt_entries (s : State) (req : Req) (o : Nat) : (s.refuse req o).ftt.entries = s.ftt.entries := by
  unfold State.refuse; dsimp only; split <;> simp

/-! ### Views over one component -/

@[simp] theorem State.engine_respond (s : State) (c : BitVec 2) (v : W64) (j : Nat) : (s.respond c v).engine j = s.engine j := by
  simp [State.engine]
@[simp] theorem State.engine_capture (s : State) (ev : Event) (j : Nat) : (s.capture ev).engine j = s.engine j := by
  simp [State.engine]
@[simp] theorem State.engine_issue (s : State) (x : Xfer) (j : Nat) : (s.issue x).engine j = s.engine j := by
  simp [State.engine]
@[simp] theorem State.engine_notify (s : State) (c : Nat) (rose : Bool) (j : Nat) : (s.notify c rose).engine j = s.engine j := by
  simp [State.engine]
@[simp] theorem State.engine_ringHost (s : State) (c : Nat) (b : BitVec 32) (j : Nat) : (s.ringHost c b).engine j = s.engine j := by
  simp [State.engine]
@[simp] theorem State.engine_errlog (s : State) (r : Report) (j : Nat) : (s.errlog r).engine j = s.engine j := by
  simp [State.engine]
@[simp] theorem State.engine_report (s : State) (n : Nat) (r : Report) (j : Nat) : (s.report n r).engine j = s.engine j := by
  simp [State.engine]
@[simp] theorem State.engine_refuse (s : State) (req : Req) (o : Nat) (j : Nat) : (s.refuse req o).engine j = s.engine j := by
  simp [State.engine]
@[simp] theorem State.engine_bump (s : State) (i n : Nat) (j : Nat) : (s.bump i n).engine j = s.engine j := by
  simp [State.engine]
@[simp] theorem State.engine_bumpEng (s : State) (e k n : Nat) (j : Nat) : (s.bumpEng e k n).engine j = s.engine j := by
  simp [State.engine]
@[simp] theorem State.engine_bumpPlot (s : State) (p k n : Nat) (j : Nat) : (s.bumpPlot p k n).engine j = s.engine j := by
  simp [State.engine]
@[simp] theorem State.engine_bumpFn (s : State) (n k m : Nat) (j : Nat) : (s.bumpFn n k m).engine j = s.engine j := by
  simp [State.engine]
@[simp] theorem State.engine_bumpChip (s : State) (c n : Nat) (j : Nat) : (s.bumpChip c n).engine j = s.engine j := by
  simp [State.engine]
@[simp] theorem State.engine_modQueue (s : State) (q : Nat) (f : Queue → Queue) (j : Nat) : (s.modQueue q f).engine j = s.engine j := by
  simp [State.engine]
@[simp] theorem State.engine_setQueue (s : State) (q : Nat) (v : Queue) (j : Nat) : (s.setQueue q v).engine j = s.engine j := by
  simp [State.engine]
@[simp] theorem State.engine_modGraph (s : State) (h : Nat) (f : Graph → Graph) (j : Nat) : (s.modGraph h f).engine j = s.engine j := by
  simp [State.engine]
@[simp] theorem State.engine_modSowing (s : State) (h : Nat) (f : Sowing → Sowing) (j : Nat) : (s.modSowing h f).engine j = s.engine j := by
  simp [State.engine]
@[simp] theorem State.engine_setSowing (s : State) (h : Nat) (f : Sowing) (j : Nat) : (s.setSowing h f).engine j = s.engine j := by
  simp [State.engine]
@[simp] theorem State.engine_setGraph (s : State) (h : Nat) (f : Graph) (j : Nat) : (s.setGraph h f).engine j = s.engine j := by
  simp [State.engine]
@[simp] theorem State.engine_modPlot (s : State) (p : Nat) (f : Plot → Plot) (j : Nat) : (s.modPlot p f).engine j = s.engine j := by
  simp [State.engine]
@[simp] theorem State.engine_modSegment (s : State) (n g : Nat) (f : Seg → Seg) (j : Nat) : (s.modSegment n g f).engine j = s.engine j := by
  simp [State.engine]
@[simp] theorem State.engine_modChannel (s : State) (c : Nat) (f : Channel → Channel) (j : Nat) : (s.modChannel c f).engine j = s.engine j := by
  simp [State.engine]
@[simp] theorem State.engine_modFaultQ (s : State) (n : Nat) (f : FaultQ → FaultQ) (j : Nat) : (s.modFaultQ n f).engine j = s.engine j := by
  simp [State.engine]
@[simp] theorem State.engine_setDomain (s : State) (c : Nat) (d : Domain) (j : Nat) : (s.setDomain c d).engine j = s.engine j := by
  simp [State.engine]

@[simp] theorem State.queue_respond (s : State) (c : BitVec 2) (v : W64) (j : Nat) : (s.respond c v).queue j = s.queue j := by
  simp [State.queue]
@[simp] theorem State.queue_capture (s : State) (ev : Event) (j : Nat) : (s.capture ev).queue j = s.queue j := by
  simp [State.queue]
@[simp] theorem State.queue_issue (s : State) (x : Xfer) (j : Nat) : (s.issue x).queue j = s.queue j := by
  simp [State.queue]
@[simp] theorem State.queue_notify (s : State) (c : Nat) (rose : Bool) (j : Nat) : (s.notify c rose).queue j = s.queue j := by
  simp [State.queue]
@[simp] theorem State.queue_ringHost (s : State) (c : Nat) (b : BitVec 32) (j : Nat) : (s.ringHost c b).queue j = s.queue j := by
  simp [State.queue]
@[simp] theorem State.queue_errlog (s : State) (r : Report) (j : Nat) : (s.errlog r).queue j = s.queue j := by
  simp [State.queue]
@[simp] theorem State.queue_report (s : State) (n : Nat) (r : Report) (j : Nat) : (s.report n r).queue j = s.queue j := by
  simp [State.queue]
@[simp] theorem State.queue_refuse (s : State) (req : Req) (o : Nat) (j : Nat) : (s.refuse req o).queue j = s.queue j := by
  simp [State.queue]
@[simp] theorem State.queue_bump (s : State) (i n : Nat) (j : Nat) : (s.bump i n).queue j = s.queue j := by
  simp [State.queue]
@[simp] theorem State.queue_bumpEng (s : State) (e k n : Nat) (j : Nat) : (s.bumpEng e k n).queue j = s.queue j := by
  simp [State.queue]
@[simp] theorem State.queue_bumpPlot (s : State) (p k n : Nat) (j : Nat) : (s.bumpPlot p k n).queue j = s.queue j := by
  simp [State.queue]
@[simp] theorem State.queue_bumpFn (s : State) (n k m : Nat) (j : Nat) : (s.bumpFn n k m).queue j = s.queue j := by
  simp [State.queue]
@[simp] theorem State.queue_bumpChip (s : State) (c n : Nat) (j : Nat) : (s.bumpChip c n).queue j = s.queue j := by
  simp [State.queue]
@[simp] theorem State.queue_setEngine (s : State) (e : Nat) (v : Engine) (j : Nat) : (s.setEngine e v).queue j = s.queue j := by
  simp [State.queue]
@[simp] theorem State.queue_modEngine (s : State) (e : Nat) (f : Engine → Engine) (j : Nat) : (s.modEngine e f).queue j = s.queue j := by
  simp [State.queue]
@[simp] theorem State.queue_modGraph (s : State) (h : Nat) (f : Graph → Graph) (j : Nat) : (s.modGraph h f).queue j = s.queue j := by
  simp [State.queue]
@[simp] theorem State.queue_modSowing (s : State) (h : Nat) (f : Sowing → Sowing) (j : Nat) : (s.modSowing h f).queue j = s.queue j := by
  simp [State.queue]
@[simp] theorem State.queue_setSowing (s : State) (h : Nat) (f : Sowing) (j : Nat) : (s.setSowing h f).queue j = s.queue j := by
  simp [State.queue]
@[simp] theorem State.queue_setGraph (s : State) (h : Nat) (f : Graph) (j : Nat) : (s.setGraph h f).queue j = s.queue j := by
  simp [State.queue]
@[simp] theorem State.queue_modPlot (s : State) (p : Nat) (f : Plot → Plot) (j : Nat) : (s.modPlot p f).queue j = s.queue j := by
  simp [State.queue]
@[simp] theorem State.queue_modSegment (s : State) (n g : Nat) (f : Seg → Seg) (j : Nat) : (s.modSegment n g f).queue j = s.queue j := by
  simp [State.queue]
@[simp] theorem State.queue_modChannel (s : State) (c : Nat) (f : Channel → Channel) (j : Nat) : (s.modChannel c f).queue j = s.queue j := by
  simp [State.queue]
@[simp] theorem State.queue_modFaultQ (s : State) (n : Nat) (f : FaultQ → FaultQ) (j : Nat) : (s.modFaultQ n f).queue j = s.queue j := by
  simp [State.queue]
@[simp] theorem State.queue_setDomain (s : State) (c : Nat) (d : Domain) (j : Nat) : (s.setDomain c d).queue j = s.queue j := by
  simp [State.queue]

@[simp] theorem State.graph?_respond (s : State) (c : BitVec 2) (v : W64) (j : Nat) : (s.respond c v).graph? j = s.graph? j := by
  simp [State.graph?]
@[simp] theorem State.graph?_capture (s : State) (ev : Event) (j : Nat) : (s.capture ev).graph? j = s.graph? j := by
  simp [State.graph?]
@[simp] theorem State.graph?_issue (s : State) (x : Xfer) (j : Nat) : (s.issue x).graph? j = s.graph? j := by
  simp [State.graph?]
@[simp] theorem State.graph?_notify (s : State) (c : Nat) (rose : Bool) (j : Nat) : (s.notify c rose).graph? j = s.graph? j := by
  simp [State.graph?]
@[simp] theorem State.graph?_ringHost (s : State) (c : Nat) (b : BitVec 32) (j : Nat) : (s.ringHost c b).graph? j = s.graph? j := by
  simp [State.graph?]
@[simp] theorem State.graph?_errlog (s : State) (r : Report) (j : Nat) : (s.errlog r).graph? j = s.graph? j := by
  simp [State.graph?]
@[simp] theorem State.graph?_report (s : State) (n : Nat) (r : Report) (j : Nat) : (s.report n r).graph? j = s.graph? j := by
  simp [State.graph?]
@[simp] theorem State.graph?_refuse (s : State) (req : Req) (o : Nat) (j : Nat) : (s.refuse req o).graph? j = s.graph? j := by
  simp [State.graph?]
@[simp] theorem State.graph?_bump (s : State) (i n : Nat) (j : Nat) : (s.bump i n).graph? j = s.graph? j := by
  simp [State.graph?]
@[simp] theorem State.graph?_bumpEng (s : State) (e k n : Nat) (j : Nat) : (s.bumpEng e k n).graph? j = s.graph? j := by
  simp [State.graph?]
@[simp] theorem State.graph?_bumpPlot (s : State) (p k n : Nat) (j : Nat) : (s.bumpPlot p k n).graph? j = s.graph? j := by
  simp [State.graph?]
@[simp] theorem State.graph?_bumpFn (s : State) (n k m : Nat) (j : Nat) : (s.bumpFn n k m).graph? j = s.graph? j := by
  simp [State.graph?]
@[simp] theorem State.graph?_bumpChip (s : State) (c n : Nat) (j : Nat) : (s.bumpChip c n).graph? j = s.graph? j := by
  simp [State.graph?]
@[simp] theorem State.graph?_setEngine (s : State) (e : Nat) (v : Engine) (j : Nat) : (s.setEngine e v).graph? j = s.graph? j := by
  simp [State.graph?]
@[simp] theorem State.graph?_modEngine (s : State) (e : Nat) (f : Engine → Engine) (j : Nat) : (s.modEngine e f).graph? j = s.graph? j := by
  simp [State.graph?]
@[simp] theorem State.graph?_modQueue (s : State) (q : Nat) (f : Queue → Queue) (j : Nat) : (s.modQueue q f).graph? j = s.graph? j := by
  simp [State.graph?]
@[simp] theorem State.graph?_setQueue (s : State) (q : Nat) (v : Queue) (j : Nat) : (s.setQueue q v).graph? j = s.graph? j := by
  simp [State.graph?]
@[simp] theorem State.graph?_modSowing (s : State) (h : Nat) (f : Sowing → Sowing) (j : Nat) : (s.modSowing h f).graph? j = s.graph? j := by
  simp [State.graph?]
@[simp] theorem State.graph?_setSowing (s : State) (h : Nat) (f : Sowing) (j : Nat) : (s.setSowing h f).graph? j = s.graph? j := by
  simp [State.graph?]
@[simp] theorem State.graph?_modPlot (s : State) (p : Nat) (f : Plot → Plot) (j : Nat) : (s.modPlot p f).graph? j = s.graph? j := by
  simp [State.graph?]
@[simp] theorem State.graph?_modSegment (s : State) (n g : Nat) (f : Seg → Seg) (j : Nat) : (s.modSegment n g f).graph? j = s.graph? j := by
  simp [State.graph?]
@[simp] theorem State.graph?_modChannel (s : State) (c : Nat) (f : Channel → Channel) (j : Nat) : (s.modChannel c f).graph? j = s.graph? j := by
  simp [State.graph?]
@[simp] theorem State.graph?_modFaultQ (s : State) (n : Nat) (f : FaultQ → FaultQ) (j : Nat) : (s.modFaultQ n f).graph? j = s.graph? j := by
  simp [State.graph?]
@[simp] theorem State.graph?_setDomain (s : State) (c : Nat) (d : Domain) (j : Nat) : (s.setDomain c d).graph? j = s.graph? j := by
  simp [State.graph?]

@[simp] theorem State.sowing?_respond (s : State) (c : BitVec 2) (v : W64) (j : Nat) : (s.respond c v).sowing? j = s.sowing? j := by
  simp [State.sowing?]
@[simp] theorem State.sowing?_capture (s : State) (ev : Event) (j : Nat) : (s.capture ev).sowing? j = s.sowing? j := by
  simp [State.sowing?]
@[simp] theorem State.sowing?_issue (s : State) (x : Xfer) (j : Nat) : (s.issue x).sowing? j = s.sowing? j := by
  simp [State.sowing?]
@[simp] theorem State.sowing?_notify (s : State) (c : Nat) (rose : Bool) (j : Nat) : (s.notify c rose).sowing? j = s.sowing? j := by
  simp [State.sowing?]
@[simp] theorem State.sowing?_ringHost (s : State) (c : Nat) (b : BitVec 32) (j : Nat) : (s.ringHost c b).sowing? j = s.sowing? j := by
  simp [State.sowing?]
@[simp] theorem State.sowing?_errlog (s : State) (r : Report) (j : Nat) : (s.errlog r).sowing? j = s.sowing? j := by
  simp [State.sowing?]
@[simp] theorem State.sowing?_report (s : State) (n : Nat) (r : Report) (j : Nat) : (s.report n r).sowing? j = s.sowing? j := by
  simp [State.sowing?]
@[simp] theorem State.sowing?_refuse (s : State) (req : Req) (o : Nat) (j : Nat) : (s.refuse req o).sowing? j = s.sowing? j := by
  simp [State.sowing?]
@[simp] theorem State.sowing?_bump (s : State) (i n : Nat) (j : Nat) : (s.bump i n).sowing? j = s.sowing? j := by
  simp [State.sowing?]
@[simp] theorem State.sowing?_bumpEng (s : State) (e k n : Nat) (j : Nat) : (s.bumpEng e k n).sowing? j = s.sowing? j := by
  simp [State.sowing?]
@[simp] theorem State.sowing?_bumpPlot (s : State) (p k n : Nat) (j : Nat) : (s.bumpPlot p k n).sowing? j = s.sowing? j := by
  simp [State.sowing?]
@[simp] theorem State.sowing?_bumpFn (s : State) (n k m : Nat) (j : Nat) : (s.bumpFn n k m).sowing? j = s.sowing? j := by
  simp [State.sowing?]
@[simp] theorem State.sowing?_bumpChip (s : State) (c n : Nat) (j : Nat) : (s.bumpChip c n).sowing? j = s.sowing? j := by
  simp [State.sowing?]
@[simp] theorem State.sowing?_setEngine (s : State) (e : Nat) (v : Engine) (j : Nat) : (s.setEngine e v).sowing? j = s.sowing? j := by
  simp [State.sowing?]
@[simp] theorem State.sowing?_modEngine (s : State) (e : Nat) (f : Engine → Engine) (j : Nat) : (s.modEngine e f).sowing? j = s.sowing? j := by
  simp [State.sowing?]
@[simp] theorem State.sowing?_modQueue (s : State) (q : Nat) (f : Queue → Queue) (j : Nat) : (s.modQueue q f).sowing? j = s.sowing? j := by
  simp [State.sowing?]
@[simp] theorem State.sowing?_setQueue (s : State) (q : Nat) (v : Queue) (j : Nat) : (s.setQueue q v).sowing? j = s.sowing? j := by
  simp [State.sowing?]
@[simp] theorem State.sowing?_modGraph (s : State) (h : Nat) (f : Graph → Graph) (j : Nat) : (s.modGraph h f).sowing? j = s.sowing? j := by
  simp [State.sowing?]
@[simp] theorem State.sowing?_setGraph (s : State) (h : Nat) (f : Graph) (j : Nat) : (s.setGraph h f).sowing? j = s.sowing? j := by
  simp [State.sowing?]
@[simp] theorem State.sowing?_modPlot (s : State) (p : Nat) (f : Plot → Plot) (j : Nat) : (s.modPlot p f).sowing? j = s.sowing? j := by
  simp [State.sowing?]
@[simp] theorem State.sowing?_modSegment (s : State) (n g : Nat) (f : Seg → Seg) (j : Nat) : (s.modSegment n g f).sowing? j = s.sowing? j := by
  simp [State.sowing?]
@[simp] theorem State.sowing?_modChannel (s : State) (c : Nat) (f : Channel → Channel) (j : Nat) : (s.modChannel c f).sowing? j = s.sowing? j := by
  simp [State.sowing?]
@[simp] theorem State.sowing?_modFaultQ (s : State) (n : Nat) (f : FaultQ → FaultQ) (j : Nat) : (s.modFaultQ n f).sowing? j = s.sowing? j := by
  simp [State.sowing?]
@[simp] theorem State.sowing?_setDomain (s : State) (c : Nat) (d : Domain) (j : Nat) : (s.setDomain c d).sowing? j = s.sowing? j := by
  simp [State.sowing?]

@[simp] theorem State.segment_respond (s : State) (c : BitVec 2) (v : W64) (u w : Nat) : (s.respond c v).segment u w = s.segment u w := by
  simp [State.segment]
@[simp] theorem State.segment_capture (s : State) (ev : Event) (u w : Nat) : (s.capture ev).segment u w = s.segment u w := by
  simp [State.segment]
@[simp] theorem State.segment_issue (s : State) (x : Xfer) (u w : Nat) : (s.issue x).segment u w = s.segment u w := by
  simp [State.segment]
@[simp] theorem State.segment_notify (s : State) (c : Nat) (rose : Bool) (u w : Nat) : (s.notify c rose).segment u w = s.segment u w := by
  simp [State.segment]
@[simp] theorem State.segment_ringHost (s : State) (c : Nat) (b : BitVec 32) (u w : Nat) : (s.ringHost c b).segment u w = s.segment u w := by
  simp [State.segment]
@[simp] theorem State.segment_errlog (s : State) (r : Report) (u w : Nat) : (s.errlog r).segment u w = s.segment u w := by
  simp [State.segment]
@[simp] theorem State.segment_report (s : State) (n : Nat) (r : Report) (u w : Nat) : (s.report n r).segment u w = s.segment u w := by
  simp [State.segment]
@[simp] theorem State.segment_refuse (s : State) (req : Req) (o : Nat) (u w : Nat) : (s.refuse req o).segment u w = s.segment u w := by
  simp [State.segment]
@[simp] theorem State.segment_bump (s : State) (i n : Nat) (u w : Nat) : (s.bump i n).segment u w = s.segment u w := by
  simp [State.segment]
@[simp] theorem State.segment_bumpEng (s : State) (e k n : Nat) (u w : Nat) : (s.bumpEng e k n).segment u w = s.segment u w := by
  simp [State.segment]
@[simp] theorem State.segment_bumpPlot (s : State) (p k n : Nat) (u w : Nat) : (s.bumpPlot p k n).segment u w = s.segment u w := by
  simp [State.segment]
@[simp] theorem State.segment_bumpFn (s : State) (n k m : Nat) (u w : Nat) : (s.bumpFn n k m).segment u w = s.segment u w := by
  simp [State.segment]
@[simp] theorem State.segment_bumpChip (s : State) (c n : Nat) (u w : Nat) : (s.bumpChip c n).segment u w = s.segment u w := by
  simp [State.segment]
@[simp] theorem State.segment_setEngine (s : State) (e : Nat) (v : Engine) (u w : Nat) : (s.setEngine e v).segment u w = s.segment u w := by
  simp [State.segment]
@[simp] theorem State.segment_modEngine (s : State) (e : Nat) (f : Engine → Engine) (u w : Nat) : (s.modEngine e f).segment u w = s.segment u w := by
  simp [State.segment]
@[simp] theorem State.segment_modQueue (s : State) (q : Nat) (f : Queue → Queue) (u w : Nat) : (s.modQueue q f).segment u w = s.segment u w := by
  simp [State.segment]
@[simp] theorem State.segment_setQueue (s : State) (q : Nat) (v : Queue) (u w : Nat) : (s.setQueue q v).segment u w = s.segment u w := by
  simp [State.segment]
@[simp] theorem State.segment_modGraph (s : State) (h : Nat) (f : Graph → Graph) (u w : Nat) : (s.modGraph h f).segment u w = s.segment u w := by
  simp [State.segment]
@[simp] theorem State.segment_modSowing (s : State) (h : Nat) (f : Sowing → Sowing) (u w : Nat) : (s.modSowing h f).segment u w = s.segment u w := by
  simp [State.segment]
@[simp] theorem State.segment_setSowing (s : State) (h : Nat) (f : Sowing) (u w : Nat) : (s.setSowing h f).segment u w = s.segment u w := by
  simp [State.segment]
@[simp] theorem State.segment_setGraph (s : State) (h : Nat) (f : Graph) (u w : Nat) : (s.setGraph h f).segment u w = s.segment u w := by
  simp [State.segment]
@[simp] theorem State.segment_modPlot (s : State) (p : Nat) (f : Plot → Plot) (u w : Nat) : (s.modPlot p f).segment u w = s.segment u w := by
  simp [State.segment]
@[simp] theorem State.segment_modChannel (s : State) (c : Nat) (f : Channel → Channel) (u w : Nat) : (s.modChannel c f).segment u w = s.segment u w := by
  simp [State.segment]
@[simp] theorem State.segment_modFaultQ (s : State) (n : Nat) (f : FaultQ → FaultQ) (u w : Nat) : (s.modFaultQ n f).segment u w = s.segment u w := by
  simp [State.segment]
@[simp] theorem State.segment_setDomain (s : State) (c : Nat) (d : Domain) (u w : Nat) : (s.setDomain c d).segment u w = s.segment u w := by
  simp [State.segment]

@[simp] theorem State.domain_respond (s : State) (c : BitVec 2) (v : W64) (j : Nat) : (s.respond c v).domain j = s.domain j := by
  simp [State.domain]
@[simp] theorem State.domain_capture (s : State) (ev : Event) (j : Nat) : (s.capture ev).domain j = s.domain j := by
  simp [State.domain]
@[simp] theorem State.domain_issue (s : State) (x : Xfer) (j : Nat) : (s.issue x).domain j = s.domain j := by
  simp [State.domain]
@[simp] theorem State.domain_notify (s : State) (c : Nat) (rose : Bool) (j : Nat) : (s.notify c rose).domain j = s.domain j := by
  simp [State.domain]
@[simp] theorem State.domain_ringHost (s : State) (c : Nat) (b : BitVec 32) (j : Nat) : (s.ringHost c b).domain j = s.domain j := by
  simp [State.domain]
@[simp] theorem State.domain_errlog (s : State) (r : Report) (j : Nat) : (s.errlog r).domain j = s.domain j := by
  simp [State.domain]
@[simp] theorem State.domain_report (s : State) (n : Nat) (r : Report) (j : Nat) : (s.report n r).domain j = s.domain j := by
  simp [State.domain]
@[simp] theorem State.domain_refuse (s : State) (req : Req) (o : Nat) (j : Nat) : (s.refuse req o).domain j = s.domain j := by
  simp [State.domain]
@[simp] theorem State.domain_bump (s : State) (i n : Nat) (j : Nat) : (s.bump i n).domain j = s.domain j := by
  simp [State.domain]
@[simp] theorem State.domain_bumpEng (s : State) (e k n : Nat) (j : Nat) : (s.bumpEng e k n).domain j = s.domain j := by
  simp [State.domain]
@[simp] theorem State.domain_bumpPlot (s : State) (p k n : Nat) (j : Nat) : (s.bumpPlot p k n).domain j = s.domain j := by
  simp [State.domain]
@[simp] theorem State.domain_bumpFn (s : State) (n k m : Nat) (j : Nat) : (s.bumpFn n k m).domain j = s.domain j := by
  simp [State.domain]
@[simp] theorem State.domain_bumpChip (s : State) (c n : Nat) (j : Nat) : (s.bumpChip c n).domain j = s.domain j := by
  simp [State.domain]
@[simp] theorem State.domain_setEngine (s : State) (e : Nat) (v : Engine) (j : Nat) : (s.setEngine e v).domain j = s.domain j := by
  simp [State.domain]
@[simp] theorem State.domain_modEngine (s : State) (e : Nat) (f : Engine → Engine) (j : Nat) : (s.modEngine e f).domain j = s.domain j := by
  simp [State.domain]
@[simp] theorem State.domain_modQueue (s : State) (q : Nat) (f : Queue → Queue) (j : Nat) : (s.modQueue q f).domain j = s.domain j := by
  simp [State.domain]
@[simp] theorem State.domain_setQueue (s : State) (q : Nat) (v : Queue) (j : Nat) : (s.setQueue q v).domain j = s.domain j := by
  simp [State.domain]
@[simp] theorem State.domain_modGraph (s : State) (h : Nat) (f : Graph → Graph) (j : Nat) : (s.modGraph h f).domain j = s.domain j := by
  simp [State.domain]
@[simp] theorem State.domain_modSowing (s : State) (h : Nat) (f : Sowing → Sowing) (j : Nat) : (s.modSowing h f).domain j = s.domain j := by
  simp [State.domain]
@[simp] theorem State.domain_setSowing (s : State) (h : Nat) (f : Sowing) (j : Nat) : (s.setSowing h f).domain j = s.domain j := by
  simp [State.domain]
@[simp] theorem State.domain_setGraph (s : State) (h : Nat) (f : Graph) (j : Nat) : (s.setGraph h f).domain j = s.domain j := by
  simp [State.domain]
@[simp] theorem State.domain_modPlot (s : State) (p : Nat) (f : Plot → Plot) (j : Nat) : (s.modPlot p f).domain j = s.domain j := by
  simp [State.domain]
@[simp] theorem State.domain_modSegment (s : State) (n g : Nat) (f : Seg → Seg) (j : Nat) : (s.modSegment n g f).domain j = s.domain j := by
  simp [State.domain]
@[simp] theorem State.domain_modChannel (s : State) (c : Nat) (f : Channel → Channel) (j : Nat) : (s.modChannel c f).domain j = s.domain j := by
  simp [State.domain]
@[simp] theorem State.domain_modFaultQ (s : State) (n : Nat) (f : FaultQ → FaultQ) (j : Nat) : (s.modFaultQ n f).domain j = s.domain j := by
  simp [State.domain]

@[simp] theorem State.plotCfg_respond (s : State) (c : BitVec 2) (v : W64) (j : Nat) : (s.respond c v).plotCfg j = s.plotCfg j := by
  simp [State.plotCfg]
@[simp] theorem State.plotCfg_capture (s : State) (ev : Event) (j : Nat) : (s.capture ev).plotCfg j = s.plotCfg j := by
  simp [State.plotCfg]
@[simp] theorem State.plotCfg_issue (s : State) (x : Xfer) (j : Nat) : (s.issue x).plotCfg j = s.plotCfg j := by
  simp [State.plotCfg]
@[simp] theorem State.plotCfg_notify (s : State) (c : Nat) (rose : Bool) (j : Nat) : (s.notify c rose).plotCfg j = s.plotCfg j := by
  simp [State.plotCfg]
@[simp] theorem State.plotCfg_ringHost (s : State) (c : Nat) (b : BitVec 32) (j : Nat) : (s.ringHost c b).plotCfg j = s.plotCfg j := by
  simp [State.plotCfg]
@[simp] theorem State.plotCfg_errlog (s : State) (r : Report) (j : Nat) : (s.errlog r).plotCfg j = s.plotCfg j := by
  simp [State.plotCfg]
@[simp] theorem State.plotCfg_report (s : State) (n : Nat) (r : Report) (j : Nat) : (s.report n r).plotCfg j = s.plotCfg j := by
  simp [State.plotCfg]
@[simp] theorem State.plotCfg_refuse (s : State) (req : Req) (o : Nat) (j : Nat) : (s.refuse req o).plotCfg j = s.plotCfg j := by
  simp [State.plotCfg]
@[simp] theorem State.plotCfg_bump (s : State) (i n : Nat) (j : Nat) : (s.bump i n).plotCfg j = s.plotCfg j := by
  simp [State.plotCfg]
@[simp] theorem State.plotCfg_bumpEng (s : State) (e k n : Nat) (j : Nat) : (s.bumpEng e k n).plotCfg j = s.plotCfg j := by
  simp [State.plotCfg]
@[simp] theorem State.plotCfg_bumpPlot (s : State) (p k n : Nat) (j : Nat) : (s.bumpPlot p k n).plotCfg j = s.plotCfg j := by
  simp [State.plotCfg]
@[simp] theorem State.plotCfg_bumpFn (s : State) (n k m : Nat) (j : Nat) : (s.bumpFn n k m).plotCfg j = s.plotCfg j := by
  simp [State.plotCfg]
@[simp] theorem State.plotCfg_bumpChip (s : State) (c n : Nat) (j : Nat) : (s.bumpChip c n).plotCfg j = s.plotCfg j := by
  simp [State.plotCfg]
@[simp] theorem State.plotCfg_setEngine (s : State) (e : Nat) (v : Engine) (j : Nat) : (s.setEngine e v).plotCfg j = s.plotCfg j := by
  simp [State.plotCfg]
@[simp] theorem State.plotCfg_modEngine (s : State) (e : Nat) (f : Engine → Engine) (j : Nat) : (s.modEngine e f).plotCfg j = s.plotCfg j := by
  simp [State.plotCfg]
@[simp] theorem State.plotCfg_modQueue (s : State) (q : Nat) (f : Queue → Queue) (j : Nat) : (s.modQueue q f).plotCfg j = s.plotCfg j := by
  simp [State.plotCfg]
@[simp] theorem State.plotCfg_setQueue (s : State) (q : Nat) (v : Queue) (j : Nat) : (s.setQueue q v).plotCfg j = s.plotCfg j := by
  simp [State.plotCfg]
@[simp] theorem State.plotCfg_modGraph (s : State) (h : Nat) (f : Graph → Graph) (j : Nat) : (s.modGraph h f).plotCfg j = s.plotCfg j := by
  simp [State.plotCfg]
@[simp] theorem State.plotCfg_modSowing (s : State) (h : Nat) (f : Sowing → Sowing) (j : Nat) : (s.modSowing h f).plotCfg j = s.plotCfg j := by
  simp [State.plotCfg]
@[simp] theorem State.plotCfg_setSowing (s : State) (h : Nat) (f : Sowing) (j : Nat) : (s.setSowing h f).plotCfg j = s.plotCfg j := by
  simp [State.plotCfg]
@[simp] theorem State.plotCfg_setGraph (s : State) (h : Nat) (f : Graph) (j : Nat) : (s.setGraph h f).plotCfg j = s.plotCfg j := by
  simp [State.plotCfg]
@[simp] theorem State.plotCfg_modPlot (s : State) (p : Nat) (f : Plot → Plot) (j : Nat) : (s.modPlot p f).plotCfg j = s.plotCfg j := by
  simp [State.plotCfg]
@[simp] theorem State.plotCfg_modSegment (s : State) (n g : Nat) (f : Seg → Seg) (j : Nat) : (s.modSegment n g f).plotCfg j = s.plotCfg j := by
  simp [State.plotCfg]
@[simp] theorem State.plotCfg_modChannel (s : State) (c : Nat) (f : Channel → Channel) (j : Nat) : (s.modChannel c f).plotCfg j = s.plotCfg j := by
  simp [State.plotCfg]
@[simp] theorem State.plotCfg_modFaultQ (s : State) (n : Nat) (f : FaultQ → FaultQ) (j : Nat) : (s.modFaultQ n f).plotCfg j = s.plotCfg j := by
  simp [State.plotCfg]
@[simp] theorem State.plotCfg_setDomain (s : State) (c : Nat) (d : Domain) (j : Nat) : (s.setDomain c d).plotCfg j = s.plotCfg j := by
  simp [State.plotCfg]

@[simp] theorem State.engCfg_respond (s : State) (c : BitVec 2) (v : W64) (j : Nat) : (s.respond c v).engCfg j = s.engCfg j := by
  simp [State.engCfg]
@[simp] theorem State.engCfg_capture (s : State) (ev : Event) (j : Nat) : (s.capture ev).engCfg j = s.engCfg j := by
  simp [State.engCfg]
@[simp] theorem State.engCfg_issue (s : State) (x : Xfer) (j : Nat) : (s.issue x).engCfg j = s.engCfg j := by
  simp [State.engCfg]
@[simp] theorem State.engCfg_notify (s : State) (c : Nat) (rose : Bool) (j : Nat) : (s.notify c rose).engCfg j = s.engCfg j := by
  simp [State.engCfg]
@[simp] theorem State.engCfg_ringHost (s : State) (c : Nat) (b : BitVec 32) (j : Nat) : (s.ringHost c b).engCfg j = s.engCfg j := by
  simp [State.engCfg]
@[simp] theorem State.engCfg_errlog (s : State) (r : Report) (j : Nat) : (s.errlog r).engCfg j = s.engCfg j := by
  simp [State.engCfg]
@[simp] theorem State.engCfg_report (s : State) (n : Nat) (r : Report) (j : Nat) : (s.report n r).engCfg j = s.engCfg j := by
  simp [State.engCfg]
@[simp] theorem State.engCfg_refuse (s : State) (req : Req) (o : Nat) (j : Nat) : (s.refuse req o).engCfg j = s.engCfg j := by
  simp [State.engCfg]
@[simp] theorem State.engCfg_bump (s : State) (i n : Nat) (j : Nat) : (s.bump i n).engCfg j = s.engCfg j := by
  simp [State.engCfg]
@[simp] theorem State.engCfg_bumpEng (s : State) (e k n : Nat) (j : Nat) : (s.bumpEng e k n).engCfg j = s.engCfg j := by
  simp [State.engCfg]
@[simp] theorem State.engCfg_bumpPlot (s : State) (p k n : Nat) (j : Nat) : (s.bumpPlot p k n).engCfg j = s.engCfg j := by
  simp [State.engCfg]
@[simp] theorem State.engCfg_bumpFn (s : State) (n k m : Nat) (j : Nat) : (s.bumpFn n k m).engCfg j = s.engCfg j := by
  simp [State.engCfg]
@[simp] theorem State.engCfg_bumpChip (s : State) (c n : Nat) (j : Nat) : (s.bumpChip c n).engCfg j = s.engCfg j := by
  simp [State.engCfg]
@[simp] theorem State.engCfg_setEngine (s : State) (e : Nat) (v : Engine) (j : Nat) : (s.setEngine e v).engCfg j = s.engCfg j := by
  simp [State.engCfg]
@[simp] theorem State.engCfg_modEngine (s : State) (e : Nat) (f : Engine → Engine) (j : Nat) : (s.modEngine e f).engCfg j = s.engCfg j := by
  simp [State.engCfg]
@[simp] theorem State.engCfg_modQueue (s : State) (q : Nat) (f : Queue → Queue) (j : Nat) : (s.modQueue q f).engCfg j = s.engCfg j := by
  simp [State.engCfg]
@[simp] theorem State.engCfg_setQueue (s : State) (q : Nat) (v : Queue) (j : Nat) : (s.setQueue q v).engCfg j = s.engCfg j := by
  simp [State.engCfg]
@[simp] theorem State.engCfg_modGraph (s : State) (h : Nat) (f : Graph → Graph) (j : Nat) : (s.modGraph h f).engCfg j = s.engCfg j := by
  simp [State.engCfg]
@[simp] theorem State.engCfg_modSowing (s : State) (h : Nat) (f : Sowing → Sowing) (j : Nat) : (s.modSowing h f).engCfg j = s.engCfg j := by
  simp [State.engCfg]
@[simp] theorem State.engCfg_setSowing (s : State) (h : Nat) (f : Sowing) (j : Nat) : (s.setSowing h f).engCfg j = s.engCfg j := by
  simp [State.engCfg]
@[simp] theorem State.engCfg_setGraph (s : State) (h : Nat) (f : Graph) (j : Nat) : (s.setGraph h f).engCfg j = s.engCfg j := by
  simp [State.engCfg]
@[simp] theorem State.engCfg_modPlot (s : State) (p : Nat) (f : Plot → Plot) (j : Nat) : (s.modPlot p f).engCfg j = s.engCfg j := by
  simp [State.engCfg]
@[simp] theorem State.engCfg_modSegment (s : State) (n g : Nat) (f : Seg → Seg) (j : Nat) : (s.modSegment n g f).engCfg j = s.engCfg j := by
  simp [State.engCfg]
@[simp] theorem State.engCfg_modChannel (s : State) (c : Nat) (f : Channel → Channel) (j : Nat) : (s.modChannel c f).engCfg j = s.engCfg j := by
  simp [State.engCfg]
@[simp] theorem State.engCfg_modFaultQ (s : State) (n : Nat) (f : FaultQ → FaultQ) (j : Nat) : (s.modFaultQ n f).engCfg j = s.engCfg j := by
  simp [State.engCfg]
@[simp] theorem State.engCfg_setDomain (s : State) (c : Nat) (d : Domain) (j : Nat) : (s.setDomain c d).engCfg j = s.engCfg j := by
  simp [State.engCfg]

end Sys2Proof.Machine
end

