-- ==== Sys2Proof/Laws/Queues.lean ====
section
/-! SUPPORT. What the retirement of a queue's head command does, and what it leaves alone. -/
namespace Sys2Proof.Machine

@[simp] theorem State.writeResult_pending (s : State) (q : Nat) (p : BitVec 512) (st : Nat) (v : W64) : (s.writeResult q p st v).pending = s.pending := by
  unfold State.writeResult; (repeat' split) <;> simp
@[simp] theorem State.writeResult_now (s : State) (q : Nat) (p : BitVec 512) (st : Nat) (v : W64) : (s.writeResult q p st v).now = s.now := by
  unfold State.writeResult; (repeat' split) <;> simp
@[simp] theorem State.writeResult_free (s : State) (q : Nat) (p : BitVec 512) (st : Nat) (v : W64) : (s.writeResult q p st v).free = s.free := by
  unfold State.writeResult; (repeat' split) <;> simp
@[simp] theorem State.writeResult_su (s : State) (q : Nat) (p : BitVec 512) (st : Nat) (v : W64) : (s.writeResult q p st v).su = s.su := by
  unfold State.writeResult; (repeat' split) <;> simp
@[simp] theorem State.writeResult_pins (s : State) (q : Nat) (p : BitVec 512) (st : Nat) (v : W64) : (s.writeResult q p st v).pins = s.pins := by
  unfold State.writeResult; (repeat' split) <;> simp
@[simp] theorem State.writeResult_mt (s : State) (q : Nat) (p : BitVec 512) (st : Nat) (v : W64) : (s.writeResult q p st v).mt = s.mt := by
  unfold State.writeResult; (repeat' split) <;> simp
@[simp] theorem State.writeResult_fm (s : State) (q : Nat) (p : BitVec 512) (st : Nat) (v : W64) : (s.writeResult q p st v).fm = s.fm := by
  unfold State.writeResult; (repeat' split) <;> simp
@[simp] theorem State.writeResult_gs (s : State) (q : Nat) (p : BitVec 512) (st : Nat) (v : W64) : (s.writeResult q p st v).gs = s.gs := by
  unfold State.writeResult; (repeat' split) <;> simp
@[simp] theorem State.writeResult_sow (s : State) (q : Nat) (p : BitVec 512) (st : Nat) (v : W64) : (s.writeResult q p st v).sow = s.sow := by
  unfold State.writeResult; (repeat' split) <;> simp
@[simp] theorem State.writeResult_de (s : State) (q : Nat) (p : BitVec 512) (st : Nat) (v : W64) : (s.writeResult q p st v).de = s.de := by
  unfold State.writeResult; (repeat' split) <;> simp
@[simp] theorem State.writeResult_rla (s : State) (q : Nat) (p : BitVec 512) (st : Nat) (v : W64) : (s.writeResult q p st v).rla = s.rla := by
  unfold State.writeResult; (repeat' split) <;> simp
@[simp] theorem State.writeResult_eng (s : State) (q : Nat) (p : BitVec 512) (st : Nat) (v : W64) : (s.writeResult q p st v).eng = s.eng := by
  unfold State.writeResult; (repeat' split) <;> simp
@[simp] theorem State.writeResult_dcs (s : State) (q : Nat) (p : BitVec 512) (st : Nat) (v : W64) : (s.writeResult q p st v).dcs = s.dcs := by
  unfold State.writeResult; (repeat' split) <;> simp
@[simp] theorem State.writeResult_hcf (s : State) (q : Nat) (p : BitVec 512) (st : Nat) (v : W64) : (s.writeResult q p st v).hcf = s.hcf := by
  unfold State.writeResult; (repeat' split) <;> simp
@[simp] theorem State.writeResult_sm (s : State) (q : Nat) (p : BitVec 512) (st : Nat) (v : W64) : (s.writeResult q p st v).sm = s.sm := by
  unfold State.writeResult; (repeat' split) <;> simp
@[simp] theorem State.writeResult_cc (s : State) (q : Nat) (p : BitVec 512) (st : Nat) (v : W64) : (s.writeResult q p st v).cc = s.cc := by
  unfold State.writeResult; (repeat' split) <;> simp
@[simp] theorem State.writeResult_mrs (s : State) (q : Nat) (p : BitVec 512) (st : Nat) (v : W64) : (s.writeResult q p st v).mrs = s.mrs := by
  unfold State.writeResult; (repeat' split) <;> simp
@[simp] theorem State.writeResult_link (s : State) (q : Nat) (p : BitVec 512) (st : Nat) (v : W64) : (s.writeResult q p st v).link = s.link := by
  unfold State.writeResult; (repeat' split) <;> simp
@[simp] theorem State.writeResult_shf (s : State) (q : Nat) (p : BitVec 512) (st : Nat) (v : W64) : (s.writeResult q p st v).shf = s.shf := by
  unfold State.writeResult; (repeat' split) <;> simp
@[simp] theorem State.writeResult_stu (s : State) (q : Nat) (p : BitVec 512) (st : Nat) (v : W64) : (s.writeResult q p st v).stu = s.stu := by
  unfold State.writeResult; (repeat' split) <;> simp
@[simp] theorem State.writeResult_tcs (s : State) (q : Nat) (p : BitVec 512) (st : Nat) (v : W64) : (s.writeResult q p st v).tcs = s.tcs := by
  unfold State.writeResult; (repeat' split) <;> simp
@[simp] theorem State.writeResult_yoke (s : State) (q : Nat) (p : BitVec 512) (st : Nat) (v : W64) : (s.writeResult q p st v).yoke = s.yoke := by
  unfold State.writeResult; (repeat' split) <;> simp
@[simp] theorem State.writeResult_ccx (s : State) (q : Nat) (p : BitVec 512) (st : Nat) (v : W64) : (s.writeResult q p st v).ccx = s.ccx := by
  unfold State.writeResult; (repeat' split) <;> simp
@[simp] theorem State.writeResult_nv (s : State) (q : Nat) (p : BitVec 512) (st : Nat) (v : W64) : (s.writeResult q p st v).nv = s.nv := by
  unfold State.writeResult; (repeat' split) <;> simp
@[simp] theorem State.writeResult_pru_segs (s : State) (q : Nat) (p : BitVec 512) (st : Nat) (v : W64) : (s.writeResult q p st v).pru.segs = s.pru.segs := by
  unfold State.writeResult; (repeat' split) <;> simp
@[simp] theorem State.writeResult_ftt_fatal (s : State) (q : Nat) (p : BitVec 512) (st : Nat) (v : W64) : (s.writeResult q p st v).ftt.fatal = s.ftt.fatal := by
  unfold State.writeResult; (repeat' split) <;> simp
@[simp] theorem State.writeResult_ftt_fatalInfo (s : State) (q : Nat) (p : BitVec 512) (st : Nat) (v : W64) : (s.writeResult q p st v).ftt.fatalInfo = s.ftt.fatalInfo := by
  unfold State.writeResult; (repeat' split) <;> simp
@[simp] theorem State.writeResult_ftt_resets (s : State) (q : Nat) (p : BitVec 512) (st : Nat) (v : W64) : (s.writeResult q p st v).ftt.resets = s.ftt.resets := by
  unfold State.writeResult; (repeat' split) <;> simp
@[simp] theorem State.writeResult_ftt_banks (s : State) (q : Nat) (p : BitVec 512) (st : Nat) (v : W64) : (s.writeResult q p st v).ftt.banks = s.ftt.banks := by
  unfold State.writeResult; (repeat' split) <;> simp
@[simp] theorem State.writeResult_ftt_entries (s : State) (q : Nat) (p : BitVec 512) (st : Nat) (v : W64) : (s.writeResult q p st v).ftt.entries = s.ftt.entries := by
  unfold State.writeResult; (repeat' split) <;> simp

@[simp] theorem State.takeHalt_pending (s : State) (q : Nat) (d : HaltDue) : (s.takeHalt q d).pending = s.pending := by
  unfold State.takeHalt; dsimp only; split <;> simp
@[simp] theorem State.takeHalt_now (s : State) (q : Nat) (d : HaltDue) : (s.takeHalt q d).now = s.now := by
  unfold State.takeHalt; dsimp only; split <;> simp
@[simp] theorem State.takeHalt_free (s : State) (q : Nat) (d : HaltDue) : (s.takeHalt q d).free = s.free := by
  unfold State.takeHalt; dsimp only; split <;> simp
@[simp] theorem State.takeHalt_su (s : State) (q : Nat) (d : HaltDue) : (s.takeHalt q d).su = s.su := by
  unfold State.takeHalt; dsimp only; split <;> simp
@[simp] theorem State.takeHalt_pins (s : State) (q : Nat) (d : HaltDue) : (s.takeHalt q d).pins = s.pins := by
  unfold State.takeHalt; dsimp only; split <;> simp
@[simp] theorem State.takeHalt_mt (s : State) (q : Nat) (d : HaltDue) : (s.takeHalt q d).mt = s.mt := by
  unfold State.takeHalt; dsimp only; split <;> simp
@[simp] theorem State.takeHalt_fm (s : State) (q : Nat) (d : HaltDue) : (s.takeHalt q d).fm = s.fm := by
  unfold State.takeHalt; dsimp only; split <;> simp
@[simp] theorem State.takeHalt_gs (s : State) (q : Nat) (d : HaltDue) : (s.takeHalt q d).gs = s.gs := by
  unfold State.takeHalt; dsimp only; split <;> simp
@[simp] theorem State.takeHalt_sow (s : State) (q : Nat) (d : HaltDue) : (s.takeHalt q d).sow = s.sow := by
  unfold State.takeHalt; dsimp only; split <;> simp
@[simp] theorem State.takeHalt_de (s : State) (q : Nat) (d : HaltDue) : (s.takeHalt q d).de = s.de := by
  unfold State.takeHalt; dsimp only; split <;> simp
@[simp] theorem State.takeHalt_rla (s : State) (q : Nat) (d : HaltDue) : (s.takeHalt q d).rla = s.rla := by
  unfold State.takeHalt; dsimp only; split <;> simp
@[simp] theorem State.takeHalt_eng (s : State) (q : Nat) (d : HaltDue) : (s.takeHalt q d).eng = s.eng := by
  unfold State.takeHalt; dsimp only; split <;> simp
@[simp] theorem State.takeHalt_dcs (s : State) (q : Nat) (d : HaltDue) : (s.takeHalt q d).dcs = s.dcs := by
  unfold State.takeHalt; dsimp only; split <;> simp
@[simp] theorem State.takeHalt_sm (s : State) (q : Nat) (d : HaltDue) : (s.takeHalt q d).sm = s.sm := by
  unfold State.takeHalt; dsimp only; split <;> simp
@[simp] theorem State.takeHalt_cc (s : State) (q : Nat) (d : HaltDue) : (s.takeHalt q d).cc = s.cc := by
  unfold State.takeHalt; dsimp only; split <;> simp
@[simp] theorem State.takeHalt_mrs (s : State) (q : Nat) (d : HaltDue) : (s.takeHalt q d).mrs = s.mrs := by
  unfold State.takeHalt; dsimp only; split <;> simp
@[simp] theorem State.takeHalt_link (s : State) (q : Nat) (d : HaltDue) : (s.takeHalt q d).link = s.link := by
  unfold State.takeHalt; dsimp only; split <;> simp
@[simp] theorem State.takeHalt_shf (s : State) (q : Nat) (d : HaltDue) : (s.takeHalt q d).shf = s.shf := by
  unfold State.takeHalt; dsimp only; split <;> simp
@[simp] theorem State.takeHalt_stu (s : State) (q : Nat) (d : HaltDue) : (s.takeHalt q d).stu = s.stu := by
  unfold State.takeHalt; dsimp only; split <;> simp
@[simp] theorem State.takeHalt_tcs (s : State) (q : Nat) (d : HaltDue) : (s.takeHalt q d).tcs = s.tcs := by
  unfold State.takeHalt; dsimp only; split <;> simp
@[simp] theorem State.takeHalt_yoke (s : State) (q : Nat) (d : HaltDue) : (s.takeHalt q d).yoke = s.yoke := by
  unfold State.takeHalt; dsimp only; split <;> simp
@[simp] theorem State.takeHalt_ccx (s : State) (q : Nat) (d : HaltDue) : (s.takeHalt q d).ccx = s.ccx := by
  unfold State.takeHalt; dsimp only; split <;> simp
@[simp] theorem State.takeHalt_nv (s : State) (q : Nat) (d : HaltDue) : (s.takeHalt q d).nv = s.nv := by
  unfold State.takeHalt; dsimp only; split <;> simp
@[simp] theorem State.takeHalt_pru_segs (s : State) (q : Nat) (d : HaltDue) : (s.takeHalt q d).pru.segs = s.pru.segs := by
  unfold State.takeHalt; dsimp only; split <;> simp
@[simp] theorem State.takeHalt_ftt_fatal (s : State) (q : Nat) (d : HaltDue) : (s.takeHalt q d).ftt.fatal = s.ftt.fatal := by
  unfold State.takeHalt; dsimp only; split <;> simp
@[simp] theorem State.takeHalt_ftt_fatalInfo (s : State) (q : Nat) (d : HaltDue) : (s.takeHalt q d).ftt.fatalInfo = s.ftt.fatalInfo := by
  unfold State.takeHalt; dsimp only; split <;> simp
@[simp] theorem State.takeHalt_ftt_resets (s : State) (q : Nat) (d : HaltDue) : (s.takeHalt q d).ftt.resets = s.ftt.resets := by
  unfold State.takeHalt; dsimp only; split <;> simp
@[simp] theorem State.takeHalt_ftt_banks (s : State) (q : Nat) (d : HaltDue) : (s.takeHalt q d).ftt.banks = s.ftt.banks := by
  unfold State.takeHalt; dsimp only; split <;> simp
@[simp] theorem State.takeHalt_ftt_entries (s : State) (q : Nat) (d : HaltDue) : (s.takeHalt q d).ftt.entries = s.ftt.entries := by
  unfold State.takeHalt; dsimp only; split <;> simp

@[simp] theorem State.serve_pending (s : State) (q : Nat) : (s.serve q).pending = s.pending := rfl
@[simp] theorem State.serve_now (s : State) (q : Nat) : (s.serve q).now = s.now := rfl
@[simp] theorem State.serve_free (s : State) (q : Nat) : (s.serve q).free = s.free := rfl
@[simp] theorem State.serve_su (s : State) (q : Nat) : (s.serve q).su = s.su := rfl
@[simp] theorem State.serve_pins (s : State) (q : Nat) : (s.serve q).pins = s.pins := rfl
@[simp] theorem State.serve_mt (s : State) (q : Nat) : (s.serve q).mt = s.mt := rfl
@[simp] theorem State.serve_mesh (s : State) (q : Nat) : (s.serve q).mesh = s.mesh := rfl
@[simp] theorem State.serve_fm (s : State) (q : Nat) : (s.serve q).fm = s.fm := rfl
@[simp] theorem State.serve_gs (s : State) (q : Nat) : (s.serve q).gs = s.gs := rfl
@[simp] theorem State.serve_sow (s : State) (q : Nat) : (s.serve q).sow = s.sow := rfl
@[simp] theorem State.serve_de (s : State) (q : Nat) : (s.serve q).de = s.de := rfl
@[simp] theorem State.serve_rla (s : State) (q : Nat) : (s.serve q).rla = s.rla := rfl
@[simp] theorem State.serve_eng (s : State) (q : Nat) : (s.serve q).eng = s.eng := rfl
@[simp] theorem State.serve_cc (s : State) (q : Nat) : (s.serve q).cc = s.cc := rfl
@[simp] theorem State.serve_dcs (s : State) (q : Nat) : (s.serve q).dcs = s.dcs := rfl
@[simp] theorem State.serve_sm (s : State) (q : Nat) : (s.serve q).sm = s.sm := rfl
@[simp] theorem State.serve_mrs (s : State) (q : Nat) : (s.serve q).mrs = s.mrs := rfl
@[simp] theorem State.serve_link (s : State) (q : Nat) : (s.serve q).link = s.link := rfl
@[simp] theorem State.serve_shf (s : State) (q : Nat) : (s.serve q).shf = s.shf := rfl
@[simp] theorem State.serve_stu (s : State) (q : Nat) : (s.serve q).stu = s.stu := rfl
@[simp] theorem State.serve_tcs (s : State) (q : Nat) : (s.serve q).tcs = s.tcs := rfl
@[simp] theorem State.serve_yoke (s : State) (q : Nat) : (s.serve q).yoke = s.yoke := rfl
@[simp] theorem State.serve_pru (s : State) (q : Nat) : (s.serve q).pru = s.pru := rfl
@[simp] theorem State.serve_mdu (s : State) (q : Nat) : (s.serve q).mdu = s.mdu := rfl
@[simp] theorem State.serve_ccx (s : State) (q : Nat) : (s.serve q).ccx = s.ccx := rfl
@[simp] theorem State.serve_ftt (s : State) (q : Nat) : (s.serve q).ftt = s.ftt := rfl
@[simp] theorem State.serve_nv (s : State) (q : Nat) : (s.serve q).nv = s.nv := rfl
@[simp] theorem State.serve_tr (s : State) (q : Nat) : (s.serve q).tr = s.tr := rfl
@[simp] theorem State.serve_hv (s : State) (q : Nat) : (s.serve q).hv = s.hv := rfl
@[simp] theorem State.queue_serve (s : State) (q j : Nat) : (s.serve q).queue j = s.queue j := rfl

@[simp] theorem State.haltWith_pending (s : State) (q c : Nat) (w : Option (BitVec 32)) (d : Nat) : (s.haltWith q c w d).pending = s.pending := by
  simp [State.haltWith]
@[simp] theorem State.haltWith_now (s : State) (q c : Nat) (w : Option (BitVec 32)) (d : Nat) : (s.haltWith q c w d).now = s.now := by
  simp [State.haltWith]
@[simp] theorem State.haltWith_free (s : State) (q c : Nat) (w : Option (BitVec 32)) (d : Nat) : (s.haltWith q c w d).free = s.free := by
  simp [State.haltWith]
@[simp] theorem State.haltWith_su (s : State) (q c : Nat) (w : Option (BitVec 32)) (d : Nat) : (s.haltWith q c w d).su = s.su := by
  simp [State.haltWith]
@[simp] theorem State.haltWith_pins (s : State) (q c : Nat) (w : Option (BitVec 32)) (d : Nat) : (s.haltWith q c w d).pins = s.pins := by
  simp [State.haltWith]
@[simp] theorem State.haltWith_mt (s : State) (q c : Nat) (w : Option (BitVec 32)) (d : Nat) : (s.haltWith q c w d).mt = s.mt := by
  simp [State.haltWith]
@[simp] theorem State.haltWith_fm (s : State) (q c : Nat) (w : Option (BitVec 32)) (d : Nat) : (s.haltWith q c w d).fm = s.fm := by
  simp [State.haltWith]
@[simp] theorem State.haltWith_gs (s : State) (q c : Nat) (w : Option (BitVec 32)) (d : Nat) : (s.haltWith q c w d).gs = s.gs := by
  simp [State.haltWith]
@[simp] theorem State.haltWith_sow (s : State) (q c : Nat) (w : Option (BitVec 32)) (d : Nat) : (s.haltWith q c w d).sow = s.sow := by
  simp [State.haltWith]
@[simp] theorem State.haltWith_de (s : State) (q c : Nat) (w : Option (BitVec 32)) (d : Nat) : (s.haltWith q c w d).de = s.de := by
  simp [State.haltWith]
@[simp] theorem State.haltWith_rla (s : State) (q c : Nat) (w : Option (BitVec 32)) (d : Nat) : (s.haltWith q c w d).rla = s.rla := by
  simp [State.haltWith]
@[simp] theorem State.haltWith_eng (s : State) (q c : Nat) (w : Option (BitVec 32)) (d : Nat) : (s.haltWith q c w d).eng = s.eng := by
  simp [State.haltWith]
@[simp] theorem State.haltWith_dcs (s : State) (q c : Nat) (w : Option (BitVec 32)) (d : Nat) : (s.haltWith q c w d).dcs = s.dcs := by
  simp [State.haltWith]
@[simp] theorem State.haltWith_sm (s : State) (q c : Nat) (w : Option (BitVec 32)) (d : Nat) : (s.haltWith q c w d).sm = s.sm := by
  simp [State.haltWith]
@[simp] theorem State.haltWith_cc (s : State) (q c : Nat) (w : Option (BitVec 32)) (d : Nat) : (s.haltWith q c w d).cc = s.cc := by
  simp [State.haltWith]
@[simp] theorem State.haltWith_mrs (s : State) (q c : Nat) (w : Option (BitVec 32)) (d : Nat) : (s.haltWith q c w d).mrs = s.mrs := by
  simp [State.haltWith]
@[simp] theorem State.haltWith_link (s : State) (q c : Nat) (w : Option (BitVec 32)) (d : Nat) : (s.haltWith q c w d).link = s.link := by
  simp [State.haltWith]
@[simp] theorem State.haltWith_shf (s : State) (q c : Nat) (w : Option (BitVec 32)) (d : Nat) : (s.haltWith q c w d).shf = s.shf := by
  simp [State.haltWith]
@[simp] theorem State.haltWith_stu (s : State) (q c : Nat) (w : Option (BitVec 32)) (d : Nat) : (s.haltWith q c w d).stu = s.stu := by
  simp [State.haltWith]
@[simp] theorem State.haltWith_tcs (s : State) (q c : Nat) (w : Option (BitVec 32)) (d : Nat) : (s.haltWith q c w d).tcs = s.tcs := by
  simp [State.haltWith]
@[simp] theorem State.haltWith_yoke (s : State) (q c : Nat) (w : Option (BitVec 32)) (d : Nat) : (s.haltWith q c w d).yoke = s.yoke := by
  simp [State.haltWith]
@[simp] theorem State.haltWith_ccx (s : State) (q c : Nat) (w : Option (BitVec 32)) (d : Nat) : (s.haltWith q c w d).ccx = s.ccx := by
  simp [State.haltWith]
@[simp] theorem State.haltWith_nv (s : State) (q c : Nat) (w : Option (BitVec 32)) (d : Nat) : (s.haltWith q c w d).nv = s.nv := by
  simp [State.haltWith]
@[simp] theorem State.haltWith_pru_segs (s : State) (q c : Nat) (w : Option (BitVec 32)) (d : Nat) : (s.haltWith q c w d).pru.segs = s.pru.segs := by
  simp [State.haltWith]
@[simp] theorem State.haltWith_ftt_fatal (s : State) (q c : Nat) (w : Option (BitVec 32)) (d : Nat) : (s.haltWith q c w d).ftt.fatal = s.ftt.fatal := by
  simp [State.haltWith]
@[simp] theorem State.haltWith_ftt_fatalInfo (s : State) (q c : Nat) (w : Option (BitVec 32)) (d : Nat) : (s.haltWith q c w d).ftt.fatalInfo = s.ftt.fatalInfo := by
  simp [State.haltWith]
@[simp] theorem State.haltWith_ftt_resets (s : State) (q c : Nat) (w : Option (BitVec 32)) (d : Nat) : (s.haltWith q c w d).ftt.resets = s.ftt.resets := by
  simp [State.haltWith]
@[simp] theorem State.haltWith_ftt_banks (s : State) (q c : Nat) (w : Option (BitVec 32)) (d : Nat) : (s.haltWith q c w d).ftt.banks = s.ftt.banks := by
  simp [State.haltWith]
@[simp] theorem State.haltWith_ftt_entries (s : State) (q c : Nat) (w : Option (BitVec 32)) (d : Nat) : (s.haltWith q c w d).ftt.entries = s.ftt.entries := by
  simp [State.haltWith]

@[simp] theorem State.retire_pending (s : State) (q st : Nat) (v : W64) : (s.retire q st v).pending = s.pending := by
  unfold State.retire; dsimp only; (repeat' split) <;> simp
@[simp] theorem State.retire_now (s : State) (q st : Nat) (v : W64) : (s.retire q st v).now = s.now := by
  unfold State.retire; dsimp only; (repeat' split) <;> simp
@[simp] theorem State.retire_free (s : State) (q st : Nat) (v : W64) : (s.retire q st v).free = s.free := by
  unfold State.retire; dsimp only; (repeat' split) <;> simp
@[simp] theorem State.retire_su (s : State) (q st : Nat) (v : W64) : (s.retire q st v).su = s.su := by
  unfold State.retire; dsimp only; (repeat' split) <;> simp
@[simp] theorem State.retire_pins (s : State) (q st : Nat) (v : W64) : (s.retire q st v).pins = s.pins := by
  unfold State.retire; dsimp only; (repeat' split) <;> simp
@[simp] theorem State.retire_mt (s : State) (q st : Nat) (v : W64) : (s.retire q st v).mt = s.mt := by
  unfold State.retire; dsimp only; (repeat' split) <;> simp
@[simp] theorem State.retire_fm (s : State) (q st : Nat) (v : W64) : (s.retire q st v).fm = s.fm := by
  unfold State.retire; dsimp only; (repeat' split) <;> simp
@[simp] theorem State.retire_gs (s : State) (q st : Nat) (v : W64) : (s.retire q st v).gs = s.gs := by
  unfold State.retire; dsimp only; (repeat' split) <;> simp
@[simp] theorem State.retire_sow (s : State) (q st : Nat) (v : W64) : (s.retire q st v).sow = s.sow := by
  unfold State.retire; dsimp only; (repeat' split) <;> simp
@[simp] theorem State.retire_de (s : State) (q st : Nat) (v : W64) : (s.retire q st v).de = s.de := by
  unfold State.retire; dsimp only; (repeat' split) <;> simp
@[simp] theorem State.retire_rla (s : State) (q st : Nat) (v : W64) : (s.retire q st v).rla = s.rla := by
  unfold State.retire; dsimp only; (repeat' split) <;> simp
@[simp] theorem State.retire_eng (s : State) (q st : Nat) (v : W64) : (s.retire q st v).eng = s.eng := by
  unfold State.retire; dsimp only; (repeat' split) <;> simp
@[simp] theorem State.retire_dcs (s : State) (q st : Nat) (v : W64) : (s.retire q st v).dcs = s.dcs := by
  unfold State.retire; dsimp only; (repeat' split) <;> simp
@[simp] theorem State.retire_sm (s : State) (q st : Nat) (v : W64) : (s.retire q st v).sm = s.sm := by
  unfold State.retire; dsimp only; (repeat' split) <;> simp
@[simp] theorem State.retire_cc (s : State) (q st : Nat) (v : W64) : (s.retire q st v).cc = s.cc := by
  unfold State.retire; dsimp only; (repeat' split) <;> simp
@[simp] theorem State.retire_mrs (s : State) (q st : Nat) (v : W64) : (s.retire q st v).mrs = s.mrs := by
  unfold State.retire; dsimp only; (repeat' split) <;> simp
@[simp] theorem State.retire_link (s : State) (q st : Nat) (v : W64) : (s.retire q st v).link = s.link := by
  unfold State.retire; dsimp only; (repeat' split) <;> simp
@[simp] theorem State.retire_shf (s : State) (q st : Nat) (v : W64) : (s.retire q st v).shf = s.shf := by
  unfold State.retire; dsimp only; (repeat' split) <;> simp
@[simp] theorem State.retire_stu (s : State) (q st : Nat) (v : W64) : (s.retire q st v).stu = s.stu := by
  unfold State.retire; dsimp only; (repeat' split) <;> simp
@[simp] theorem State.retire_tcs (s : State) (q st : Nat) (v : W64) : (s.retire q st v).tcs = s.tcs := by
  unfold State.retire; dsimp only; (repeat' split) <;> simp
@[simp] theorem State.retire_yoke (s : State) (q st : Nat) (v : W64) : (s.retire q st v).yoke = s.yoke := by
  unfold State.retire; dsimp only; (repeat' split) <;> simp
@[simp] theorem State.retire_ccx (s : State) (q st : Nat) (v : W64) : (s.retire q st v).ccx = s.ccx := by
  unfold State.retire; dsimp only; (repeat' split) <;> simp
@[simp] theorem State.retire_nv (s : State) (q st : Nat) (v : W64) : (s.retire q st v).nv = s.nv := by
  unfold State.retire; dsimp only; (repeat' split) <;> simp
@[simp] theorem State.retire_pru_segs (s : State) (q st : Nat) (v : W64) : (s.retire q st v).pru.segs = s.pru.segs := by
  unfold State.retire; dsimp only; (repeat' split) <;> simp
@[simp] theorem State.retire_ftt_fatal (s : State) (q st : Nat) (v : W64) : (s.retire q st v).ftt.fatal = s.ftt.fatal := by
  unfold State.retire; dsimp only; (repeat' split) <;> simp
@[simp] theorem State.retire_ftt_fatalInfo (s : State) (q st : Nat) (v : W64) : (s.retire q st v).ftt.fatalInfo = s.ftt.fatalInfo := by
  unfold State.retire; dsimp only; (repeat' split) <;> simp
@[simp] theorem State.retire_ftt_resets (s : State) (q st : Nat) (v : W64) : (s.retire q st v).ftt.resets = s.ftt.resets := by
  unfold State.retire; dsimp only; (repeat' split) <;> simp
@[simp] theorem State.retire_ftt_banks (s : State) (q st : Nat) (v : W64) : (s.retire q st v).ftt.banks = s.ftt.banks := by
  unfold State.retire; dsimp only; (repeat' split) <;> simp
@[simp] theorem State.retire_ftt_entries (s : State) (q st : Nat) (v : W64) : (s.retire q st v).ftt.entries = s.ftt.entries := by
  unfold State.retire; dsimp only; (repeat' split) <;> simp

@[simp] theorem State.stall_pending (s : State) (q w : Nat) (h : Head) : (s.stall q w h).pending = s.pending := by
  rfl
@[simp] theorem State.stall_now (s : State) (q w : Nat) (h : Head) : (s.stall q w h).now = s.now := by
  rfl
@[simp] theorem State.stall_free (s : State) (q w : Nat) (h : Head) : (s.stall q w h).free = s.free := by
  rfl
@[simp] theorem State.stall_su (s : State) (q w : Nat) (h : Head) : (s.stall q w h).su = s.su := by
  rfl
@[simp] theorem State.stall_pins (s : State) (q w : Nat) (h : Head) : (s.stall q w h).pins = s.pins := by
  rfl
@[simp] theorem State.stall_mt (s : State) (q w : Nat) (h : Head) : (s.stall q w h).mt = s.mt := by
  rfl
@[simp] theorem State.stall_mesh (s : State) (q w : Nat) (h : Head) : (s.stall q w h).mesh = s.mesh := by
  rfl
@[simp] theorem State.stall_fm (s : State) (q w : Nat) (h : Head) : (s.stall q w h).fm = s.fm := by
  rfl
@[simp] theorem State.stall_gs (s : State) (q w : Nat) (h : Head) : (s.stall q w h).gs = s.gs := by
  rfl
@[simp] theorem State.stall_sow (s : State) (q w : Nat) (h : Head) : (s.stall q w h).sow = s.sow := by
  rfl
@[simp] theorem State.stall_de (s : State) (q w : Nat) (h : Head) : (s.stall q w h).de = s.de := by
  rfl
@[simp] theorem State.stall_rla (s : State) (q w : Nat) (h : Head) : (s.stall q w h).rla = s.rla := by
  rfl
@[simp] theorem State.stall_eng (s : State) (q w : Nat) (h : Head) : (s.stall q w h).eng = s.eng := by
  rfl
@[simp] theorem State.stall_dcs (s : State) (q w : Nat) (h : Head) : (s.stall q w h).dcs = s.dcs := by
  rfl
@[simp] theorem State.stall_sm (s : State) (q w : Nat) (h : Head) : (s.stall q w h).sm = s.sm := by
  rfl
@[simp] theorem State.stall_cc (s : State) (q w : Nat) (h : Head) : (s.stall q w h).cc = s.cc := by
  rfl
@[simp] theorem State.stall_mrs (s : State) (q w : Nat) (h : Head) : (s.stall q w h).mrs = s.mrs := by
  rfl
@[simp] theorem State.stall_link (s : State) (q w : Nat) (h : Head) : (s.stall q w h).link = s.link := by
  rfl
@[simp] theorem State.stall_shf (s : State) (q w : Nat) (h : Head) : (s.stall q w h).shf = s.shf := by
  rfl
@[simp] theorem State.stall_stu (s : State) (q w : Nat) (h : Head) : (s.stall q w h).stu = s.stu := by
  rfl
@[simp] theorem State.stall_tcs (s : State) (q w : Nat) (h : Head) : (s.stall q w h).tcs = s.tcs := by
  rfl
@[simp] theorem State.stall_yoke (s : State) (q w : Nat) (h : Head) : (s.stall q w h).yoke = s.yoke := by
  rfl
@[simp] theorem State.stall_pru (s : State) (q w : Nat) (h : Head) : (s.stall q w h).pru = s.pru := by
  rfl
@[simp] theorem State.stall_mdu (s : State) (q w : Nat) (h : Head) : (s.stall q w h).mdu = s.mdu := by
  rfl
@[simp] theorem State.stall_ccx (s : State) (q w : Nat) (h : Head) : (s.stall q w h).ccx = s.ccx := by
  rfl
@[simp] theorem State.stall_ftt (s : State) (q w : Nat) (h : Head) : (s.stall q w h).ftt = s.ftt := by
  rfl
@[simp] theorem State.stall_nv (s : State) (q w : Nat) (h : Head) : (s.stall q w h).nv = s.nv := by
  rfl
@[simp] theorem State.stall_tr (s : State) (q w : Nat) (h : Head) : (s.stall q w h).tr = s.tr := by
  rfl
@[simp] theorem State.stall_hv (s : State) (q w : Nat) (h : Head) : (s.stall q w h).hv = s.hv := by
  rfl

@[simp] theorem State.queue_writeResult (s : State) (q : Nat) (p : BitVec 512) (st : Nat) (v : W64) (j : Nat) :
    (s.writeResult q p st v).queue j = s.queue j := by simp [State.queue]

/-- A status that does not halt the queue retires its head: the head moves on, and the queue is IDLE, RUNNING or held
(R202, R203, R206). -/
theorem State.queue_retire {s : State} {q st : Nat} {p : BitVec 512} (v : W64) (hp : s.headPacket? q = some p)
    (hn : (haltsQueue st || (halterr p && st != 0)) = false) (ha : (s.queue q).haltAfter = none) :
    (s.retire q st v).queue q = ((s.queue q).advance).settle s.now := by
  unfold State.retire
  simp only [hp, hn, Bool.false_eq_true, if_false, State.queue_writeResult, ha]
  split <;> simp

theorem State.queue_retire_of_ne {s : State} {q j : Nat} (st : Nat) (v : W64) (h : j ≠ q) :
    (s.retire q st v).queue j = s.queue j := by
  unfold State.retire State.haltWith State.takeHalt
  dsimp only
  repeat' split
  all_goals simp [State.queue_modQueue_of_ne _ _ h]

/-- A status that halts the queue leaves its head where it is, and the queue is HALTED with it (R197, R203). -/
theorem State.queue_retire_halts {s : State} {q st : Nat} {p : BitVec 512} (v : W64) (hp : s.headPacket? q = some p)
    (hn : (haltsQueue st || (halterr p && st != 0)) = true) (ha : (s.queue q).haltAfter = none) :
    (s.retire q st v).queue q = (s.queue q).halted st false s.now := by
  unfold State.retire State.haltWith State.takeHalt
  simp [hp, hn, ha]

end Sys2Proof.Machine
end

