-- ==== Sys2Proof/Laws/Reports.lean ====
section
/-! SUPPORT. What a transfer with no plot, a notification, a report and a retirement leave alone beyond Laws.Ops and
Laws.Queues: the plots' buckets and, where no counter moves, the harvest counters; where a report's record goes. -/
namespace Sys2Proof.Machine

@[simp] theorem State.issue_make_pru (s : State) (u : Purpose) (fn qos : Nat) (w : Bool) (a b : Nat) (d : Words)
    (g : Option SegUse) : (s.issue (Xfer.make u fn qos w a b d g none)).pru = s.pru := by
  unfold State.issue State.launchXfer Xfer.make; split <;> rfl
@[simp] theorem State.issue_make_hv (s : State) (u : Purpose) (fn qos : Nat) (w : Bool) (a b : Nat) (d : Words)
    (g : Option SegUse) : (s.issue (Xfer.make u fn qos w a b d g none)).hv = s.hv := by
  unfold State.issue State.launchXfer Xfer.make; split <;> rfl

@[simp] theorem State.notifyWrite_pru (s : State) (c : Nat) : (s.notifyWrite c).pru = s.pru := by
  unfold State.notifyWrite; dsimp only; split <;> (try split) <;> simp
@[simp] theorem State.notifyWrite_hv (s : State) (c : Nat) : (s.notifyWrite c).hv = s.hv := by
  unfold State.notifyWrite; dsimp only; split <;> (try split) <;> simp
@[simp] theorem State.notify_pru (s : State) (c : Nat) (rose : Bool) : (s.notify c rose).pru = s.pru := by
  unfold State.notify; dsimp only; (repeat' split) <;> simp
@[simp] theorem State.notify_hv (s : State) (c : Nat) (rose : Bool) : (s.notify c rose).hv = s.hv := by
  unfold State.notify; dsimp only; (repeat' split) <;> simp
@[simp] theorem State.ringHost_pru (s : State) (c : Nat) (b : BitVec 32) : (s.ringHost c b).pru = s.pru := by
  simp [State.ringHost]
@[simp] theorem State.ringHost_hv (s : State) (c : Nat) (b : BitVec 32) : (s.ringHost c b).hv = s.hv := by
  simp [State.ringHost]
@[simp] theorem State.errlog_pru (s : State) (r : Report) : (s.errlog r).pru = s.pru := by simp [State.errlog]
@[simp] theorem State.report_pru (s : State) (n : Nat) (r : Report) : (s.report n r).pru = s.pru := by
  unfold State.report; dsimp only; split <;> simp
@[simp] theorem State.reportPair_pru (s : State) (n : Nat) (a b : Report) : (s.reportPair n a b).pru = s.pru := by
  simp [State.reportPair]
@[simp] theorem State.refuse_pru (s : State) (req : Req) (o : Nat) : (s.refuse req o).pru = s.pru := by
  unfold State.refuse; dsimp only; split <;> simp
@[simp] theorem State.writeResult_pru (s : State) (q : Nat) (p : BitVec 512) (st : Nat) (v : W64) :
    (s.writeResult q p st v).pru = s.pru := by
  unfold State.writeResult; (repeat' split) <;> simp
@[simp] theorem State.takeHalt_pru (s : State) (q : Nat) (d : HaltDue) : (s.takeHalt q d).pru = s.pru := by
  unfold State.takeHalt; dsimp only; split <;> simp
@[simp] theorem State.haltWith_pru (s : State) (q c : Nat) (w : Option (BitVec 32)) (d : Nat) :
    (s.haltWith q c w d).pru = s.pru := by simp [State.haltWith]
@[simp] theorem State.retire_pru (s : State) (q st : Nat) (v : W64) : (s.retire q st v).pru = s.pru := by
  unfold State.retire; dsimp only; (repeat' split) <;> simp

/-! ### The fault queue after a report -/

/-- The function's fault queue takes the report, whatever else rings and counts for it (R401, R402). -/
theorem State.faultQ_report (s : State) (n : Nat) (r : Report) :
    (s.report n r).faultQ n = (s.faultQ n).offer 64 31 { r with fn := some n } [s.recordOf { r with fn := some n }]
      s.dlyNow s.now (r.code == 0x30A) := by
  unfold State.report State.faultQ
  dsimp only
  split <;> simp [State.modFaultQ]

/-- A report that finds room, and its code quiet, in a queue with nothing queued in this sc, ends the list (R401). -/
theorem FaultQ.offer_recs {q : FaultQ} {cap n now : Nat} {r : Report} (rec : BitVec 256) (time : BitVec 40) (force : Bool)
    (h : q.recs.length + 1 ≤ cap) (hq : q.quiet r.code now = true) (hf : q.freshAt ≠ now) :
    (q.offer cap n r [rec] time now force).recs = q.recs ++ [rec] := by
  simp [FaultQ.offer, h, hq, FaultQ.enqueue, hf]

end Sys2Proof.Machine
end

