-- ==== Sys2Proof/Laws/Semaphores.lean ====
section
/-! SUPPORT. What an operation on a semaphore does when nobody waits on it, and what waking a waiter leaves alone. -/
namespace Sys2Proof.Machine

/-- With nobody waiting on the semaphore the pass changes nothing. -/
theorem semPass_none {m : Nat} {l : List SemWait} (h : ∀ w ∈ l, w.sem ≠ m) (v : BitVec 32) (b : Bool) :
    semPass m l v b = (l, [], v) := by
  induction l generalizing v b with
  | nil => rfl
  | cons w r ih => simp [semPass, h w (by simp), ih (fun x hx => h x (by simp [hx]))]

theorem State.acquireWaits_none {s : State} {m : Nat} (h : ∀ w ∈ s.sm.waiters, w.sem ≠ m) :
    s.acquireWaits m = false := by
  simp only [State.acquireWaits, List.any_eq_false, Bool.and_eq_true, beq_iff_eq, not_and]
  exact fun w hw h2 => absurd h2 (h w hw)

@[simp] theorem State.semVal_setSem (s : State) (m : Nat) (v : BitVec 32) : (s.setSem m v).semVal m = v := by
  simp [State.semVal, State.setSem]

theorem State.semVal_setSem_of_ne (s : State) {k m : Nat} (v : BitVec 32) (h : k ≠ m) :
    (s.setSem m v).semVal k = s.semVal k := by
  simp [State.semVal, State.setSem, Tab.look_put_of_ne _ _ _ h]

/-- An operation that changes nothing only counts. -/
theorem State.semOp_same {s : State} {m op : Nat} {v0 v1 : BitVec 32}
    (h : (semEffect op (s.semVal m) v0 v1 (s.acquireWaits m)).2 = s.semVal m) :
    s.semOp m op v0 v1 = ((semEffect op (s.semVal m) v0 v1 (s.acquireWaits m)).1, s.bumpChip 2 1) := by
  unfold State.semOp
  dsimp only
  rw [if_pos h]

/-- An operation on a semaphore nobody waits on writes its new value, and counts. -/
theorem State.semOp_alone {s : State} {m op : Nat} {v0 v1 : BitVec 32} (h : ∀ w ∈ s.sm.waiters, w.sem ≠ m) :
    ∃ vals, s.semOp m op v0 v1
        = ((semEffect op (s.semVal m) v0 v1 false).1, { s.bumpChip 2 1 with sm := { s.sm with vals := vals } })
      ∧ vals.look 0 m = (semEffect op (s.semVal m) v0 v1 false).2
      ∧ ∀ k, k ≠ m → vals.look 0 k = s.semVal k := by
  by_cases hn : (semEffect op (s.semVal m) v0 v1 false).2 = s.semVal m
  · refine ⟨s.sm.vals, ?_, hn.symm, fun k _ => rfl⟩
    rw [State.semOp_same (by rw [State.acquireWaits_none h]; exact hn), State.acquireWaits_none h]
    rfl
  · refine ⟨(s.sm.vals.put 0 m (semEffect op (s.semVal m) v0 v1 false).2).put 0 m
        (semEffect op (s.semVal m) v0 v1 false).2, ?_, by simp, ?_⟩
    · unfold State.semOp
      rw [State.acquireWaits_none h]
      dsimp only
      rw [if_neg hn]
      unfold State.semEvaluate
      have e : ∀ v b, semPass m ((s.bumpChip 2 1).setSem m (semEffect op (s.semVal m) v0 v1 false).2).sm.waiters v b
          = (s.sm.waiters, [], v) := fun v b => semPass_none h v b
      rw [e, State.semVal_setSem]
      rfl
    · intro k hk
      rw [Tab.look_put_of_ne _ _ _ hk, Tab.look_put_of_ne _ _ _ hk]; rfl

/-! ### Waking -/

@[simp] theorem State.enqueueStart_sm (s : State) (x : Start) : (s.enqueueStart x).sm = s.sm := rfl
@[simp] theorem State.requestWakeWord_sm (s : State) (e : Nat) : (s.requestWakeWord e).sm = s.sm := by
  unfold State.requestWakeWord State.wakeWrite State.countStart; (repeat' split) <;>
    simp [State.chargeReserve, State.chargeShared]
@[simp] theorem State.requestWakeWord_hcf (s : State) (e : Nat) : (s.requestWakeWord e).hcf = s.hcf := by
  unfold State.requestWakeWord State.wakeWrite State.countStart; (repeat' split) <;>
    simp [State.chargeReserve, State.chargeShared, State.enqueueStart]
@[simp] theorem State.requestWakeWord_now (s : State) (e : Nat) : (s.requestWakeWord e).now = s.now := by
  unfold State.requestWakeWord State.wakeWrite State.countStart; (repeat' split) <;>
    simp [State.chargeReserve, State.chargeShared, State.enqueueStart]
@[simp] theorem State.requestWakeWord_ccx (s : State) (e : Nat) : (s.requestWakeWord e).ccx = s.ccx := by
  unfold State.requestWakeWord State.wakeWrite State.countStart; (repeat' split) <;>
    simp [State.chargeReserve, State.chargeShared, State.enqueueStart]
@[simp] theorem State.endEngWait_sm (s : State) (e : Nat) (v : BitVec 32) (st : Nat) (wake : Bool) :
    (s.endEngWait e v st wake).sm = s.sm := by
  unfold State.endEngWait State.setEres; (repeat' split) <;> simp
@[simp] theorem State.endEngWait_hcf (s : State) (e : Nat) (v : BitVec 32) (st : Nat) (wake : Bool) :
    (s.endEngWait e v st wake).hcf = s.hcf := by
  unfold State.endEngWait State.setEres; (repeat' split) <;> simp
@[simp] theorem State.endEngWait_now (s : State) (e : Nat) (v : BitVec 32) (st : Nat) (wake : Bool) :
    (s.endEngWait e v st wake).now = s.now := by
  unfold State.endEngWait State.setEres; (repeat' split) <;> simp
@[simp] theorem State.endEngWait_ccx (s : State) (e : Nat) (v : BitVec 32) (st : Nat) (wake : Bool) :
    (s.endEngWait e v st wake).ccx = s.ccx := by
  unfold State.endEngWait State.setEres; (repeat' split) <;> simp
@[simp] theorem State.wakeWaiter_sm (s : State) (w : SemWait) (v : BitVec 32) : (s.wakeWaiter w v).sm = s.sm := by
  unfold State.wakeWaiter; split <;> simp
@[simp] theorem State.wakeWaiter_now (s : State) (w : SemWait) (v : BitVec 32) : (s.wakeWaiter w v).now = s.now := by
  unfold State.wakeWaiter; split <;> simp
@[simp] theorem State.wakeWaiter_ccx (s : State) (w : SemWait) (v : BitVec 32) : (s.wakeWaiter w v).ccx = s.ccx := by
  unfold State.wakeWaiter; split <;> simp

/-- Waking any waiters leaves the semaphore memory alone. -/
@[simp] theorem State.foldl_wakeWaiter_sm (l : List (SemWait × BitVec 32)) (s : State) :
    (l.foldl (fun t wx => t.wakeWaiter wx.1 wx.2) s).sm = s.sm := by
  induction l generalizing s with
  | nil => rfl
  | cons x r ih => simp [ih]

/-- An evaluation leaves the waiters and the value of the pass (R233). -/
theorem State.semEvaluate_sm (s : State) (m : Nat) :
    (s.semEvaluate m).sm = { s.sm with
      vals := s.sm.vals.put 0 m (semPass m s.sm.waiters (s.semVal m) false).2.2
      waiters := (semPass m s.sm.waiters (s.semVal m) false).1 } := by
  unfold State.semEvaluate
  simp [State.setSem]

end Sys2Proof.Machine
end

