-- ==== Sys2Proof/Laws/Claims.lean ====
section
/-! SUPPORT. The terms of Safety over the shared operations: frames that compose, what a queue's head command does once
it is taken, and that an issued transfer is asked for. -/
namespace Sys2Proof.Machine

theorem State.only_refl (s : State) (ps : List Part) : s.only s ps := by
  intro p _; cases p <;> rfl

theorem State.only_trans {s t u : State} {ps : List Part} (h : s.only t ps) (k : t.only u ps) : s.only u ps := by
  intro p hp
  have a := h p hp
  have b := k p hp
  cases p <;> exact b.trans a

theorem State.only_mono {s t : State} {ps qs : List Part} (h : s.only t ps) (k : ∀ p ∈ ps, p ∈ qs) : s.only t qs :=
  fun p hp => h p fun hq => hp (k p hq)

/-- The queue's turn moves nothing that validation reads. -/
@[simp] theorem State.validate_serve (s : State) (q r : Nat) (p : BitVec 512) :
    (s.serve q).validate r p = s.validate r p := by
  have d : ∀ l, (s.serve q).derefStatus r l = s.derefStatus r l := by
    intro l
    induction l with
    | nil => rfl
    | cons x l ih =>
      unfold State.derefStatus
      rw [ih]
      rfl
  unfold State.validate
  rw [d]
  rfl

/-- The queue that is served next has an executable head (R207). -/
theorem State.executable_of_nextServed {s : State} {q : Nat} (h : s.nextServed = some q) : s.executable q = true := by
  unfold State.nextServed at h
  dsimp only at h
  split at h
  · next x hx =>
    have m := List.mem_of_find?_eq_some hx
    cases h
    exact (List.mem_filter.mp m).2
  · exact (List.mem_filter.mp (List.mem_of_head? h)).2

/-- It is RUNNING with nothing under way, and its function is not in reset (R205, R414). -/
theorem State.ready_of_nextServed {s : State} {q : Nat} (h : s.nextServed = some q) :
    (s.queue q).ready = true ∧ (s.ftt.resets.look? (fnOfQueue q)).isNone = true := by
  have e := State.executable_of_nextServed h
  unfold State.executable at e
  simp only [Bool.and_eq_true] at e
  exact e.1

/-- A head packet whose turn has come has its effect (R205, R207, R211). -/
theorem State.command_of_heads {s : State} {q : Nat} {p : BitVec 512} {mine : BitVec 512 → Bool} (h : s.heads q p)
    (f : BitVec 512 → State → State) (hm : mine p = true) : s.command q mine f = .next (f p (s.serve q)) := by
  obtain ⟨a, b, c, d, e⟩ := h
  simp [State.command, b, State.when, a, c, d, e, hm]

/-- A step whose condition holds happens while the block is alive. -/
theorem State.when_true {s : State} {c : Bool} {t : State} (hc : c = true) (ha : s.alive = true) :
    s.when c t = .next t := by simp [State.when, hc, ha]

/-- An issued transfer is asked for, whether it goes out or waits. -/
theorem State.asks_issue {s s0 : State} (u : Purpose) (fn qos : Nat) (w : Bool) (a b : Nat) (d : Words) (g : Option SegUse) (pl : Option Nat)
    (h : s0.mesh = s.mesh) : s.asks (s0.issue (Xfer.make u fn qos w a b d g pl)) u fn w a b d := by
  unfold State.issue
  split
  · refine ⟨{ Xfer.make u fn qos w a b d g pl with id := s0.freeXferId, at' := s0.now }, rfl, rfl, rfl, rfl, rfl, rfl, .inl ?_⟩
    unfold State.launchXfer
    dsimp only
    cases pl <;> simp [Xfer.make, h]
  · exact ⟨Xfer.make u fn qos w a b d g pl, rfl, rfl, rfl, rfl, rfl, rfl, .inr ⟨by rw [h], by simp [h]⟩⟩

end Sys2Proof.Machine
end

