-- ==== Sys2Proof/Laws/Engines.lean ====
section
/-! SUPPORT. What the shared operations on engines leave alone: tokens, notices, preempt requests, the settling of an
engine after an event. -/
namespace Sys2Proof.Machine

@[simp] theorem State.cancelStart_pending (s : State) (p : Start → Bool) : (s.cancelStart p).pending = s.pending := by
  rfl
@[simp] theorem State.cancelStart_now (s : State) (p : Start → Bool) : (s.cancelStart p).now = s.now := by
  rfl
@[simp] theorem State.cancelStart_free (s : State) (p : Start → Bool) : (s.cancelStart p).free = s.free := by
  rfl
@[simp] theorem State.cancelStart_su (s : State) (p : Start → Bool) : (s.cancelStart p).su = s.su := by
  rfl
@[simp] theorem State.cancelStart_fm (s : State) (p : Start → Bool) : (s.cancelStart p).fm = s.fm := by
  rfl
@[simp] theorem State.cancelStart_gs (s : State) (p : Start → Bool) : (s.cancelStart p).gs = s.gs := by
  rfl
@[simp] theorem State.cancelStart_sow (s : State) (p : Start → Bool) : (s.cancelStart p).sow = s.sow := by
  rfl
@[simp] theorem State.cancelStart_de (s : State) (p : Start → Bool) : (s.cancelStart p).de = s.de := by
  rfl
@[simp] theorem State.cancelStart_rla (s : State) (p : Start → Bool) : (s.cancelStart p).rla = s.rla := by
  rfl
@[simp] theorem State.cancelStart_sm (s : State) (p : Start → Bool) : (s.cancelStart p).sm = s.sm := by
  rfl
@[simp] theorem State.cancelStart_cc (s : State) (p : Start → Bool) : (s.cancelStart p).cc = s.cc := by
  rfl
@[simp] theorem State.cancelStart_mrs (s : State) (p : Start → Bool) : (s.cancelStart p).mrs = s.mrs := by
  rfl
@[simp] theorem State.cancelStart_link (s : State) (p : Start → Bool) : (s.cancelStart p).link = s.link := by
  rfl
@[simp] theorem State.cancelStart_shf (s : State) (p : Start → Bool) : (s.cancelStart p).shf = s.shf := by
  rfl
@[simp] theorem State.cancelStart_stu (s : State) (p : Start → Bool) : (s.cancelStart p).stu = s.stu := by
  rfl
@[simp] theorem State.cancelStart_tcs (s : State) (p : Start → Bool) : (s.cancelStart p).tcs = s.tcs := by
  rfl
@[simp] theorem State.cancelStart_yoke (s : State) (p : Start → Bool) : (s.cancelStart p).yoke = s.yoke := by
  rfl
@[simp] theorem State.cancelStart_nv (s : State) (p : Start → Bool) : (s.cancelStart p).nv = s.nv := by
  rfl
@[simp] theorem State.cancelStart_ccx (s : State) (p : Start → Bool) : (s.cancelStart p).ccx = s.ccx := by
  rfl
@[simp] theorem State.cancelStart_eng (s : State) (p : Start → Bool) : (s.cancelStart p).eng = s.eng := by
  rfl
@[simp] theorem State.cancelStart_hcf (s : State) (p : Start → Bool) : (s.cancelStart p).hcf = s.hcf := by
  rfl
@[simp] theorem State.cancelStart_pins (s : State) (p : Start → Bool) : (s.cancelStart p).pins = s.pins := by
  rfl
@[simp] theorem State.cancelStart_mt (s : State) (p : Start → Bool) : (s.cancelStart p).mt = s.mt := by
  rfl
@[simp] theorem State.cancelStart_mesh (s : State) (p : Start → Bool) : (s.cancelStart p).mesh = s.mesh := by
  rfl
@[simp] theorem State.cancelStart_pru (s : State) (p : Start → Bool) : (s.cancelStart p).pru = s.pru := by
  rfl
@[simp] theorem State.cancelStart_mdu (s : State) (p : Start → Bool) : (s.cancelStart p).mdu = s.mdu := by
  rfl
@[simp] theorem State.cancelStart_ftt (s : State) (p : Start → Bool) : (s.cancelStart p).ftt = s.ftt := by
  rfl
@[simp] theorem State.cancelStart_tr (s : State) (p : Start → Bool) : (s.cancelStart p).tr = s.tr := by
  rfl
@[simp] theorem State.cancelStart_hv (s : State) (p : Start → Bool) : (s.cancelStart p).hv = s.hv := by
  rfl

@[simp] theorem State.driveToken_pending (s : State) (e op : Nat) : (s.driveToken e op).pending = s.pending := by
  unfold State.driveToken; dsimp only; split <;> simp
@[simp] theorem State.driveToken_now (s : State) (e op : Nat) : (s.driveToken e op).now = s.now := by
  unfold State.driveToken; dsimp only; split <;> simp
@[simp] theorem State.driveToken_free (s : State) (e op : Nat) : (s.driveToken e op).free = s.free := by
  unfold State.driveToken; dsimp only; split <;> simp
@[simp] theorem State.driveToken_su (s : State) (e op : Nat) : (s.driveToken e op).su = s.su := by
  unfold State.driveToken; dsimp only; split <;> simp
@[simp] theorem State.driveToken_fm (s : State) (e op : Nat) : (s.driveToken e op).fm = s.fm := by
  unfold State.driveToken; dsimp only; split <;> simp
@[simp] theorem State.driveToken_gs (s : State) (e op : Nat) : (s.driveToken e op).gs = s.gs := by
  unfold State.driveToken; dsimp only; split <;> simp
@[simp] theorem State.driveToken_sow (s : State) (e op : Nat) : (s.driveToken e op).sow = s.sow := by
  unfold State.driveToken; dsimp only; split <;> simp
@[simp] theorem State.driveToken_de (s : State) (e op : Nat) : (s.driveToken e op).de = s.de := by
  unfold State.driveToken; dsimp only; split <;> simp
@[simp] theorem State.driveToken_rla (s : State) (e op : Nat) : (s.driveToken e op).rla = s.rla := by
  unfold State.driveToken; dsimp only; split <;> simp
@[simp] theorem State.driveToken_sm (s : State) (e op : Nat) : (s.driveToken e op).sm = s.sm := by
  unfold State.driveToken; dsimp only; split <;> simp
@[simp] theorem State.driveToken_cc (s : State) (e op : Nat) : (s.driveToken e op).cc = s.cc := by
  unfold State.driveToken; dsimp only; split <;> simp
@[simp] theorem State.driveToken_mrs (s : State) (e op : Nat) : (s.driveToken e op).mrs = s.mrs := by
  unfold State.driveToken; dsimp only; split <;> simp
@[simp] theorem State.driveToken_link (s : State) (e op : Nat) : (s.driveToken e op).link = s.link := by
  unfold State.driveToken; dsimp only; split <;> simp
@[simp] theorem State.driveToken_shf (s : State) (e op : Nat) : (s.driveToken e op).shf = s.shf := by
  unfold State.driveToken; dsimp only; split <;> simp
@[simp] theorem State.driveToken_stu (s : State) (e op : Nat) : (s.driveToken e op).stu = s.stu := by
  unfold State.driveToken; dsimp only; split <;> simp
@[simp] theorem State.driveToken_tcs (s : State) (e op : Nat) : (s.driveToken e op).tcs = s.tcs := by
  unfold State.driveToken; dsimp only; split <;> simp
@[simp] theorem State.driveToken_yoke (s : State) (e op : Nat) : (s.driveToken e op).yoke = s.yoke := by
  unfold State.driveToken; dsimp only; split <;> simp
@[simp] theorem State.driveToken_nv (s : State) (e op : Nat) : (s.driveToken e op).nv = s.nv := by
  unfold State.driveToken; dsimp only; split <;> simp
@[simp] theorem State.driveToken_ccx (s : State) (e op : Nat) : (s.driveToken e op).ccx = s.ccx := by
  unfold State.driveToken; dsimp only; split <;> simp
@[simp] theorem State.driveToken_hcf (s : State) (e op : Nat) : (s.driveToken e op).hcf = s.hcf := by
  unfold State.driveToken; dsimp only; split <;> simp
@[simp] theorem State.driveToken_dcs (s : State) (e op : Nat) : (s.driveToken e op).dcs = s.dcs := by
  unfold State.driveToken; dsimp only; split <;> simp
@[simp] theorem State.driveToken_mt (s : State) (e op : Nat) : (s.driveToken e op).mt = s.mt := by
  unfold State.driveToken; dsimp only; split <;> simp
@[simp] theorem State.driveToken_mesh (s : State) (e op : Nat) : (s.driveToken e op).mesh = s.mesh := by
  unfold State.driveToken; dsimp only; split <;> simp
@[simp] theorem State.driveToken_pru (s : State) (e op : Nat) : (s.driveToken e op).pru = s.pru := by
  unfold State.driveToken; dsimp only; split <;> simp
@[simp] theorem State.driveToken_mdu (s : State) (e op : Nat) : (s.driveToken e op).mdu = s.mdu := by
  unfold State.driveToken; dsimp only; split <;> simp
@[simp] theorem State.driveToken_ftt (s : State) (e op : Nat) : (s.driveToken e op).ftt = s.ftt := by
  unfold State.driveToken; dsimp only; split <;> simp
@[simp] theorem State.driveToken_tr (s : State) (e op : Nat) : (s.driveToken e op).tr = s.tr := by
  unfold State.driveToken; dsimp only; split <;> simp
@[simp] theorem State.driveToken_hv (s : State) (e op : Nat) : (s.driveToken e op).hv = s.hv := by
  unfold State.driveToken; dsimp only; split <;> simp

@[simp] theorem State.withdraw_pending (s : State) (e trig : Nat) : (s.withdraw e trig).pending = s.pending := by
  unfold State.withdraw; dsimp only; (repeat' split) <;> simp
@[simp] theorem State.withdraw_now (s : State) (e trig : Nat) : (s.withdraw e trig).now = s.now := by
  unfold State.withdraw; dsimp only; (repeat' split) <;> simp
@[simp] theorem State.withdraw_free (s : State) (e trig : Nat) : (s.withdraw e trig).free = s.free := by
  unfold State.withdraw; dsimp only; (repeat' split) <;> simp
@[simp] theorem State.withdraw_su (s : State) (e trig : Nat) : (s.withdraw e trig).su = s.su := by
  unfold State.withdraw; dsimp only; (repeat' split) <;> simp
@[simp] theorem State.withdraw_fm (s : State) (e trig : Nat) : (s.withdraw e trig).fm = s.fm := by
  unfold State.withdraw; dsimp only; (repeat' split) <;> simp
@[simp] theorem State.withdraw_gs (s : State) (e trig : Nat) : (s.withdraw e trig).gs = s.gs := by
  unfold State.withdraw; dsimp only; (repeat' split) <;> simp
@[simp] theorem State.withdraw_sow (s : State) (e trig : Nat) : (s.withdraw e trig).sow = s.sow := by
  unfold State.withdraw; dsimp only; (repeat' split) <;> simp
@[simp] theorem State.withdraw_de (s : State) (e trig : Nat) : (s.withdraw e trig).de = s.de := by
  unfold State.withdraw; dsimp only; (repeat' split) <;> simp
@[simp] theorem State.withdraw_rla (s : State) (e trig : Nat) : (s.withdraw e trig).rla = s.rla := by
  unfold State.withdraw; dsimp only; (repeat' split) <;> simp
@[simp] theorem State.withdraw_sm (s : State) (e trig : Nat) : (s.withdraw e trig).sm = s.sm := by
  unfold State.withdraw; dsimp only; (repeat' split) <;> simp
@[simp] theorem State.withdraw_cc (s : State) (e trig : Nat) : (s.withdraw e trig).cc = s.cc := by
  unfold State.withdraw; dsimp only; (repeat' split) <;> simp
@[simp] theorem State.withdraw_mrs (s : State) (e trig : Nat) : (s.withdraw e trig).mrs = s.mrs := by
  unfold State.withdraw; dsimp only; (repeat' split) <;> simp
@[simp] theorem State.withdraw_link (s : State) (e trig : Nat) : (s.withdraw e trig).link = s.link := by
  unfold State.withdraw; dsimp only; (repeat' split) <;> simp
@[simp] theorem State.withdraw_shf (s : State) (e trig : Nat) : (s.withdraw e trig).shf = s.shf := by
  unfold State.withdraw; dsimp only; (repeat' split) <;> simp
@[simp] theorem State.withdraw_stu (s : State) (e trig : Nat) : (s.withdraw e trig).stu = s.stu := by
  unfold State.withdraw; dsimp only; (repeat' split) <;> simp
@[simp] theorem State.withdraw_tcs (s : State) (e trig : Nat) : (s.withdraw e trig).tcs = s.tcs := by
  unfold State.withdraw; dsimp only; (repeat' split) <;> simp
@[simp] theorem State.withdraw_yoke (s : State) (e trig : Nat) : (s.withdraw e trig).yoke = s.yoke := by
  unfold State.withdraw; dsimp only; (repeat' split) <;> simp
@[simp] theorem State.withdraw_nv (s : State) (e trig : Nat) : (s.withdraw e trig).nv = s.nv := by
  unfold State.withdraw; dsimp only; (repeat' split) <;> simp
@[simp] theorem State.withdraw_ccx (s : State) (e trig : Nat) : (s.withdraw e trig).ccx = s.ccx := by
  unfold State.withdraw; dsimp only; (repeat' split) <;> simp
@[simp] theorem State.withdraw_hcf (s : State) (e trig : Nat) : (s.withdraw e trig).hcf = s.hcf := by
  unfold State.withdraw; dsimp only; (repeat' split) <;> simp
@[simp] theorem State.withdraw_mt (s : State) (e trig : Nat) : (s.withdraw e trig).mt = s.mt := by
  unfold State.withdraw; dsimp only; (repeat' split) <;> simp
@[simp] theorem State.withdraw_mesh (s : State) (e trig : Nat) : (s.withdraw e trig).mesh = s.mesh := by
  unfold State.withdraw; dsimp only; (repeat' split) <;> simp
@[simp] theorem State.withdraw_pru (s : State) (e trig : Nat) : (s.withdraw e trig).pru = s.pru := by
  unfold State.withdraw; dsimp only; (repeat' split) <;> simp
@[simp] theorem State.withdraw_mdu (s : State) (e trig : Nat) : (s.withdraw e trig).mdu = s.mdu := by
  unfold State.withdraw; dsimp only; (repeat' split) <;> simp
@[simp] theorem State.withdraw_ftt (s : State) (e trig : Nat) : (s.withdraw e trig).ftt = s.ftt := by
  unfold State.withdraw; dsimp only; (repeat' split) <;> simp
@[simp] theorem State.withdraw_tr (s : State) (e trig : Nat) : (s.withdraw e trig).tr = s.tr := by
  unfold State.withdraw; dsimp only; (repeat' split) <;> simp
@[simp] theorem State.withdraw_hv (s : State) (e trig : Nat) : (s.withdraw e trig).hv = s.hv := by
  unfold State.withdraw; dsimp only; (repeat' split) <;> simp

@[simp] theorem State.nextNotice_pending (s : State) (e : Nat) : (s.nextNotice e).pending = s.pending := by
  unfold State.nextNotice; dsimp only; (repeat' split) <;> simp
@[simp] theorem State.nextNotice_now (s : State) (e : Nat) : (s.nextNotice e).now = s.now := by
  unfold State.nextNotice; dsimp only; (repeat' split) <;> simp
@[simp] theorem State.nextNotice_free (s : State) (e : Nat) : (s.nextNotice e).free = s.free := by
  unfold State.nextNotice; dsimp only; (repeat' split) <;> simp
@[simp] theorem State.nextNotice_su (s : State) (e : Nat) : (s.nextNotice e).su = s.su := by
  unfold State.nextNotice; dsimp only; (repeat' split) <;> simp
@[simp] theorem State.nextNotice_fm (s : State) (e : Nat) : (s.nextNotice e).fm = s.fm := by
  unfold State.nextNotice; dsimp only; (repeat' split) <;> simp
@[simp] theorem State.nextNotice_gs (s : State) (e : Nat) : (s.nextNotice e).gs = s.gs := by
  unfold State.nextNotice; dsimp only; (repeat' split) <;> simp
@[simp] theorem State.nextNotice_sow (s : State) (e : Nat) : (s.nextNotice e).sow = s.sow := by
  unfold State.nextNotice; dsimp only; (repeat' split) <;> simp
@[simp] theorem State.nextNotice_de (s : State) (e : Nat) : (s.nextNotice e).de = s.de := by
  unfold State.nextNotice; dsimp only; (repeat' split) <;> simp
@[simp] theorem State.nextNotice_rla (s : State) (e : Nat) : (s.nextNotice e).rla = s.rla := by
  unfold State.nextNotice; dsimp only; (repeat' split) <;> simp
@[simp] theorem State.nextNotice_sm (s : State) (e : Nat) : (s.nextNotice e).sm = s.sm := by
  unfold State.nextNotice; dsimp only; (repeat' split) <;> simp
@[simp] theorem State.nextNotice_cc (s : State) (e : Nat) : (s.nextNotice e).cc = s.cc := by
  unfold State.nextNotice; dsimp only; (repeat' split) <;> simp
@[simp] theorem State.nextNotice_mrs (s : State) (e : Nat) : (s.nextNotice e).mrs = s.mrs := by
  unfold State.nextNotice; dsimp only; (repeat' split) <;> simp
@[simp] theorem State.nextNotice_link (s : State) (e : Nat) : (s.nextNotice e).link = s.link := by
  unfold State.nextNotice; dsimp only; (repeat' split) <;> simp
@[simp] theorem State.nextNotice_shf (s : State) (e : Nat) : (s.nextNotice e).shf = s.shf := by
  unfold State.nextNotice; dsimp only; (repeat' split) <;> simp
@[simp] theorem State.nextNotice_stu (s : State) (e : Nat) : (s.nextNotice e).stu = s.stu := by
  unfold State.nextNotice; dsimp only; (repeat' split) <;> simp
@[simp] theorem State.nextNotice_tcs (s : State) (e : Nat) : (s.nextNotice e).tcs = s.tcs := by
  unfold State.nextNotice; dsimp only; (repeat' split) <;> simp
@[simp] theorem State.nextNotice_yoke (s : State) (e : Nat) : (s.nextNotice e).yoke = s.yoke := by
  unfold State.nextNotice; dsimp only; (repeat' split) <;> simp
@[simp] theorem State.nextNotice_nv (s : State) (e : Nat) : (s.nextNotice e).nv = s.nv := by
  unfold State.nextNotice; dsimp only; (repeat' split) <;> simp
@[simp] theorem State.nextNotice_ccx (s : State) (e : Nat) : (s.nextNotice e).ccx = s.ccx := by
  unfold State.nextNotice; dsimp only; (repeat' split) <;> simp
@[simp] theorem State.nextNotice_hcf (s : State) (e : Nat) : (s.nextNotice e).hcf = s.hcf := by
  unfold State.nextNotice; dsimp only; (repeat' split) <;> simp
@[simp] theorem State.nextNotice_dcs (s : State) (e : Nat) : (s.nextNotice e).dcs = s.dcs := by
  unfold State.nextNotice; dsimp only; (repeat' split) <;> simp
@[simp] theorem State.nextNotice_pins (s : State) (e : Nat) : (s.nextNotice e).pins = s.pins := by
  unfold State.nextNotice; dsimp only; (repeat' split) <;> simp
@[simp] theorem State.nextNotice_mt (s : State) (e : Nat) : (s.nextNotice e).mt = s.mt := by
  unfold State.nextNotice; dsimp only; (repeat' split) <;> simp
@[simp] theorem State.nextNotice_pru (s : State) (e : Nat) : (s.nextNotice e).pru = s.pru := by
  unfold State.nextNotice; dsimp only; (repeat' split) <;> simp
@[simp] theorem State.nextNotice_mdu (s : State) (e : Nat) : (s.nextNotice e).mdu = s.mdu := by
  unfold State.nextNotice; dsimp only; (repeat' split) <;> simp
@[simp] theorem State.nextNotice_ftt (s : State) (e : Nat) : (s.nextNotice e).ftt = s.ftt := by
  unfold State.nextNotice; dsimp only; (repeat' split) <;> simp
@[simp] theorem State.nextNotice_tr (s : State) (e : Nat) : (s.nextNotice e).tr = s.tr := by
  unfold State.nextNotice; dsimp only; (repeat' split) <;> simp
@[simp] theorem State.nextNotice_hv (s : State) (e : Nat) : (s.nextNotice e).hv = s.hv := by
  unfold State.nextNotice; dsimp only; (repeat' split) <;> simp

@[simp] theorem State.sendNotice_pending (s : State) (e k fn g : Nat) : (s.sendNotice e k fn g).pending = s.pending := by
  simp [State.sendNotice]
@[simp] theorem State.sendNotice_now (s : State) (e k fn g : Nat) : (s.sendNotice e k fn g).now = s.now := by
  simp [State.sendNotice]
@[simp] theorem State.sendNotice_free (s : State) (e k fn g : Nat) : (s.sendNotice e k fn g).free = s.free := by
  simp [State.sendNotice]
@[simp] theorem State.sendNotice_su (s : State) (e k fn g : Nat) : (s.sendNotice e k fn g).su = s.su := by
  simp [State.sendNotice]
@[simp] theorem State.sendNotice_fm (s : State) (e k fn g : Nat) : (s.sendNotice e k fn g).fm = s.fm := by
  simp [State.sendNotice]
@[simp] theorem State.sendNotice_gs (s : State) (e k fn g : Nat) : (s.sendNotice e k fn g).gs = s.gs := by
  simp [State.sendNotice]
@[simp] theorem State.sendNotice_sow (s : State) (e k fn g : Nat) : (s.sendNotice e k fn g).sow = s.sow := by
  simp [State.sendNotice]
@[simp] theorem State.sendNotice_de (s : State) (e k fn g : Nat) : (s.sendNotice e k fn g).de = s.de := by
  simp [State.sendNotice]
@[simp] theorem State.sendNotice_rla (s : State) (e k fn g : Nat) : (s.sendNotice e k fn g).rla = s.rla := by
  simp [State.sendNotice]
@[simp] theorem State.sendNotice_sm (s : State) (e k fn g : Nat) : (s.sendNotice e k fn g).sm = s.sm := by
  simp [State.sendNotice]
@[simp] theorem State.sendNotice_cc (s : State) (e k fn g : Nat) : (s.sendNotice e k fn g).cc = s.cc := by
  simp [State.sendNotice]
@[simp] theorem State.sendNotice_mrs (s : State) (e k fn g : Nat) : (s.sendNotice e k fn g).mrs = s.mrs := by
  simp [State.sendNotice]
@[simp] theorem State.sendNotice_link (s : State) (e k fn g : Nat) : (s.sendNotice e k fn g).link = s.link := by
  simp [State.sendNotice]
@[simp] theorem State.sendNotice_shf (s : State) (e k fn g : Nat) : (s.sendNotice e k fn g).shf = s.shf := by
  simp [State.sendNotice]
@[simp] theorem State.sendNotice_stu (s : State) (e k fn g : Nat) : (s.sendNotice e k fn g).stu = s.stu := by
  simp [State.sendNotice]
@[simp] theorem State.sendNotice_tcs (s : State) (e k fn g : Nat) : (s.sendNotice e k fn g).tcs = s.tcs := by
  simp [State.sendNotice]
@[simp] theorem State.sendNotice_yoke (s : State) (e k fn g : Nat) : (s.sendNotice e k fn g).yoke = s.yoke := by
  simp [State.sendNotice]
@[simp] theorem State.sendNotice_nv (s : State) (e k fn g : Nat) : (s.sendNotice e k fn g).nv = s.nv := by
  simp [State.sendNotice]
@[simp] theorem State.sendNotice_ccx (s : State) (e k fn g : Nat) : (s.sendNotice e k fn g).ccx = s.ccx := by
  simp [State.sendNotice]
@[simp] theorem State.sendNotice_hcf (s : State) (e k fn g : Nat) : (s.sendNotice e k fn g).hcf = s.hcf := by
  simp [State.sendNotice]
@[simp] theorem State.sendNotice_dcs (s : State) (e k fn g : Nat) : (s.sendNotice e k fn g).dcs = s.dcs := by
  simp [State.sendNotice]
@[simp] theorem State.sendNotice_pins (s : State) (e k fn g : Nat) : (s.sendNotice e k fn g).pins = s.pins := by
  simp [State.sendNotice]
@[simp] theorem State.sendNotice_mt (s : State) (e k fn g : Nat) : (s.sendNotice e k fn g).mt = s.mt := by
  simp [State.sendNotice]
@[simp] theorem State.sendNotice_pru (s : State) (e k fn g : Nat) : (s.sendNotice e k fn g).pru = s.pru := by
  simp [State.sendNotice]
@[simp] theorem State.sendNotice_mdu (s : State) (e k fn g : Nat) : (s.sendNotice e k fn g).mdu = s.mdu := by
  simp [State.sendNotice]
@[simp] theorem State.sendNotice_ftt (s : State) (e k fn g : Nat) : (s.sendNotice e k fn g).ftt = s.ftt := by
  simp [State.sendNotice]
@[simp] theorem State.sendNotice_tr (s : State) (e k fn g : Nat) : (s.sendNotice e k fn g).tr = s.tr := by
  simp [State.sendNotice]
@[simp] theorem State.sendNotice_hv (s : State) (e k fn g : Nat) : (s.sendNotice e k fn g).hv = s.hv := by
  simp [State.sendNotice]

@[simp] theorem State.consumeNotice_pending (s : State) (e k : Nat) : (s.consumeNotice e k).pending = s.pending := by
  unfold State.consumeNotice; (repeat' split) <;> simp
@[simp] theorem State.consumeNotice_now (s : State) (e k : Nat) : (s.consumeNotice e k).now = s.now := by
  unfold State.consumeNotice; (repeat' split) <;> simp
@[simp] theorem State.consumeNotice_free (s : State) (e k : Nat) : (s.consumeNotice e k).free = s.free := by
  unfold State.consumeNotice; (repeat' split) <;> simp
@[simp] theorem State.consumeNotice_su (s : State) (e k : Nat) : (s.consumeNotice e k).su = s.su := by
  unfold State.consumeNotice; (repeat' split) <;> simp
@[simp] theorem State.consumeNotice_fm (s : State) (e k : Nat) : (s.consumeNotice e k).fm = s.fm := by
  unfold State.consumeNotice; (repeat' split) <;> simp
@[simp] theorem State.consumeNotice_gs (s : State) (e k : Nat) : (s.consumeNotice e k).gs = s.gs := by
  unfold State.consumeNotice; (repeat' split) <;> simp
@[simp] theorem State.consumeNotice_sow (s : State) (e k : Nat) : (s.consumeNotice e k).sow = s.sow := by
  unfold State.consumeNotice; (repeat' split) <;> simp
@[simp] theorem State.consumeNotice_de (s : State) (e k : Nat) : (s.consumeNotice e k).de = s.de := by
  unfold State.consumeNotice; (repeat' split) <;> simp
@[simp] theorem State.consumeNotice_rla (s : State) (e k : Nat) : (s.consumeNotice e k).rla = s.rla := by
  unfold State.consumeNotice; (repeat' split) <;> simp
@[simp] theorem State.consumeNotice_sm (s : State) (e k : Nat) : (s.consumeNotice e k).sm = s.sm := by
  unfold State.consumeNotice; (repeat' split) <;> simp
@[simp] theorem State.consumeNotice_cc (s : State) (e k : Nat) : (s.consumeNotice e k).cc = s.cc := by
  unfold State.consumeNotice; (repeat' split) <;> simp
@[simp] theorem State.consumeNotice_mrs (s : State) (e k : Nat) : (s.consumeNotice e k).mrs = s.mrs := by
  unfold State.consumeNotice; (repeat' split) <;> simp
@[simp] theorem State.consumeNotice_link (s : State) (e k : Nat) : (s.consumeNotice e k).link = s.link := by
  unfold State.consumeNotice; (repeat' split) <;> simp
@[simp] theorem State.consumeNotice_shf (s : State) (e k : Nat) : (s.consumeNotice e k).shf = s.shf := by
  unfold State.consumeNotice; (repeat' split) <;> simp
@[simp] theorem State.consumeNotice_stu (s : State) (e k : Nat) : (s.consumeNotice e k).stu = s.stu := by
  unfold State.consumeNotice; (repeat' split) <;> simp
@[simp] theorem State.consumeNotice_tcs (s : State) (e k : Nat) : (s.consumeNotice e k).tcs = s.tcs := by
  unfold State.consumeNotice; (repeat' split) <;> simp
@[simp] theorem State.consumeNotice_yoke (s : State) (e k : Nat) : (s.consumeNotice e k).yoke = s.yoke := by
  unfold State.consumeNotice; (repeat' split) <;> simp
@[simp] theorem State.consumeNotice_nv (s : State) (e k : Nat) : (s.consumeNotice e k).nv = s.nv := by
  unfold State.consumeNotice; (repeat' split) <;> simp
@[simp] theorem State.consumeNotice_ccx (s : State) (e k : Nat) : (s.consumeNotice e k).ccx = s.ccx := by
  unfold State.consumeNotice; (repeat' split) <;> simp
@[simp] theorem State.consumeNotice_hcf (s : State) (e k : Nat) : (s.consumeNotice e k).hcf = s.hcf := by
  unfold State.consumeNotice; (repeat' split) <;> simp
@[simp] theorem State.consumeNotice_dcs (s : State) (e k : Nat) : (s.consumeNotice e k).dcs = s.dcs := by
  unfold State.consumeNotice; (repeat' split) <;> simp
@[simp] theorem State.consumeNotice_pins (s : State) (e k : Nat) : (s.consumeNotice e k).pins = s.pins := by
  unfold State.consumeNotice; (repeat' split) <;> simp
@[simp] theorem State.consumeNotice_mt (s : State) (e k : Nat) : (s.consumeNotice e k).mt = s.mt := by
  unfold State.consumeNotice; (repeat' split) <;> simp
@[simp] theorem State.consumeNotice_pru (s : State) (e k : Nat) : (s.consumeNotice e k).pru = s.pru := by
  unfold State.consumeNotice; (repeat' split) <;> simp
@[simp] theorem State.consumeNotice_mdu (s : State) (e k : Nat) : (s.consumeNotice e k).mdu = s.mdu := by
  unfold State.consumeNotice; (repeat' split) <;> simp
@[simp] theorem State.consumeNotice_ftt (s : State) (e k : Nat) : (s.consumeNotice e k).ftt = s.ftt := by
  unfold State.consumeNotice; (repeat' split) <;> simp
@[simp] theorem State.consumeNotice_tr (s : State) (e k : Nat) : (s.consumeNotice e k).tr = s.tr := by
  unfold State.consumeNotice; (repeat' split) <;> simp
@[simp] theorem State.consumeNotice_hv (s : State) (e k : Nat) : (s.consumeNotice e k).hv = s.hv := by
  unfold State.consumeNotice; (repeat' split) <;> simp

@[simp] theorem State.drivePreempt_pending (s : State) (e : Nat) (p : Preempt) : (s.drivePreempt e p).pending = s.pending := by
  unfold State.drivePreempt; dsimp only; split <;> simp
@[simp] theorem State.drivePreempt_now (s : State) (e : Nat) (p : Preempt) : (s.drivePreempt e p).now = s.now := by
  unfold State.drivePreempt; dsimp only; split <;> simp
@[simp] theorem State.drivePreempt_free (s : State) (e : Nat) (p : Preempt) : (s.drivePreempt e p).free = s.free := by
  unfold State.drivePreempt; dsimp only; split <;> simp
@[simp] theorem State.drivePreempt_su (s : State) (e : Nat) (p : Preempt) : (s.drivePreempt e p).su = s.su := by
  unfold State.drivePreempt; dsimp only; split <;> simp
@[simp] theorem State.drivePreempt_fm (s : State) (e : Nat) (p : Preempt) : (s.drivePreempt e p).fm = s.fm := by
  unfold State.drivePreempt; dsimp only; split <;> simp
@[simp] theorem State.drivePreempt_gs (s : State) (e : Nat) (p : Preempt) : (s.drivePreempt e p).gs = s.gs := by
  unfold State.drivePreempt; dsimp only; split <;> simp
@[simp] theorem State.drivePreempt_sow (s : State) (e : Nat) (p : Preempt) : (s.drivePreempt e p).sow = s.sow := by
  unfold State.drivePreempt; dsimp only; split <;> simp
@[simp] theorem State.drivePreempt_de (s : State) (e : Nat) (p : Preempt) : (s.drivePreempt e p).de = s.de := by
  unfold State.drivePreempt; dsimp only; split <;> simp
@[simp] theorem State.drivePreempt_rla (s : State) (e : Nat) (p : Preempt) : (s.drivePreempt e p).rla = s.rla := by
  unfold State.drivePreempt; dsimp only; split <;> simp
@[simp] theorem State.drivePreempt_sm (s : State) (e : Nat) (p : Preempt) : (s.drivePreempt e p).sm = s.sm := by
  unfold State.drivePreempt; dsimp only; split <;> simp
@[simp] theorem State.drivePreempt_cc (s : State) (e : Nat) (p : Preempt) : (s.drivePreempt e p).cc = s.cc := by
  unfold State.drivePreempt; dsimp only; split <;> simp
@[simp] theorem State.drivePreempt_mrs (s : State) (e : Nat) (p : Preempt) : (s.drivePreempt e p).mrs = s.mrs := by
  unfold State.drivePreempt; dsimp only; split <;> simp
@[simp] theorem State.drivePreempt_link (s : State) (e : Nat) (p : Preempt) : (s.drivePreempt e p).link = s.link := by
  unfold State.drivePreempt; dsimp only; split <;> simp
@[simp] theorem State.drivePreempt_shf (s : State) (e : Nat) (p : Preempt) : (s.drivePreempt e p).shf = s.shf := by
  unfold State.drivePreempt; dsimp only; split <;> simp
@[simp] theorem State.drivePreempt_stu (s : State) (e : Nat) (p : Preempt) : (s.drivePreempt e p).stu = s.stu := by
  unfold State.drivePreempt; dsimp only; split <;> simp
@[simp] theorem State.drivePreempt_tcs (s : State) (e : Nat) (p : Preempt) : (s.drivePreempt e p).tcs = s.tcs := by
  unfold State.drivePreempt; dsimp only; split <;> simp
@[simp] theorem State.drivePreempt_yoke (s : State) (e : Nat) (p : Preempt) : (s.drivePreempt e p).yoke = s.yoke := by
  unfold State.drivePreempt; dsimp only; split <;> simp
@[simp] theorem State.drivePreempt_nv (s : State) (e : Nat) (p : Preempt) : (s.drivePreempt e p).nv = s.nv := by
  unfold State.drivePreempt; dsimp only; split <;> simp
@[simp] theorem State.drivePreempt_ccx (s : State) (e : Nat) (p : Preempt) : (s.drivePreempt e p).ccx = s.ccx := by
  unfold State.drivePreempt; dsimp only; split <;> simp
@[simp] theorem State.drivePreempt_hcf (s : State) (e : Nat) (p : Preempt) : (s.drivePreempt e p).hcf = s.hcf := by
  unfold State.drivePreempt; dsimp only; split <;> simp
@[simp] theorem State.drivePreempt_dcs (s : State) (e : Nat) (p : Preempt) : (s.drivePreempt e p).dcs = s.dcs := by
  unfold State.drivePreempt; dsimp only; split <;> simp
@[simp] theorem State.drivePreempt_mt (s : State) (e : Nat) (p : Preempt) : (s.drivePreempt e p).mt = s.mt := by
  unfold State.drivePreempt; dsimp only; split <;> simp
@[simp] theorem State.drivePreempt_mesh (s : State) (e : Nat) (p : Preempt) : (s.drivePreempt e p).mesh = s.mesh := by
  unfold State.drivePreempt; dsimp only; split <;> simp
@[simp] theorem State.drivePreempt_pru (s : State) (e : Nat) (p : Preempt) : (s.drivePreempt e p).pru = s.pru := by
  unfold State.drivePreempt; dsimp only; split <;> simp
@[simp] theorem State.drivePreempt_mdu (s : State) (e : Nat) (p : Preempt) : (s.drivePreempt e p).mdu = s.mdu := by
  unfold State.drivePreempt; dsimp only; split <;> simp
@[simp] theorem State.drivePreempt_ftt (s : State) (e : Nat) (p : Preempt) : (s.drivePreempt e p).ftt = s.ftt := by
  unfold State.drivePreempt; dsimp only; split <;> simp
@[simp] theorem State.drivePreempt_hv (s : State) (e : Nat) (p : Preempt) : (s.drivePreempt e p).hv = s.hv := by
  unfold State.drivePreempt; dsimp only; split <;> simp

@[simp] theorem State.noteSave_pending (s : State) (e : Nat) (p : Preempt) : (s.noteSave e p).pending = s.pending := by
  unfold State.noteSave; dsimp only; (repeat' split) <;> simp
@[simp] theorem State.noteSave_now (s : State) (e : Nat) (p : Preempt) : (s.noteSave e p).now = s.now := by
  unfold State.noteSave; dsimp only; (repeat' split) <;> simp
@[simp] theorem State.noteSave_free (s : State) (e : Nat) (p : Preempt) : (s.noteSave e p).free = s.free := by
  unfold State.noteSave; dsimp only; (repeat' split) <;> simp
@[simp] theorem State.noteSave_su (s : State) (e : Nat) (p : Preempt) : (s.noteSave e p).su = s.su := by
  unfold State.noteSave; dsimp only; (repeat' split) <;> simp
@[simp] theorem State.noteSave_fm (s : State) (e : Nat) (p : Preempt) : (s.noteSave e p).fm = s.fm := by
  unfold State.noteSave; dsimp only; (repeat' split) <;> simp
@[simp] theorem State.noteSave_gs (s : State) (e : Nat) (p : Preempt) : (s.noteSave e p).gs = s.gs := by
  unfold State.noteSave; dsimp only; (repeat' split) <;> simp
@[simp] theorem State.noteSave_sow (s : State) (e : Nat) (p : Preempt) : (s.noteSave e p).sow = s.sow := by
  unfold State.noteSave; dsimp only; (repeat' split) <;> simp
@[simp] theorem State.noteSave_de (s : State) (e : Nat) (p : Preempt) : (s.noteSave e p).de = s.de := by
  unfold State.noteSave; dsimp only; (repeat' split) <;> simp
@[simp] theorem State.noteSave_rla (s : State) (e : Nat) (p : Preempt) : (s.noteSave e p).rla = s.rla := by
  unfold State.noteSave; dsimp only; (repeat' split) <;> simp
@[simp] theorem State.noteSave_sm (s : State) (e : Nat) (p : Preempt) : (s.noteSave e p).sm = s.sm := by
  unfold State.noteSave; dsimp only; (repeat' split) <;> simp
@[simp] theorem State.noteSave_cc (s : State) (e : Nat) (p : Preempt) : (s.noteSave e p).cc = s.cc := by
  unfold State.noteSave; dsimp only; (repeat' split) <;> simp
@[simp] theorem State.noteSave_mrs (s : State) (e : Nat) (p : Preempt) : (s.noteSave e p).mrs = s.mrs := by
  unfold State.noteSave; dsimp only; (repeat' split) <;> simp
@[simp] theorem State.noteSave_link (s : State) (e : Nat) (p : Preempt) : (s.noteSave e p).link = s.link := by
  unfold State.noteSave; dsimp only; (repeat' split) <;> simp
@[simp] theorem State.noteSave_shf (s : State) (e : Nat) (p : Preempt) : (s.noteSave e p).shf = s.shf := by
  unfold State.noteSave; dsimp only; (repeat' split) <;> simp
@[simp] theorem State.noteSave_stu (s : State) (e : Nat) (p : Preempt) : (s.noteSave e p).stu = s.stu := by
  unfold State.noteSave; dsimp only; (repeat' split) <;> simp
@[simp] theorem State.noteSave_tcs (s : State) (e : Nat) (p : Preempt) : (s.noteSave e p).tcs = s.tcs := by
  unfold State.noteSave; dsimp only; (repeat' split) <;> simp
@[simp] theorem State.noteSave_yoke (s : State) (e : Nat) (p : Preempt) : (s.noteSave e p).yoke = s.yoke := by
  unfold State.noteSave; dsimp only; (repeat' split) <;> simp
@[simp] theorem State.noteSave_nv (s : State) (e : Nat) (p : Preempt) : (s.noteSave e p).nv = s.nv := by
  unfold State.noteSave; dsimp only; (repeat' split) <;> simp
@[simp] theorem State.noteSave_ccx (s : State) (e : Nat) (p : Preempt) : (s.noteSave e p).ccx = s.ccx := by
  unfold State.noteSave; dsimp only; (repeat' split) <;> simp
@[simp] theorem State.noteSave_hcf (s : State) (e : Nat) (p : Preempt) : (s.noteSave e p).hcf = s.hcf := by
  unfold State.noteSave; dsimp only; (repeat' split) <;> simp
@[simp] theorem State.noteSave_dcs (s : State) (e : Nat) (p : Preempt) : (s.noteSave e p).dcs = s.dcs := by
  unfold State.noteSave; dsimp only; (repeat' split) <;> simp
@[simp] theorem State.noteSave_pins (s : State) (e : Nat) (p : Preempt) : (s.noteSave e p).pins = s.pins := by
  unfold State.noteSave; dsimp only; (repeat' split) <;> simp
@[simp] theorem State.noteSave_mt (s : State) (e : Nat) (p : Preempt) : (s.noteSave e p).mt = s.mt := by
  unfold State.noteSave; dsimp only; (repeat' split) <;> simp
@[simp] theorem State.noteSave_mdu (s : State) (e : Nat) (p : Preempt) : (s.noteSave e p).mdu = s.mdu := by
  unfold State.noteSave; dsimp only; (repeat' split) <;> simp
@[simp] theorem State.noteSave_ftt (s : State) (e : Nat) (p : Preempt) : (s.noteSave e p).ftt = s.ftt := by
  unfold State.noteSave; dsimp only; (repeat' split) <;> simp
@[simp] theorem State.noteSave_tr (s : State) (e : Nat) (p : Preempt) : (s.noteSave e p).tr = s.tr := by
  unfold State.noteSave; dsimp only; (repeat' split) <;> simp
@[simp] theorem State.noteSave_hv (s : State) (e : Nat) (p : Preempt) : (s.noteSave e p).hv = s.hv := by
  unfold State.noteSave; dsimp only; (repeat' split) <;> simp

@[simp] theorem State.dropSlice_pending (s : State) (p : Preempt) : (s.dropSlice p).pending = s.pending := by
  unfold State.dropSlice; split <;> rfl
@[simp] theorem State.dropSlice_now (s : State) (p : Preempt) : (s.dropSlice p).now = s.now := by
  unfold State.dropSlice; split <;> rfl
@[simp] theorem State.dropSlice_free (s : State) (p : Preempt) : (s.dropSlice p).free = s.free := by
  unfold State.dropSlice; split <;> rfl
@[simp] theorem State.dropSlice_su (s : State) (p : Preempt) : (s.dropSlice p).su = s.su := by
  unfold State.dropSlice; split <;> rfl
@[simp] theorem State.dropSlice_fm (s : State) (p : Preempt) : (s.dropSlice p).fm = s.fm := by
  unfold State.dropSlice; split <;> rfl
@[simp] theorem State.dropSlice_gs (s : State) (p : Preempt) : (s.dropSlice p).gs = s.gs := by
  unfold State.dropSlice; split <;> rfl
@[simp] theorem State.dropSlice_sow (s : State) (p : Preempt) : (s.dropSlice p).sow = s.sow := by
  unfold State.dropSlice; split <;> rfl
@[simp] theorem State.dropSlice_de (s : State) (p : Preempt) : (s.dropSlice p).de = s.de := by
  unfold State.dropSlice; split <;> rfl
@[simp] theorem State.dropSlice_rla (s : State) (p : Preempt) : (s.dropSlice p).rla = s.rla := by
  unfold State.dropSlice; split <;> rfl
@[simp] theorem State.dropSlice_sm (s : State) (p : Preempt) : (s.dropSlice p).sm = s.sm := by
  unfold State.dropSlice; split <;> rfl
@[simp] theorem State.dropSlice_cc (s : State) (p : Preempt) : (s.dropSlice p).cc = s.cc := by
  unfold State.dropSlice; split <;> rfl
@[simp] theorem State.dropSlice_mrs (s : State) (p : Preempt) : (s.dropSlice p).mrs = s.mrs := by
  unfold State.dropSlice; split <;> rfl
@[simp] theorem State.dropSlice_link (s : State) (p : Preempt) : (s.dropSlice p).link = s.link := by
  unfold State.dropSlice; split <;> rfl
@[simp] theorem State.dropSlice_shf (s : State) (p : Preempt) : (s.dropSlice p).shf = s.shf := by
  unfold State.dropSlice; split <;> rfl
@[simp] theorem State.dropSlice_stu (s : State) (p : Preempt) : (s.dropSlice p).stu = s.stu := by
  unfold State.dropSlice; split <;> rfl
@[simp] theorem State.dropSlice_tcs (s : State) (p : Preempt) : (s.dropSlice p).tcs = s.tcs := by
  unfold State.dropSlice; split <;> rfl
@[simp] theorem State.dropSlice_yoke (s : State) (p : Preempt) : (s.dropSlice p).yoke = s.yoke := by
  unfold State.dropSlice; split <;> rfl
@[simp] theorem State.dropSlice_nv (s : State) (p : Preempt) : (s.dropSlice p).nv = s.nv := by
  unfold State.dropSlice; split <;> rfl
@[simp] theorem State.dropSlice_ccx (s : State) (p : Preempt) : (s.dropSlice p).ccx = s.ccx := by
  unfold State.dropSlice; split <;> rfl
@[simp] theorem State.dropSlice_hcf (s : State) (p : Preempt) : (s.dropSlice p).hcf = s.hcf := by
  unfold State.dropSlice; split <;> rfl
@[simp] theorem State.dropSlice_dcs (s : State) (p : Preempt) : (s.dropSlice p).dcs = s.dcs := by
  unfold State.dropSlice; split <;> rfl
@[simp] theorem State.dropSlice_pins (s : State) (p : Preempt) : (s.dropSlice p).pins = s.pins := by
  unfold State.dropSlice; split <;> rfl
@[simp] theorem State.dropSlice_mt (s : State) (p : Preempt) : (s.dropSlice p).mt = s.mt := by
  unfold State.dropSlice; split <;> rfl
@[simp] theorem State.dropSlice_eng (s : State) (p : Preempt) : (s.dropSlice p).eng = s.eng := by
  unfold State.dropSlice; split <;> rfl
@[simp] theorem State.dropSlice_mdu (s : State) (p : Preempt) : (s.dropSlice p).mdu = s.mdu := by
  unfold State.dropSlice; split <;> rfl
@[simp] theorem State.dropSlice_ftt (s : State) (p : Preempt) : (s.dropSlice p).ftt = s.ftt := by
  unfold State.dropSlice; split <;> rfl
@[simp] theorem State.dropSlice_tr (s : State) (p : Preempt) : (s.dropSlice p).tr = s.tr := by
  unfold State.dropSlice; split <;> rfl
@[simp] theorem State.dropSlice_hv (s : State) (p : Preempt) : (s.dropSlice p).hv = s.hv := by
  unfold State.dropSlice; split <;> rfl
@[simp] theorem State.answered_pending (s : State) (e : Nat) : (s.answered e).pending = s.pending := by
  simp [State.answered]
@[simp] theorem State.answered_now (s : State) (e : Nat) : (s.answered e).now = s.now := by
  simp [State.answered]
@[simp] theorem State.answered_free (s : State) (e : Nat) : (s.answered e).free = s.free := by
  simp [State.answered]
@[simp] theorem State.answered_su (s : State) (e : Nat) : (s.answered e).su = s.su := by
  simp [State.answered]
@[simp] theorem State.answered_fm (s : State) (e : Nat) : (s.answered e).fm = s.fm := by
  simp [State.answered]
@[simp] theorem State.answered_gs (s : State) (e : Nat) : (s.answered e).gs = s.gs := by
  simp [State.answered]
@[simp] theorem State.answered_sow (s : State) (e : Nat) : (s.answered e).sow = s.sow := by
  simp [State.answered]
@[simp] theorem State.answered_de (s : State) (e : Nat) : (s.answered e).de = s.de := by
  simp [State.answered]
@[simp] theorem State.answered_rla (s : State) (e : Nat) : (s.answered e).rla = s.rla := by
  simp [State.answered]
@[simp] theorem State.answered_sm (s : State) (e : Nat) : (s.answered e).sm = s.sm := by
  simp [State.answered]
@[simp] theorem State.answered_cc (s : State) (e : Nat) : (s.answered e).cc = s.cc := by
  simp [State.answered]
@[simp] theorem State.answered_mrs (s : State) (e : Nat) : (s.answered e).mrs = s.mrs := by
  simp [State.answered]
@[simp] theorem State.answered_link (s : State) (e : Nat) : (s.answered e).link = s.link := by
  simp [State.answered]
@[simp] theorem State.answered_shf (s : State) (e : Nat) : (s.answered e).shf = s.shf := by
  simp [State.answered]
@[simp] theorem State.answered_stu (s : State) (e : Nat) : (s.answered e).stu = s.stu := by
  simp [State.answered]
@[simp] theorem State.answered_tcs (s : State) (e : Nat) : (s.answered e).tcs = s.tcs := by
  simp [State.answered]
@[simp] theorem State.answered_yoke (s : State) (e : Nat) : (s.answered e).yoke = s.yoke := by
  simp [State.answered]
@[simp] theorem State.answered_nv (s : State) (e : Nat) : (s.answered e).nv = s.nv := by
  simp [State.answered]
@[simp] theorem State.answered_ccx (s : State) (e : Nat) : (s.answered e).ccx = s.ccx := by
  simp [State.answered]
@[simp] theorem State.answered_hcf (s : State) (e : Nat) : (s.answered e).hcf = s.hcf := by
  simp [State.answered]
@[simp] theorem State.answered_dcs (s : State) (e : Nat) : (s.answered e).dcs = s.dcs := by
  simp [State.answered]
@[simp] theorem State.answered_pins (s : State) (e : Nat) : (s.answered e).pins = s.pins := by
  simp [State.answered]
@[simp] theorem State.answered_mt (s : State) (e : Nat) : (s.answered e).mt = s.mt := by
  simp [State.answered]
@[simp] theorem State.answered_pru (s : State) (e : Nat) : (s.answered e).pru = s.pru := by
  simp [State.answered]
@[simp] theorem State.answered_mdu (s : State) (e : Nat) : (s.answered e).mdu = s.mdu := by
  simp [State.answered]
@[simp] theorem State.answered_ftt (s : State) (e : Nat) : (s.answered e).ftt = s.ftt := by
  simp [State.answered]
@[simp] theorem State.answered_tr (s : State) (e : Nat) : (s.answered e).tr = s.tr := by
  simp [State.answered]
@[simp] theorem State.answered_hv (s : State) (e : Nat) : (s.answered e).hv = s.hv := by
  simp [State.answered]

@[simp] theorem State.stepPreempt_pending (s : State) (e : Nat) : (s.stepPreempt e).pending = s.pending := by
  unfold State.stepPreempt; dsimp only; (repeat' split) <;> simp
@[simp] theorem State.stepPreempt_now (s : State) (e : Nat) : (s.stepPreempt e).now = s.now := by
  unfold State.stepPreempt; dsimp only; (repeat' split) <;> simp
@[simp] theorem State.stepPreempt_free (s : State) (e : Nat) : (s.stepPreempt e).free = s.free := by
  unfold State.stepPreempt; dsimp only; (repeat' split) <;> simp
@[simp] theorem State.stepPreempt_su (s : State) (e : Nat) : (s.stepPreempt e).su = s.su := by
  unfold State.stepPreempt; dsimp only; (repeat' split) <;> simp
@[simp] theorem State.stepPreempt_fm (s : State) (e : Nat) : (s.stepPreempt e).fm = s.fm := by
  unfold State.stepPreempt; dsimp only; (repeat' split) <;> simp
@[simp] theorem State.stepPreempt_gs (s : State) (e : Nat) : (s.stepPreempt e).gs = s.gs := by
  unfold State.stepPreempt; dsimp only; (repeat' split) <;> simp
@[simp] theorem State.stepPreempt_sow (s : State) (e : Nat) : (s.stepPreempt e).sow = s.sow := by
  unfold State.stepPreempt; dsimp only; (repeat' split) <;> simp
@[simp] theorem State.stepPreempt_de (s : State) (e : Nat) : (s.stepPreempt e).de = s.de := by
  unfold State.stepPreempt; dsimp only; (repeat' split) <;> simp
@[simp] theorem State.stepPreempt_rla (s : State) (e : Nat) : (s.stepPreempt e).rla = s.rla := by
  unfold State.stepPreempt; dsimp only; (repeat' split) <;> simp
@[simp] theorem State.stepPreempt_sm (s : State) (e : Nat) : (s.stepPreempt e).sm = s.sm := by
  unfold State.stepPreempt; dsimp only; (repeat' split) <;> simp
@[simp] theorem State.stepPreempt_cc (s : State) (e : Nat) : (s.stepPreempt e).cc = s.cc := by
  unfold State.stepPreempt; dsimp only; (repeat' split) <;> simp
@[simp] theorem State.stepPreempt_mrs (s : State) (e : Nat) : (s.stepPreempt e).mrs = s.mrs := by
  unfold State.stepPreempt; dsimp only; (repeat' split) <;> simp
@[simp] theorem State.stepPreempt_link (s : State) (e : Nat) : (s.stepPreempt e).link = s.link := by
  unfold State.stepPreempt; dsimp only; (repeat' split) <;> simp
@[simp] theorem State.stepPreempt_shf (s : State) (e : Nat) : (s.stepPreempt e).shf = s.shf := by
  unfold State.stepPreempt; dsimp only; (repeat' split) <;> simp
@[simp] theorem State.stepPreempt_stu (s : State) (e : Nat) : (s.stepPreempt e).stu = s.stu := by
  unfold State.stepPreempt; dsimp only; (repeat' split) <;> simp
@[simp] theorem State.stepPreempt_tcs (s : State) (e : Nat) : (s.stepPreempt e).tcs = s.tcs := by
  unfold State.stepPreempt; dsimp only; (repeat' split) <;> simp
@[simp] theorem State.stepPreempt_yoke (s : State) (e : Nat) : (s.stepPreempt e).yoke = s.yoke := by
  unfold State.stepPreempt; dsimp only; (repeat' split) <;> simp
@[simp] theorem State.stepPreempt_nv (s : State) (e : Nat) : (s.stepPreempt e).nv = s.nv := by
  unfold State.stepPreempt; dsimp only; (repeat' split) <;> simp
@[simp] theorem State.stepPreempt_ccx (s : State) (e : Nat) : (s.stepPreempt e).ccx = s.ccx := by
  unfold State.stepPreempt; dsimp only; (repeat' split) <;> simp
@[simp] theorem State.stepPreempt_hcf (s : State) (e : Nat) : (s.stepPreempt e).hcf = s.hcf := by
  unfold State.stepPreempt; dsimp only; (repeat' split) <;> simp
@[simp] theorem State.stepPreempt_dcs (s : State) (e : Nat) : (s.stepPreempt e).dcs = s.dcs := by
  unfold State.stepPreempt; dsimp only; (repeat' split) <;> simp
@[simp] theorem State.stepPreempt_mt (s : State) (e : Nat) : (s.stepPreempt e).mt = s.mt := by
  unfold State.stepPreempt; dsimp only; (repeat' split) <;> simp
@[simp] theorem State.stepPreempt_mdu (s : State) (e : Nat) : (s.stepPreempt e).mdu = s.mdu := by
  unfold State.stepPreempt; dsimp only; (repeat' split) <;> simp
@[simp] theorem State.stepPreempt_ftt (s : State) (e : Nat) : (s.stepPreempt e).ftt = s.ftt := by
  unfold State.stepPreempt; dsimp only; (repeat' split) <;> simp
@[simp] theorem State.stepPreempt_hv (s : State) (e : Nat) : (s.stepPreempt e).hv = s.hv := by
  unfold State.stepPreempt; dsimp only; (repeat' split) <;> simp

@[simp] theorem State.quiesce_pending (s : State) (p : Nat) (o : Option Nat) : (s.quiesce p o).pending = s.pending := by
  rfl
@[simp] theorem State.quiesce_now (s : State) (p : Nat) (o : Option Nat) : (s.quiesce p o).now = s.now := by
  rfl
@[simp] theorem State.quiesce_free (s : State) (p : Nat) (o : Option Nat) : (s.quiesce p o).free = s.free := by
  rfl
@[simp] theorem State.quiesce_su (s : State) (p : Nat) (o : Option Nat) : (s.quiesce p o).su = s.su := by
  rfl
@[simp] theorem State.quiesce_fm (s : State) (p : Nat) (o : Option Nat) : (s.quiesce p o).fm = s.fm := by
  rfl
@[simp] theorem State.quiesce_gs (s : State) (p : Nat) (o : Option Nat) : (s.quiesce p o).gs = s.gs := by
  rfl
@[simp] theorem State.quiesce_sow (s : State) (p : Nat) (o : Option Nat) : (s.quiesce p o).sow = s.sow := by
  rfl
@[simp] theorem State.quiesce_de (s : State) (p : Nat) (o : Option Nat) : (s.quiesce p o).de = s.de := by
  rfl
@[simp] theorem State.quiesce_rla (s : State) (p : Nat) (o : Option Nat) : (s.quiesce p o).rla = s.rla := by
  rfl
@[simp] theorem State.quiesce_sm (s : State) (p : Nat) (o : Option Nat) : (s.quiesce p o).sm = s.sm := by
  rfl
@[simp] theorem State.quiesce_cc (s : State) (p : Nat) (o : Option Nat) : (s.quiesce p o).cc = s.cc := by
  rfl
@[simp] theorem State.quiesce_mrs (s : State) (p : Nat) (o : Option Nat) : (s.quiesce p o).mrs = s.mrs := by
  rfl
@[simp] theorem State.quiesce_link (s : State) (p : Nat) (o : Option Nat) : (s.quiesce p o).link = s.link := by
  rfl
@[simp] theorem State.quiesce_shf (s : State) (p : Nat) (o : Option Nat) : (s.quiesce p o).shf = s.shf := by
  rfl
@[simp] theorem State.quiesce_stu (s : State) (p : Nat) (o : Option Nat) : (s.quiesce p o).stu = s.stu := by
  rfl
@[simp] theorem State.quiesce_tcs (s : State) (p : Nat) (o : Option Nat) : (s.quiesce p o).tcs = s.tcs := by
  rfl
@[simp] theorem State.quiesce_yoke (s : State) (p : Nat) (o : Option Nat) : (s.quiesce p o).yoke = s.yoke := by
  rfl
@[simp] theorem State.quiesce_nv (s : State) (p : Nat) (o : Option Nat) : (s.quiesce p o).nv = s.nv := by
  rfl
@[simp] theorem State.quiesce_ccx (s : State) (p : Nat) (o : Option Nat) : (s.quiesce p o).ccx = s.ccx := by
  rfl
@[simp] theorem State.quiesce_eng (s : State) (p : Nat) (o : Option Nat) : (s.quiesce p o).eng = s.eng := by
  rfl
@[simp] theorem State.quiesce_dcs (s : State) (p : Nat) (o : Option Nat) : (s.quiesce p o).dcs = s.dcs := by
  rfl
@[simp] theorem State.quiesce_pins (s : State) (p : Nat) (o : Option Nat) : (s.quiesce p o).pins = s.pins := by
  rfl
@[simp] theorem State.quiesce_mt (s : State) (p : Nat) (o : Option Nat) : (s.quiesce p o).mt = s.mt := by
  rfl
@[simp] theorem State.quiesce_mesh (s : State) (p : Nat) (o : Option Nat) : (s.quiesce p o).mesh = s.mesh := by
  rfl
@[simp] theorem State.quiesce_pru (s : State) (p : Nat) (o : Option Nat) : (s.quiesce p o).pru = s.pru := by
  rfl
@[simp] theorem State.quiesce_mdu (s : State) (p : Nat) (o : Option Nat) : (s.quiesce p o).mdu = s.mdu := by
  rfl
@[simp] theorem State.quiesce_ftt (s : State) (p : Nat) (o : Option Nat) : (s.quiesce p o).ftt = s.ftt := by
  rfl
@[simp] theorem State.quiesce_tr (s : State) (p : Nat) (o : Option Nat) : (s.quiesce p o).tr = s.tr := by
  rfl
@[simp] theorem State.quiesce_hv (s : State) (p : Nat) (o : Option Nat) : (s.quiesce p o).hv = s.hv := by
  rfl

@[simp] theorem State.finishPlot_pending (s : State) (p : Nat) : (s.finishPlot p).pending = s.pending := by
  unfold State.finishPlot; dsimp only; (repeat' split) <;> simp
@[simp] theorem State.finishPlot_now (s : State) (p : Nat) : (s.finishPlot p).now = s.now := by
  unfold State.finishPlot; dsimp only; (repeat' split) <;> simp
@[simp] theorem State.finishPlot_free (s : State) (p : Nat) : (s.finishPlot p).free = s.free := by
  unfold State.finishPlot; dsimp only; (repeat' split) <;> simp
@[simp] theorem State.finishPlot_su (s : State) (p : Nat) : (s.finishPlot p).su = s.su := by
  unfold State.finishPlot; dsimp only; (repeat' split) <;> simp
@[simp] theorem State.finishPlot_fm (s : State) (p : Nat) : (s.finishPlot p).fm = s.fm := by
  unfold State.finishPlot; dsimp only; (repeat' split) <;> simp
@[simp] theorem State.finishPlot_gs (s : State) (p : Nat) : (s.finishPlot p).gs = s.gs := by
  unfold State.finishPlot; dsimp only; (repeat' split) <;> simp
@[simp] theorem State.finishPlot_sow (s : State) (p : Nat) : (s.finishPlot p).sow = s.sow := by
  unfold State.finishPlot; dsimp only; (repeat' split) <;> simp
@[simp] theorem State.finishPlot_de (s : State) (p : Nat) : (s.finishPlot p).de = s.de := by
  unfold State.finishPlot; dsimp only; (repeat' split) <;> simp
@[simp] theorem State.finishPlot_rla (s : State) (p : Nat) : (s.finishPlot p).rla = s.rla := by
  unfold State.finishPlot; dsimp only; (repeat' split) <;> simp
@[simp] theorem State.finishPlot_sm (s : State) (p : Nat) : (s.finishPlot p).sm = s.sm := by
  unfold State.finishPlot; dsimp only; (repeat' split) <;> simp
@[simp] theorem State.finishPlot_cc (s : State) (p : Nat) : (s.finishPlot p).cc = s.cc := by
  unfold State.finishPlot; dsimp only; (repeat' split) <;> simp
@[simp] theorem State.finishPlot_mrs (s : State) (p : Nat) : (s.finishPlot p).mrs = s.mrs := by
  unfold State.finishPlot; dsimp only; (repeat' split) <;> simp
@[simp] theorem State.finishPlot_link (s : State) (p : Nat) : (s.finishPlot p).link = s.link := by
  unfold State.finishPlot; dsimp only; (repeat' split) <;> simp
@[simp] theorem State.finishPlot_shf (s : State) (p : Nat) : (s.finishPlot p).shf = s.shf := by
  unfold State.finishPlot; dsimp only; (repeat' split) <;> simp
@[simp] theorem State.finishPlot_stu (s : State) (p : Nat) : (s.finishPlot p).stu = s.stu := by
  unfold State.finishPlot; dsimp only; (repeat' split) <;> simp
@[simp] theorem State.finishPlot_tcs (s : State) (p : Nat) : (s.finishPlot p).tcs = s.tcs := by
  unfold State.finishPlot; dsimp only; (repeat' split) <;> simp
@[simp] theorem State.finishPlot_yoke (s : State) (p : Nat) : (s.finishPlot p).yoke = s.yoke := by
  unfold State.finishPlot; dsimp only; (repeat' split) <;> simp
@[simp] theorem State.finishPlot_nv (s : State) (p : Nat) : (s.finishPlot p).nv = s.nv := by
  unfold State.finishPlot; dsimp only; (repeat' split) <;> simp
@[simp] theorem State.finishPlot_ccx (s : State) (p : Nat) : (s.finishPlot p).ccx = s.ccx := by
  unfold State.finishPlot; dsimp only; (repeat' split) <;> simp
@[simp] theorem State.finishPlot_eng (s : State) (p : Nat) : (s.finishPlot p).eng = s.eng := by
  unfold State.finishPlot; dsimp only; (repeat' split) <;> simp
@[simp] theorem State.finishPlot_dcs (s : State) (p : Nat) : (s.finishPlot p).dcs = s.dcs := by
  unfold State.finishPlot; dsimp only; (repeat' split) <;> simp
@[simp] theorem State.finishPlot_pins (s : State) (p : Nat) : (s.finishPlot p).pins = s.pins := by
  unfold State.finishPlot; dsimp only; (repeat' split) <;> simp
@[simp] theorem State.finishPlot_mt (s : State) (p : Nat) : (s.finishPlot p).mt = s.mt := by
  unfold State.finishPlot; dsimp only; (repeat' split) <;> simp

theorem State.foldl_finishPlot_pending (l : Tab Plot) (s : State) : (l.foldl (fun t kv => t.finishPlot kv.1) s).pending = s.pending := by
  induction l generalizing s with
  | nil => rfl
  | cons x r ih => simp [ih]
theorem State.foldl_finishPlot_now (l : Tab Plot) (s : State) : (l.foldl (fun t kv => t.finishPlot kv.1) s).now = s.now := by
  induction l generalizing s with
  | nil => rfl
  | cons x r ih => simp [ih]
theorem State.foldl_finishPlot_free (l : Tab Plot) (s : State) : (l.foldl (fun t kv => t.finishPlot kv.1) s).free = s.free := by
  induction l generalizing s with
  | nil => rfl
  | cons x r ih => simp [ih]
theorem State.foldl_finishPlot_su (l : Tab Plot) (s : State) : (l.foldl (fun t kv => t.finishPlot kv.1) s).su = s.su := by
  induction l generalizing s with
  | nil => rfl
  | cons x r ih => simp [ih]
theorem State.foldl_finishPlot_fm (l : Tab Plot) (s : State) : (l.foldl (fun t kv => t.finishPlot kv.1) s).fm = s.fm := by
  induction l generalizing s with
  | nil => rfl
  | cons x r ih => simp [ih]
theorem State.foldl_finishPlot_gs (l : Tab Plot) (s : State) : (l.foldl (fun t kv => t.finishPlot kv.1) s).gs = s.gs := by
  induction l generalizing s with
  | nil => rfl
  | cons x r ih => simp [ih]
theorem State.foldl_finishPlot_sow (l : Tab Plot) (s : State) : (l.foldl (fun t kv => t.finishPlot kv.1) s).sow = s.sow := by
  induction l generalizing s with
  | nil => rfl
  | cons x r ih => simp [ih]
theorem State.foldl_finishPlot_de (l : Tab Plot) (s : State) : (l.foldl (fun t kv => t.finishPlot kv.1) s).de = s.de := by
  induction l generalizing s with
  | nil => rfl
  | cons x r ih => simp [ih]
theorem State.foldl_finishPlot_rla (l : Tab Plot) (s : State) : (l.foldl (fun t kv => t.finishPlot kv.1) s).rla = s.rla := by
  induction l generalizing s with
  | nil => rfl
  | cons x r ih => simp [ih]
theorem State.foldl_finishPlot_sm (l : Tab Plot) (s : State) : (l.foldl (fun t kv => t.finishPlot kv.1) s).sm = s.sm := by
  induction l generalizing s with
  | nil => rfl
  | cons x r ih => simp [ih]
theorem State.foldl_finishPlot_cc (l : Tab Plot) (s : State) : (l.foldl (fun t kv => t.finishPlot kv.1) s).cc = s.cc := by
  induction l generalizing s with
  | nil => rfl
  | cons x r ih => simp [ih]
theorem State.foldl_finishPlot_mrs (l : Tab Plot) (s : State) : (l.foldl (fun t kv => t.finishPlot kv.1) s).mrs = s.mrs := by
  induction l generalizing s with
  | nil => rfl
  | cons x r ih => simp [ih]
theorem State.foldl_finishPlot_link (l : Tab Plot) (s : State) : (l.foldl (fun t kv => t.finishPlot kv.1) s).link = s.link := by
  induction l generalizing s with
  | nil => rfl
  | cons x r ih => simp [ih]
theorem State.foldl_finishPlot_shf (l : Tab Plot) (s : State) : (l.foldl (fun t kv => t.finishPlot kv.1) s).shf = s.shf := by
  induction l generalizing s with
  | nil => rfl
  | cons x r ih => simp [ih]
theorem State.foldl_finishPlot_stu (l : Tab Plot) (s : State) : (l.foldl (fun t kv => t.finishPlot kv.1) s).stu = s.stu := by
  induction l generalizing s with
  | nil => rfl
  | cons x r ih => simp [ih]
theorem State.foldl_finishPlot_tcs (l : Tab Plot) (s : State) : (l.foldl (fun t kv => t.finishPlot kv.1) s).tcs = s.tcs := by
  induction l generalizing s with
  | nil => rfl
  | cons x r ih => simp [ih]
theorem State.foldl_finishPlot_yoke (l : Tab Plot) (s : State) : (l.foldl (fun t kv => t.finishPlot kv.1) s).yoke = s.yoke := by
  induction l generalizing s with
  | nil => rfl
  | cons x r ih => simp [ih]
theorem State.foldl_finishPlot_nv (l : Tab Plot) (s : State) : (l.foldl (fun t kv => t.finishPlot kv.1) s).nv = s.nv := by
  induction l generalizing s with
  | nil => rfl
  | cons x r ih => simp [ih]
theorem State.foldl_finishPlot_ccx (l : Tab Plot) (s : State) : (l.foldl (fun t kv => t.finishPlot kv.1) s).ccx = s.ccx := by
  induction l generalizing s with
  | nil => rfl
  | cons x r ih => simp [ih]
theorem State.foldl_finishPlot_eng (l : Tab Plot) (s : State) : (l.foldl (fun t kv => t.finishPlot kv.1) s).eng = s.eng := by
  induction l generalizing s with
  | nil => rfl
  | cons x r ih => simp [ih]
theorem State.foldl_finishPlot_dcs (l : Tab Plot) (s : State) : (l.foldl (fun t kv => t.finishPlot kv.1) s).dcs = s.dcs := by
  induction l generalizing s with
  | nil => rfl
  | cons x r ih => simp [ih]
theorem State.foldl_finishPlot_pins (l : Tab Plot) (s : State) : (l.foldl (fun t kv => t.finishPlot kv.1) s).pins = s.pins := by
  induction l generalizing s with
  | nil => rfl
  | cons x r ih => simp [ih]
theorem State.foldl_finishPlot_mt (l : Tab Plot) (s : State) : (l.foldl (fun t kv => t.finishPlot kv.1) s).mt = s.mt := by
  induction l generalizing s with
  | nil => rfl
  | cons x r ih => simp [ih]

@[simp] theorem State.settleEngine_pending (s : State) (e : Nat) : (s.settleEngine e).pending = s.pending := by
  unfold State.settleEngine; dsimp only; (repeat' split) <;> simp [State.foldl_finishPlot_pending]
@[simp] theorem State.settleEngine_now (s : State) (e : Nat) : (s.settleEngine e).now = s.now := by
  unfold State.settleEngine; dsimp only; (repeat' split) <;> simp [State.foldl_finishPlot_now]
@[simp] theorem State.settleEngine_free (s : State) (e : Nat) : (s.settleEngine e).free = s.free := by
  unfold State.settleEngine; dsimp only; (repeat' split) <;> simp [State.foldl_finishPlot_free]
@[simp] theorem State.settleEngine_su (s : State) (e : Nat) : (s.settleEngine e).su = s.su := by
  unfold State.settleEngine; dsimp only; (repeat' split) <;> simp [State.foldl_finishPlot_su]
@[simp] theorem State.settleEngine_fm (s : State) (e : Nat) : (s.settleEngine e).fm = s.fm := by
  unfold State.settleEngine; dsimp only; (repeat' split) <;> simp [State.foldl_finishPlot_fm]
@[simp] theorem State.settleEngine_gs (s : State) (e : Nat) : (s.settleEngine e).gs = s.gs := by
  unfold State.settleEngine; dsimp only; (repeat' split) <;> simp [State.foldl_finishPlot_gs]
@[simp] theorem State.settleEngine_sow (s : State) (e : Nat) : (s.settleEngine e).sow = s.sow := by
  unfold State.settleEngine; dsimp only; (repeat' split) <;> simp [State.foldl_finishPlot_sow]
@[simp] theorem State.settleEngine_de (s : State) (e : Nat) : (s.settleEngine e).de = s.de := by
  unfold State.settleEngine; dsimp only; (repeat' split) <;> simp [State.foldl_finishPlot_de]
@[simp] theorem State.settleEngine_rla (s : State) (e : Nat) : (s.settleEngine e).rla = s.rla := by
  unfold State.settleEngine; dsimp only; (repeat' split) <;> simp [State.foldl_finishPlot_rla]
@[simp] theorem State.settleEngine_sm (s : State) (e : Nat) : (s.settleEngine e).sm = s.sm := by
  unfold State.settleEngine; dsimp only; (repeat' split) <;> simp [State.foldl_finishPlot_sm]
@[simp] theorem State.settleEngine_cc (s : State) (e : Nat) : (s.settleEngine e).cc = s.cc := by
  unfold State.settleEngine; dsimp only; (repeat' split) <;> simp [State.foldl_finishPlot_cc]
@[simp] theorem State.settleEngine_mrs (s : State) (e : Nat) : (s.settleEngine e).mrs = s.mrs := by
  unfold State.settleEngine; dsimp only; (repeat' split) <;> simp [State.foldl_finishPlot_mrs]
@[simp] theorem State.settleEngine_link (s : State) (e : Nat) : (s.settleEngine e).link = s.link := by
  unfold State.settleEngine; dsimp only; (repeat' split) <;> simp [State.foldl_finishPlot_link]
@[simp] theorem State.settleEngine_shf (s : State) (e : Nat) : (s.settleEngine e).shf = s.shf := by
  unfold State.settleEngine; dsimp only; (repeat' split) <;> simp [State.foldl_finishPlot_shf]
@[simp] theorem State.settleEngine_stu (s : State) (e : Nat) : (s.settleEngine e).stu = s.stu := by
  unfold State.settleEngine; dsimp only; (repeat' split) <;> simp [State.foldl_finishPlot_stu]
@[simp] theorem State.settleEngine_tcs (s : State) (e : Nat) : (s.settleEngine e).tcs = s.tcs := by
  unfold State.settleEngine; dsimp only; (repeat' split) <;> simp [State.foldl_finishPlot_tcs]
@[simp] theorem State.settleEngine_yoke (s : State) (e : Nat) : (s.settleEngine e).yoke = s.yoke := by
  unfold State.settleEngine; dsimp only; (repeat' split) <;> simp [State.foldl_finishPlot_yoke]
@[simp] theorem State.settleEngine_nv (s : State) (e : Nat) : (s.settleEngine e).nv = s.nv := by
  unfold State.settleEngine; dsimp only; (repeat' split) <;> simp [State.foldl_finishPlot_nv]
@[simp] theorem State.settleEngine_ccx (s : State) (e : Nat) : (s.settleEngine e).ccx = s.ccx := by
  unfold State.settleEngine; dsimp only; (repeat' split) <;> simp [State.foldl_finishPlot_ccx]
@[simp] theorem State.settleEngine_dcs (s : State) (e : Nat) : (s.settleEngine e).dcs = s.dcs := by
  unfold State.settleEngine; dsimp only; (repeat' split) <;> simp [State.foldl_finishPlot_dcs]
@[simp] theorem State.settleEngine_mt (s : State) (e : Nat) : (s.settleEngine e).mt = s.mt := by
  unfold State.settleEngine; dsimp only; (repeat' split) <;> simp [State.foldl_finishPlot_mt]

/-! ### The core of an engine -/

theorem State.engine_modEngine_core (s : State) (e f : Nat) {g : Engine → Engine} (h : ∀ r, (g r).core = r.core) :
    ((s.modEngine e g).engine f).core = (s.engine f).core := by
  by_cases hf : f = e
  · subst hf; simp [h]
  · rw [State.engine_modEngine_of_ne _ _ hf]

@[simp] theorem State.nextNotice_core (s : State) (e f : Nat) : ((s.nextNotice e).engine f).core = (s.engine f).core := by
  unfold State.nextNotice
  dsimp only
  (repeat' split) <;> try rfl
  all_goals (rw [State.engine_issue]; exact State.engine_modEngine_core _ _ _ (fun r => rfl))
@[simp] theorem State.sendNotice_core (s : State) (e k fn g f : Nat) :
    ((s.sendNotice e k fn g).engine f).core = (s.engine f).core := by
  unfold State.sendNotice
  rw [State.nextNotice_core]
  exact State.engine_modEngine_core _ _ _ (fun r => rfl)
@[simp] theorem State.consumeNotice_core (s : State) (e k f : Nat) :
    ((s.consumeNotice e k).engine f).core = (s.engine f).core := by
  unfold State.consumeNotice
  (repeat' split) <;> try rfl
  · rw [State.nextNotice_core]
    exact State.engine_modEngine_core _ _ _ (fun r => rfl)
  · exact State.engine_modEngine_core _ _ _ (fun r => rfl)
@[simp] theorem State.answered_core (s : State) (e f : Nat) : ((s.answered e).engine f).core = (s.engine f).core := by
  unfold State.answered
  rw [State.consumeNotice_core]
  exact State.engine_modEngine_core _ _ _ (fun r => rfl)
@[simp] theorem State.dropSlice_core (s : State) (p : Preempt) (f : Nat) :
    ((s.dropSlice p).engine f).core = (s.engine f).core := by
  unfold State.engine
  rw [State.dropSlice_eng]
@[simp] theorem State.drivePreempt_core (s : State) (e f : Nat) (p : Preempt) :
    ((s.drivePreempt e p).engine f).core = (s.engine f).core := by
  unfold State.drivePreempt
  dsimp only
  rw [State.engine_capture]
  rw [State.engine_modEngine_core _ _ _ (fun r => by rfl)]
  split <;> rfl
@[simp] theorem State.noteSave_core (s : State) (e f : Nat) (p : Preempt) :
    ((s.noteSave e p).engine f).core = (s.engine f).core := by
  unfold State.noteSave
  dsimp only
  split
  · rw [State.sendNotice_core]
    split
    · rw [State.engine_modPlot]
      exact State.engine_modEngine_core _ _ _ (fun r => rfl)
    · exact State.engine_modEngine_core _ _ _ (fun r => rfl)
  · rfl
@[simp] theorem State.stepPreempt_core (s : State) (e f : Nat) :
    ((s.stepPreempt e).engine f).core = (s.engine f).core := by
  unfold State.stepPreempt
  dsimp only
  (repeat' split) <;> try simp
  exact State.engine_modEngine_core _ _ _ (fun r => rfl)

/-- Settling an engine changes at most preempt requests, notices and moves among what an engine's record holds. -/
@[simp] theorem State.settleEngine_core (s : State) (e f : Nat) :
    ((s.settleEngine e).engine f).core = (s.engine f).core := by
  unfold State.settleEngine
  dsimp only
  split
  · unfold State.engine
    rw [State.foldl_finishPlot_eng]
    dsimp only
    split
    · have h := State.engine_modEngine_core (s.stepPreempt e) e f
        (g := fun r => { r with moving := none, lent := !r.lent }) (fun r => rfl)
      exact h.trans (State.stepPreempt_core s e f)
    · exact State.stepPreempt_core s e f
  · exact State.stepPreempt_core s e f

@[simp] theorem State.settleEngine_front (s : State) (e f : Nat) :
    ((s.settleEngine e).engine f).front = (s.engine f).front :=
  congrArg (·.front) (State.settleEngine_core s e f)
@[simp] theorem State.settleEngine_back (s : State) (e f : Nat) :
    ((s.settleEngine e).engine f).back = (s.engine f).back :=
  congrArg (·.back) (State.settleEngine_core s e f)
@[simp] theorem State.settleEngine_started (s : State) (e f : Nat) :
    ((s.settleEngine e).engine f).started = (s.engine f).started :=
  congrArg (·.started) (State.settleEngine_core s e f)
@[simp] theorem State.settleEngine_inc (s : State) (e f : Nat) :
    ((s.settleEngine e).engine f).inc = (s.engine f).inc :=
  congrArg (·.inc) (State.settleEngine_core s e f)
@[simp] theorem State.settleEngine_seqx (s : State) (e f : Nat) :
    ((s.settleEngine e).engine f).seqx = (s.engine f).seqx :=
  congrArg (·.seqx) (State.settleEngine_core s e f)
@[simp] theorem State.settleEngine_nextSeq (s : State) (e f : Nat) :
    ((s.settleEngine e).engine f).nextSeq = (s.engine f).nextSeq :=
  congrArg (·.nextSeq) (State.settleEngine_core s e f)
@[simp] theorem State.settleEngine_token (s : State) (e f : Nat) :
    ((s.settleEngine e).engine f).token = (s.engine f).token :=
  congrArg (·.token) (State.settleEngine_core s e f)
@[simp] theorem State.settleEngine_service (s : State) (e f : Nat) :
    ((s.settleEngine e).engine f).service = (s.engine f).service :=
  congrArg (·.service) (State.settleEngine_core s e f)
@[simp] theorem State.settleEngine_eres (s : State) (e f : Nat) :
    ((s.settleEngine e).engine f).eres = (s.engine f).eres :=
  congrArg (·.eres) (State.settleEngine_core s e f)
@[simp] theorem State.settleEngine_flushed (s : State) (e f : Nat) :
    ((s.settleEngine e).engine f).flushed = (s.engine f).flushed :=
  congrArg (·.flushed) (State.settleEngine_core s e f)
@[simp] theorem State.settleEngine_emptyOk (s : State) (e f : Nat) :
    ((s.settleEngine e).engine f).emptyOk = (s.engine f).emptyOk :=
  congrArg (·.emptyOk) (State.settleEngine_core s e f)
@[simp] theorem State.settleEngine_testAt (s : State) (e f : Nat) :
    ((s.settleEngine e).engine f).testAt = (s.engine f).testAt :=
  congrArg (·.testAt) (State.settleEngine_core s e f)
@[simp] theorem State.settleEngine_idleFrom (s : State) (e f : Nat) :
    ((s.settleEngine e).engine f).idleFrom = (s.engine f).idleFrom :=
  congrArg (·.idleFrom) (State.settleEngine_core s e f)
@[simp] theorem State.settleEngine_freeAt (s : State) (e f : Nat) :
    ((s.settleEngine e).engine f).freeAt = (s.engine f).freeAt :=
  congrArg (·.freeAt) (State.settleEngine_core s e f)


end Sys2Proof.Machine
end

