-- ==== Sys2Proof/Tests/Slice0.lean ====
section
/-! SUPPORT. Tests: ill-formed terms that WellFormed refuses, and for every statement a state and operands that meet its
hypotheses, with what the command then does. Expected values are worked out from the spec's rules by hand. -/
namespace Sys2Proof.Tests

-- One theorem at a time: each is evaluated by the kernel, and many at once would need a thread each.
set_option Elab.async false

open Sys2Proof.Machine

/-! ### Helpers -/

/-- A packet of the words given. -/
def pkt (ws : Words) : BitVec 512 := BitVec.ofNat 512 (wordsNat ws)
/-- A segment of 4 GiB at physical 0x100000 that allows everything in every plot. -/
def seg0 : Seg := { Seg.reset with
  base := 0x100, limit := 0xFFFFF, rd := true, wr := true, ex := true, anyplot := true, valid := true }
/-- A released block at sc 100,000, function 0 with a segment, every function mastering. -/
def up : State := { State.reset with
  now := 100000
  su := { StartUp.reset with step := 9, released := true, alignDone := true, pulseAt := some 0 }
  pins := { Pins.reset with up := BitVec.allOnes 512, bme := BitVec.allOnes 256, numvf := 255, lsUp := 3 }
  pru := ⟨[], [(0, seg0)], 0⟩ }
/-- Queue 0 of function 0, RUNNING with one packet. -/
def running (p : BitVec 512) : Queue := { Queue.reset with
  enable := true, st := .running, wptr := 1, win := [⟨0, 0, false, p⟩], timer := some 0 }
/-- The block with packet `p` at the head of queue 0. -/
def onQ (p : BitVec 512) : State := { up with hcf := ⟨[(0, running p)], 16383⟩ }
/-- The state after a command; `State.reset` would stand for a stop. -/
def after (o : Host.Outcome State Fault Refusal) : State :=
  match o with
  | .next t => t
  | _ => State.reset
/-- A secure requester. -/
def boss : Req := ⟨0, true, .host, 0⟩
/-- Function 7, not secure. -/
def guest : Req := ⟨7, false, .host, 0⟩
/-- Engine 3. -/
def engReq : Req := ⟨0, false, .engine, 3⟩

/-- An OPEN graph of function 0: 4 nodes, 4 edges, 2 bank pages. -/
def graph0 : Machine.Graph := newGraph 0 (pkt [0x08, 0, 4 + 0x20000000, 4]) 0 0 0
/-- It SEALED. -/
def sealed0 : Machine.Graph := { graph0 with st := .sealed }
/-- A live sowing 0 of graph 5 of function 0, launched by queue 0. -/
def sow0 : Sowing where
  fn := 0
  id := 0
  graph := 5
  bankB := false
  plot := 0
  queue := 0
  st := .active
  ordinal := 0
  ctr := []
  blocks := 1
  startAt := 90000
  rootsFrom := 90008
  rootsAt := some 90008
  area := 0
  fanin := .done
  roots := []
  nextRoot := 0
  firstRoot := none
  rootsDone := true
  launching := false
  code := 0
  done := 0
  lost := 0
  retired := 0
  endedAt := 0
  retOrd := 0
  never := 0
  digest := 0
  layers := []
  layerWait := []
  act := EndAct.nil
  phase := .waiting
  kindAbsent := false
  cyc := none
  step := none
/-- `s` with graph 5. -/
def withGraph (g : Machine.Graph) (s : State) : State := { s with gs := { s.gs with graphs := [(5, g)] } }
/-- `s` with sowing 0 of function 0. -/
def withSow (w : Sowing) (s : State) : State := { s with sow := { s.sow with
  live := [(0, w)], nextId := [(0, 1)], lastId := [(0, some 0)], ordinal := 1 } }
/-- `s` with engine 0 active and in record `r`. -/
def withEng (r : Engine) (s : State) : State := { s with
  fm := { s.fm with active := { s.fm.active with engines := [(0, { EngCfg.reset with active := true })] } }
  eng := [(0, r)] }


/-! ### The machine -/

theorem wit_StepsRunTheFrontCommand :
    ({ up with pending := [.nop 0] }).pending = [.nop 0] ∧ up.pending = [] ∧ (after (step up)).now = 100001 := by decide +kernel

/-- BLOCK_RESET with an operation of the store in progress: a read, a program and an erase (R64). -/
theorem wit_ResetLeaves :
    let s (op : NvOp) : State := { up with nv := { up.nv with words := [(5, 7), (513, 8)], ops := [op], issued := some 0 } }
    let go (op : NvOp) : State := after (exec .blockReset (s op))
    (go (.read 5 1)).nv.words = [(5, 7), (513, 8)] ∧ (go (.program 6 1)).nvWord 5 = 7 ∧ (go (.erase 0)).nvWord 513 = 8
      ∧ after (exec .blockReset up) = { State.reset with pins := { up.pins with jtag := (after (exec .blockReset up)).pins.jtag } } := by
  decide +kernel

theorem wit_FatalFreezesTheBlock :
    let s : State := { up with ftt := { up.ftt with fatal := true, fatalInfo := pack [(40, 1, 1)] }, pending := [.helloSend] }
    s.ftt.fatal = true ∧ bit s.ftt.fatalInfo 40 = true ∧ Instr.helloSend ≠ .blockReset
      ∧ after (step s) = { s with pending := [] } := by decide +kernel

/-- The invariant of FatalInfoStaysValid holds at reset, and after an error that is FATAL. -/
theorem wit_FatalInfoStaysValid :
    (State.reset.ftt.fatal = true → bit State.reset.ftt.fatalInfo 40 = true)
      ∧ (up.goFatal 2 7).ftt.fatal = true ∧ bit (up.goFatal 2 7).ftt.fatalInfo 40 = true := by decide +kernel

/-- LAUNCH_GRAPH of handle 5, which is free (R66). -/
theorem wit_HandlesBelongToTheirFunction :
    let p := pkt [0x50010]
    (onQ p).heads 0 p ∧ opcode p = 0x10 ∧ (endActOf p).semv = false ∧ (onQ p).graph? (handleOf p) = none
      ∧ ((after (exec (commandOf 0 p) (onQ p))).queue 0).rptr = 1 := by decide +kernel

/-! ### Queues -/

/-- NOP with RREC to 0x1000 of segment 0: the record goes to 0x101000 (R201). -/
theorem wit_RetirementMovesTheHead :
    let p := pkt [0x200, 0x1000]
    let s := onQ p
    s.headPacket? 0 = some p ∧ haltsQueue 0 = false ∧ halterr p = false ∧ (s.queue 0).haltAfter = none ∧ rrec p = true
      ∧ (s.queue 0).inbuf = false ∧ s.translate 0 (pw p 1) 16 .write (some 0) false = .ok 0x101000
      ∧ s.mesh.out.length < 512 ∧ s.pins.bme.getLsbD 0 = true
      ∧ ((s.retire 0 0 0).queue 0).st = .idle ∧ (s.retire 0 0 0).mesh.out.map (·.addr) = [0x101000] := by decide +kernel

/-- The same behind an earlier record of its queue (R204). -/
theorem wit_ResultsKeepTheirOrder :
    let s := { onQ (pkt [0x200, 0x1000]) with mesh := ⟨[⟨0, .result 0, 0, 3, true, 0x101010, 16, [0, 0], none, none, 0, none, false, 0, []⟩], []⟩ }
    s.su.alignDone = true ∧ (s.mesh.out.map (·.purpose)) = [.result 0]
      ∧ (s.retire 0 0 0).mesh.waiting.map (·.addr) = [0x101000] ∧ (s.retire 0 0 0).mesh.out = s.mesh.out := by decide +kernel

/-- The last packet of a buffer, and one before it (R206). -/
theorem wit_RetirementInABuffer :
    let b : Queue := { running (pkt [0]) with inbuf := true, buf := pkt [0x200000001] }
    let s : State := { up with hcf := ⟨[(0, b), (1, { b with bpos := 1 })], 16383⟩ }
    (s.queue 0).bpos + 1 < pf (s.queue 0).buf 0 32 21 ∧ pf (s.queue 1).buf 0 32 21 ≤ (s.queue 1).bpos + 1
      ∧ ((s.retire 0 0 0).queue 0).bpos = 1 ∧ ((s.retire 1 0 0).queue 1).rptr = 1 := by decide +kernel

theorem wit_HaltingLeavesTheHead :
    let p := pkt [0x400]
    let s := onQ p
    s.headPacket? 0 = some p ∧ haltsQueue stSegFault = true ∧ halterr p = true ∧ rrec p = false
      ∧ (s.queue 0).haltAfter = none ∧ (s.faultQ 0).recs.length < 64
      ∧ (s.faultQ 0).quiet (0x200 + stSegFault) s.now = true ∧ (s.faultQ 0).freshAt ≠ s.now
      ∧ ((s.retire 0 0x14 0).queue 0).code = 0x14 := by decide +kernel

/-- A NOP with a reserved bit set (R211). -/
theorem wit_InvalidPacketHaltsItsQueue :
    let p := pkt [0x800]
    let s := onQ p
    s.alive = true ∧ s.headPacket? 0 = some p ∧ (s.queue 0).ready = true ∧ s.ftt.resets.look? 0 = none
      ∧ s.validate 0 p ≠ 0 ∧ (s.queue 0).haltAfter = none ∧ s.inSc.began = false ∧ s.nextServed = some 0
      ∧ ((after (exec (commandOf 0 p) s)).queue 0).st = .halted := by decide +kernel

theorem wit_FrontEndCommandsComplete :
    let nop := pkt [0]
    let buf := pkt [0x200000001, 0, 0x40]
    let sync := pkt [2]
    let in' := { up with hcf := ⟨[(0, { running buf with inbuf := true, buf := buf })], 16383⟩ }
    (onQ nop).heads 0 nop ∧ (onQ buf).heads 0 buf ∧ ((onQ buf).queue 0).inbuf = false ∧ (onQ sync).heads 0 sync
      ∧ opcode nop = 0 ∧ opcode buf = 1 ∧ opcode sync = 2
      ∧ ((after (exec (.buffer 0) (onQ buf))).queue 0).inbuf = true
      ∧ ((after (exec (.nop 0) (onQ nop))).queue 0).rptr = 1
      ∧ in'.heads 0 buf ∧ (in'.queue 0).inbuf = true ∧ after (exec (.buffer 0) in') = (in'.serve 0).retire 0 stBadCommand 0 := by decide +kernel


theorem wit_FenceWaitsForEndActions :
    let sow (id : W64) := pkt [0x100000003, 0, id]
    let prior := pkt [3]
    let live := withSow sow0
    let now (p : BitVec 512) : BitVec 512 × Bool := (p, decide ((live (onQ p)).heads 0 p)
      && decide (after (exec (.fence 0) (live (onQ p))) = ((live (onQ p)).serve 0).retire 0 0x15 0))
    let gone := { onQ (sow 0) with sow := { up.sow with nextId := [(0, 1)], lastId := [(0, some 0)] } }
    (onQ (sow 0)).heads 0 (sow 0) ∧ opcode (sow 0) = 3 ∧ pf (sow 0) 0 32 2 = 1
      ∧ (onQ (sow 0)).sow.lastId.look none 0 = none
      ∧ (live (onQ (sow 0))).sow.lastId.look none 0 = some 0 ∧ idLater 0 0 = false ∧ idLater 1 0 = true
      ∧ ((after (exec (.fence 0) (live (onQ (sow 0))))).queue 0).wait = 6
      ∧ ((after (exec (.fence 0) (live (onQ (sow 1))))).queue 0).rptr = 1
      ∧ (onQ prior).fencedPrior 0 = false ∧ (live (onQ prior)).fencedPrior 0 = true
      ∧ ((after (exec (.fence 0) (live (onQ prior)))).queue 0).st = .stalled
      ∧ nowait (now (pkt [0x100000103, 0, 0])).1 = true ∧ (now (pkt [0x100000103, 0, 0])).2 = true
      ∧ nowait (now (pkt [0x103])).1 = true ∧ (now (pkt [0x103])).2 = true
      ∧ gone.heads 0 (sow 0) ∧ gone.sowing? (sowKey 0 0) = none ∧ after (exec (.fence 0) gone) = (gone.serve 0).retire 0 0 0 := by decide +kernel

/-- A doorbell to an IDLE queue, one beyond the ring, a ring outside its segment. -/
theorem wit_QueueRegistersAct :
    let idle : Queue := { Queue.reset with enable := true, st := .idle }
    let s : State := { up with hcf := ⟨[(0, idle), (1, { idle with st := .halted, wptr := 3, code := 5 })], 16383⟩ }
    let u : State := { up with hcf := ⟨[(1, { idle with st := .halted }), (2, { idle with st := .running, head := .load })], 16383⟩ }
    s.ftt.fatal = false ∧ s.pageOk boss 0 = true ∧ s.inReset 0 = false
      ∧ ((64 : BitVec 32) - idle.rptr).toNat ≤ 2 ^ idle.size ∧ 2 ^ idle.size < ((65 : BitVec 32) - idle.rptr).toNat
      ∧ ((after (exec (.hcfQdb boss 0 64) s)).queue 0).st = .running
      ∧ ((after (exec (.hcfQdb boss 0 65) s)).faultQ 0).recs.length = 1
      ∧ ((after (exec (.resume boss 1) s)).queue 1).st = .running
      ∧ ((after (exec (.skip boss 1) s)).queue 1).rptr = 1
      ∧ ((after (exec (.halt boss 0 1) s)).queue 0).st = .halted
      ∧ ((after (exec (.queueDisable boss 0 6) s)).queue 0).st = .disabled
      ∧ (s.queue 0).st ≠ .halted ∧ (after (exec (.resume boss 0) s)).hcf = s.hcf
      ∧ (u.queue 2).head.underway = true ∧ ((after (exec (.halt boss 2 1) u)).queue 2).haltAfter = some ⟨0, false, none⟩
      ∧ (u.queue 1).rptr = (u.queue 1).wptr ∧ ((after (exec (.resume boss 1) u)).queue 1).st = .idle := by decide +kernel

theorem wit_QueueEnables :
    let s := up
    (s.queue 0).enable = false ∧ (s.queue 0).st = .disabled
      ∧ s.translate 0 0 (64 * 2 ^ 6) .read (some 0) true = .ok 0x100000
      ∧ ((after (exec (.queueEnable boss 0 0) s)).queue 0).st = .idle
      ∧ ((after (exec (.queueEnable boss 64 0) s)).queue 64).st = .halted
      ∧ ((after (exec (.hcfQptrWrite boss 0 7) s)).queue 0).wptr = 7 := by decide +kernel

theorem wit_QueuesFetchAndTimeOut :
    let q : Queue := { running (pkt [0]) with win := [], armed := 50 }
    let s : State := { up with hcf := ⟨[(0, q), (64, q)], 16383⟩ }
    s.alive = true ∧ q.nextFetch = some (0, 0, false) ∧ q.held = false ∧ q.fetching = false ∧ s.inReset 0 = false
      ∧ s.translate 0 (q.fetchAddr (0, 0, false)) 64 .read (some 0) true = .ok 0x100000
      ∧ s.translate 1 (q.fetchAddr (0, 0, false)) 64 .read (some 0) true = .fault
      ∧ ((after (exec (.commandFetch 0) s)).mesh.out.map (·.bytes)) = [64]
      ∧ ((after (exec (.commandFetch 64) s)).queue 64).st = .halted
      ∧ q.timer = some 0 ∧ q.armed * 2000 ≤ q.spent + (s.now - 0) ∧ s.timedSowings 0 = [] ∧ q.head.underway = false
      ∧ s.sm.waiters = [] ∧ (s.faultQ 0).quiet 0x218 s.now = true ∧ (s.faultQ 0).freshAt ≠ s.now
      ∧ ((after (exec (.queueTimeout 0) s)).queue 0).code = 0x18 := by decide +kernel

/-- The trace of an enabled stream with one event, 256 sc old; a harvest. -/
theorem wit_HarvestAndTrace :
    let p := pkt [0x21]
    let t : Trace := { Trace.reset with enable := true, stream := true, fill := 1, bwptr := 1, lastAt := 0 }
    let s : State := { onQ p with tr := t, hv := { up.hv with held := true, skipped := ⟨3, 0, 1⟩ } }
    let f1 : State := { up with hcf := ⟨[(64, running p)], 16383⟩ }
    s.heads 0 p ∧ opcode p = 0x21 ∧ fnOfQueue 0 = 0 ∧ s.ftt.fatal = false ∧ s.globalOk boss = true
      ∧ s.streamReady = true ∧ s.tr.burst = 1 ∧ s.tr.enable = true
      ∧ f1.heads 64 p ∧ after (exec (.harvest 64) f1) = (f1.serve 64).retire 64 stBadCommand 0
      ∧ (after (exec (.harvest 0) s)).hv.asked = [0] ∧ (after (exec (.harvest 0) s)).beginSc.hv.want = [0] ∧ (after (exec (.hvDone boss) s)).hv.held = false
      ∧ (after (exec (.hvStatRead boss) s)).hv.skipped = Rc.zero
      ∧ (after (exec (.trCtrlWrite boss 0) s)).tr.enable = false
      ∧ (after (exec .traceStreamBurst s)).mesh.out.map (·.bytes) = [32] := by decide +kernel

/-! ### Semaphores and programs -/

/-- Semaphore 3 holds 5; its block admits every function, and queue 0 declares 0 to 63 (R228, R237). -/
def semState (op : Nat) (v0 v1 : Int) : State :=
  let p := pkt [0x18, 0, pack [(0, 18, 3), (18, 4, op), (32, 32, (v0 % 4294967296).toNat)], BitVec.ofInt 64 (v1 % 4294967296)]
  { up with
    hcf := ⟨[(0, { running p with decl := [(0, pack [(18, 19, 64)])] })], 16383⟩
    sm := { up.sm with vals := [(3, 5)], acl := [(0, pack [(17, 1, 1)])] } }
/-- Its packet. -/
def semPkt (op : Nat) (v0 v1 : Int) : BitVec 512 := ((semState op v0 v1).headPacket? 0).getD 0

/-- Each operation's hypotheses hold, and its value (R231). -/
theorem wit_SemaphoreCommands :
    let good (op : Nat) (v0 v1 : Int) (c : Instr) (v : BitVec 32) : Bool :=
      decide ((semState op v0 v1).heads 0 (semPkt op v0 v1)) && decide (opcode (semPkt op v0 v1) = 0x18)
        && decide ((semState op v0 v1).semCheck 0 0 3 op = 0) && (semState op v0 v1).resultsAcked 0
        && decide ((after (exec c (semState op v0 v1))).semVal 3 = v)
    good 0 0 0 (.semRead 0) 5 = true ∧ good 1 9 0 (.semSet 0) 9 = true ∧ good 2 (-7) 0 (.semAdd 0) (-2) = true
      ∧ good 2 2147483647 0 (.semAdd 0) 5 = true ∧ good 3 4 0 (.semMax 0) 5 = true ∧ good 4 5 8 (.semCas 0) 8 = true
      ∧ good 5 5 0 (.semTryAcquire 0) 0 = true ∧ good 5 6 0 (.semTryAcquire 0) 5 = true
      ∧ good 6 5 0 (.semWaitGe 0) 5 = true ∧ good 6 6 0 (.semWaitGe 0) 5 = true ∧ good 7 5 0 (.semWaitEq 0) 5 = true
      ∧ good 7 4 0 (.semWaitEq 0) 5 = true ∧ good 8 5 0 (.semAcquire 0) 0 = true
      ∧ good 8 6 0 (.semAcquire 0) 5 = true := by decide +kernel

/-- Waits that are not satisfied stall the queue; a value out of range and a short TRY_ACQUIRE end with their status. -/
theorem test_semaphore_waits :
    ((after (exec (.semAcquire 0) (semState 8 6 0))).queue 0).wait = 7
      ∧ ((after (exec (.semWaitGe 0) (semState 6 6 0))).queue 0).wait = 7
      ∧ ((after (exec (.semWaitEq 0) (semState 7 4 0))).queue 0).wait = 7
      ∧ ((after (exec (.semTryAcquire 0) (semState 5 6 0))).queue 0).rptr = 1 := by decide +kernel

/-- A block that belongs to function 9, and an undeclared semaphore (R228, R238). -/
theorem wit_SemaphoreRefusals :
    let s := semState 1 9 0
    let p := semPkt 1 9 0
    let a : State := { s with sm := { s.sm with acl := [(0, pack [(0, 8, 9)])] } }
    let b : State := { s with hcf := ⟨[(0, running p)], 16383⟩ }
    a.heads 0 p ∧ a.resultsAcked 0 = true ∧ fld (a.sm.acl.look 0 0) 0 8 ≠ 0 ∧ bit (a.sm.acl.look 0 0) 17 = false
      ∧ b.heads 0 p ∧ bit (b.sm.acl.look 0 0) 17 = true ∧ declares ((b.queue 0).decl.look 0 0) 3 = false
      ∧ after (exec (commandOf 0 p) a) = (a.serve 0).retire 0 0x20 0
      ∧ after (exec (commandOf 0 p) b) = (b.serve 0).retire 0 0x16 0 := by decide +kernel

/-- Two ACQUIREs of 4 and a WAIT_GE behind them, on a value of 5 (R233). -/
theorem wit_SemaphoreWaitsInOrder :
    let w (op : Nat) (v : BitVec 32) (q : Nat) : SemWait := ⟨3, op, v, .queue q, 0⟩
    let s := { semState 1 9 0 with hcf := ⟨(semState 1 9 0).hcf.queues ++ [(2, running (pkt [0x18]))], 16383⟩ }
    (semPass 3 [w 8 4 1] 5 false).2.2.toInt < (w 8 4 2).val0.toInt ∧ (w 8 4 2).op = 8
      ∧ (semPass 3 [w 8 4 1, w 8 4 2, w 8 1 4, w 6 1 5] 5 false).1 = [w 8 4 2, w 8 1 4]
      ∧ s.semVal 3 ≠ 9 ∧ pf (semPkt 1 9 0) 2 18 4 = 1
      ∧ s.headPacket? 2 ≠ none ∧ (w 6 9 2).val0.toInt ≤ (9 : BitVec 32).toInt
      ∧ ((after (exec (.semSet 0) { s with sm := { s.sm with waiters := [w 6 9 2] } })).queue 2).rptr = 1 := by decide +kernel

/-- Queues 0 and 1 wait in a circle (R244, R245). -/
theorem wit_WaitCyclesAreBroken :
    let c : List Snap := [(0, 3, 10, 0), (1, 4, 20, 0)]
    let q := { running (semPkt 8 6 0) with st := .stalled, head := .sem, wait := 7 }
    let s : State := { up with
      hcf := ⟨[(0, q), (1, q)], 16383⟩
      sm := { up.sm with snapshot := some [c], waiters := [⟨3, 8, 6, .queue 0, 10⟩, ⟨4, 8, 6, .queue 1, 20⟩] } }
    s.alive = true ∧ s.victim c = some (1, 4, 20, 0) ∧ s.sameWait (1, 4, 20, 0) = true ∧ s.headPacket? 1 ≠ none
      ∧ s.sameWait (1, 4, 21, 0) = false ∧ ((after (exec .waitCycleBreak s)).queue 1).code = 0x17
      ∧ ((after (exec .waitCycleBreak s)).queue 0).st = .stalled := by decide +kernel

/-- A program of queue 0 that runs. -/
def prog0 : Program := ⟨0, 0, 1, some 90000, 0, [], [], [], none, 0, false, none⟩
/-- It stands at an ecall of service `n` with arguments `a`, `b`, `c` (R224). -/
def calls (n a b c : W64) : Program :=
  { prog0 with mem := [(0, 0x73)], code := [(0, 0x73)], regs := [(10, a), (11, b), (12, c), (17, n)] }
/-- It stands at the instruction word `w`. -/
def atWord (w : W64) : Program := { prog0 with mem := [(0, w)], code := [(0, w)], regs := [(10, 7), (11, 3)] }

/-- CORE_CALL of 4,096 B at 0, entry 0x10, budget 1 (R221, R222). -/
theorem wit_ProgramsRunInSandboxes :
    let p := pkt [0x100000022, 0, 0, pack [(0, 17, 4096), (32, 16, 0x10)], 1, 2, 3, 4]
    let s := onQ p
    let t := after (exec (.coreCall 0) s)
    let u := after (exec (.coreCallStart 0) t)
    let r := (u.prog? 0).getD prog0
    s.heads 0 p ∧ opcode p = 0x22 ∧ s.freeSandbox? = some 0 ∧ t.ccx.waiting = [0] ∧ (t.queue 0).wait = 9
      ∧ t.translate 0 (pw p 2) (pf p 3 0 17) .read (some 0) false = .ok 0x100000
      ∧ r.pc = 0x10 ∧ r.regs.look 0 10 = 1 ∧ u.mesh.out.map (·.bytes) = [4096] := by decide +kernel

/-- Sandbox 1 runs `r`; semaphore 3 as in `semState`. -/
def withProg (r : Program) : State := { semState 0 0 0 with ccx := { up.ccx with progs := [(1, r)] } }

/-- EXIT by the service and at the exit address, a trap and the budget, with no store out and with one (R222, R223, R225). -/
theorem wit_ProgramsEnd :
    let x := calls 0 7 0 0
    let s := withProg x
    let b := withProg { x with stores := 1 }
    let e := withProg { prog0 with pc := 0x18000, regs := [(10, 7)] }
    let t := withProg prog0
    let gone (s : State) : State := { s with ccx := { s.ccx with progs := [] } }
    s.prog? 1 = some x ∧ x.runs = true ∧ x.calls 0 = true ∧ x.reg 10 = 7 ∧ x.start = some 90000 ∧ 90000 + x.budget * 2000 ≤ s.now
      ∧ after (exec (.ecallExit 1 7) s) = (gone s).retire 0 0 7 ∧ after (exec (.ecallExit 1 7) e) = (gone e).retire 0 0 7
      ∧ { prog0 with pc := 0x18000 }.atExit = true ∧ prog0.traps = true
      ∧ after (exec (.coreTrap 1) t) = (gone t).retire 0 0x1B 0
      ∧ after (exec (.coreBudget 1) s) = (gone s).retire 0 0x1C 0
      ∧ (after (exec (.ecallExit 1 7) b)).prog? 1 = some { x with stores := 1, exiting := some (0, 7) } := by decide +kernel

/-- One instruction of a program: add a0, a0, a1 (0x00B50533), c.li a0, -1 (0x557D), amoadd.w a0, a1, (x0), and an ecall, at
which it stays (R222 to R224). -/
theorem wit_ProgramsStep :
    let run (r : Program) : Option Program := (withProg r).runProgram 1 |>.prog? 1
    (atWord 0x00B50533).fetch = some (.op .add false 10 10 11, 4) ∧ (atWord 0x00B50533).runs = true
      ∧ (run (atWord 0x00B50533)).map (fun r => (r.reg 10, r.pc)) = some (10, 4)
      ∧ (run (atWord 0x557D)).map (fun r => (r.reg 10, r.pc)) = some (-1, 2)
      ∧ (run (atWord 0x00B0252F)).map (fun r => (r.reg 10, r.mem)) = some (0xB0252F, [(0, 0xB02532)])
      ∧ (calls 4 0 0 0).turn 0 = none ∧ (calls 4 0 0 0).turn 1 = none ∧ run (calls 4 0 0 0) = some (calls 4 0 0 0) := by
  decide +kernel

/-- The services (R224); SEM's operation 5 with operand 1 and with 6, and its operation 6, which traps. -/
theorem wit_ProgramServices :
    let go (n a b c : W64) (i : Instr) : State := after (exec i (withProg (calls n a b c)))
    let s := withProg prog0
    let a0 (t : State) : Option W64 := (t.prog? 1).map fun r => r.reg 10
    s.translate 0 8 8 .read (some 0) false = .ok 0x100008 ∧ s.translate 0 8 8 .write (some 0) false = .ok 0x100008
      ∧ (calls 1 8 0 0).calls 1 = true ∧ (calls 2 8 9 0).calls 2 = true ∧ (calls 4 0 0 0).calls 4 = true
      ∧ (go 1 8 0 0 (.ecallLoad 1 8)).mesh.out.map (·.addr) = [0x100008]
      ∧ (go 2 8 9 0 (.ecallStore 1 8 9)).mesh.out.map (·.data) = [[9]]
      ∧ a0 (go 4 0 0 0 (.ecallNow 1)) = some (s.dlyNow.zeroExtend 64)
      ∧ s.semCheck 0 0 3 5 = 0 ∧ s.sm.waiters = [] ∧ (calls 3 3 5 1).calls 3 = true
      ∧ (go 3 3 5 1 (.ecallSem 1 3 5 1)).semVal 3 = 4 ∧ (go 3 3 5 6 (.ecallSem 1 3 5 6)).semVal 3 = 5
      ∧ a0 (go 3 3 5 6 (.ecallSem 1 3 5 6)) = some 5
      ∧ (go 3 3 6 1 (.ecallSem 1 3 6 1)).prog? 1 = none := by decide +kernel

/-! ### Graphs -/

/-- GRAPH_ALLOC of a resident graph of 4 nodes, 4 edges and one page a bank (R67). -/
def allocPkt : BitVec 512 := pkt [0x08, 0, 4 + 0x10000000, 4]
/-- A quota of 4 handles, 2^14 nodes, 2^17 edges, 128 pages. -/
def quota0 : W64 := pack [(0, 17, 4), (17, 9, 4), (26, 9, 4), (35, 9, 4)]

/-- Within the quota and with space, beyond the quota, and with no run left (R67, R70). -/
theorem wit_GraphsAreAllocated :
    let s := { onQ allocPkt with gs := { up.gs with quota := [(0, quota0)] } }
    let full : State := { s with gs := { s.gs with zeroing := [⟨9, 0, 1, 1048576, 0, 0, 0, 0, 0, 0⟩] } }
    s.heads 0 allocPkt ∧ opcode allocPkt = 0x08 ∧ s.withinQuota 0 4 4 2 = true
      ∧ hasRun (s.usedRuns 0) 1048576 4 = true ∧ hasRun (s.usedRuns 1) 8388608 4 = true
      ∧ hasRun (s.usedRuns 2) 8192 2 = true ∧ s.handleFree 5 = true ∧ runFree (s.usedRuns 0) 1048576 0 4 = true
      ∧ ((after (exec (.graphAlloc 0 5 0 0 0) s)).graph? 5).map (·.st) = some .opened
      ∧ full.heads 0 allocPkt ∧ full.withinQuota 0 4 4 2 = true ∧ hasRun (full.usedRuns 0) 1048576 4 = false
      ∧ after (exec (.graphAlloc 0 5 0 0 0) full) = (full.serve 0).retire 0 stNoSpace 0
      ∧ (onQ allocPkt).heads 0 allocPkt ∧ (onQ allocPkt).withinQuota 0 4 4 2 = false
      ∧ after (exec (.graphAlloc 0 5 0 0 0) (onQ allocPkt)) = ((onQ allocPkt).serve 0).retire 0 stQuota 0 := by decide +kernel

/-- 256 B of node slots take one sc (R68). -/
theorem wit_ZeroingEnds :
    let z : Zeroing := ⟨9, 99990, 1, 4, 0, 0, 0, 0, 0, 99999⟩
    let y : Zeroing := ⟨8, 99991, 1, 4, 0, 0, 4, 0, 0, 0⟩
    let s : State := { up with gs := { up.gs with zeroing := [z, y] } }
    z.start + cdiv (z.nodes * 64 + z.edges * 4 + z.pages * 4096) 256 ≤ s.now
      ∧ (after (exec .zeroingEnd s)).gs.zeroing = [{ y with start := 100000 }] := by decide +kernel

/-- GRAPH_LOAD of nodes 2 and 3 of graph 5, and of one past its end; a SEALING and a SEALED graph (R72, R74). -/
theorem wit_GraphsAreLoaded :
    let p := pkt [0x50009, 0, 0x40, pack [(0, 23, 2), (32, 24, 2)]]
    let x := pkt [0x50009, 0, 0x40, pack [(0, 23, 3), (32, 24, 2)]]
    let s := withGraph graph0 (onQ p)
    let t := withGraph graph0 (onQ x)
    s.heads 0 p ∧ opcode p = 0x09 ∧ s.owned? 0 (handleOf p) = some graph0 ∧ graph0.st = .opened
      ∧ pf p 3 0 23 + pf p 3 32 24 ≤ graph0.runLen (pf p 0 32 2)
      ∧ s.translate 0 (pw p 2) (pf p 3 32 24 * recordBytes (pf p 0 32 2)) .read (some 0) false = .ok 0x100040
      ∧ (after (exec (.graphLoad 0) s)).mesh.out.map (·.bytes) = [128] ∧ (onQ p).owned? 0 (handleOf p) = none
      ∧ t.heads 0 x ∧ graph0.runLen (pf x 0 32 2) < pf x 3 0 23 + pf x 3 32 24
      ∧ after (exec (.graphLoad 0) t) = (t.serve 0).retire 0 0x10 0
      ∧ after (exec (.graphLoad 0) (withGraph { graph0 with st := .sealing } (onQ p)))
          = ((withGraph { graph0 with st := .sealing } (onQ p)).serve 0).retire 0 stGraphBusy 0
      ∧ after (exec (.graphLoad 0) (withGraph sealed0 (onQ p)))
          = ((withGraph sealed0 (onQ p)).serve 0).retire 0 stGraphSealed 0 := by decide +kernel

/-- GRAPH_SEAL of an OPEN, a SEALING and a SEALED graph (R72, R89). -/
theorem wit_SealingChecksTheGraph :
    let p := pkt [0x5000A]
    let s := withGraph graph0 (onQ p)
    let t := after (exec (.graphSeal 0) s)
    s.heads 0 p ∧ opcode p = 0x0A ∧ s.owned? 0 (handleOf p) = some graph0 ∧ graph0.st = .opened
      ∧ (t.graph? 5).map (·.st) = some .sealing ∧ (t.queue 0).wait = 5 ∧ t.gs.waitRes = [Check.make 0 5 0]
      ∧ (onQ p).owned? 0 (handleOf p) = none
      ∧ after (exec (.graphSeal 0) (withGraph { graph0 with st := .sealing } (onQ p)))
          = ((withGraph { graph0 with st := .sealing } (onQ p)).serve 0).retire 0 stGraphBusy 0
      ∧ after (exec (.graphSeal 0) (withGraph sealed0 (onQ p))) = ((withGraph sealed0 (onQ p)).serve 0).retire 0 0 0 := by decide +kernel

/-- Each engine takes up a check (R89); the check of graph 5, whose node 0 mixes kinds, ends OPEN and that of a graph of
one NULL node SEALED (R86, R90). -/
theorem wit_ChecksStartAndEnd :
    let p := pkt [0x5000A]
    let c : Check := { Check.make 0 5 0 with start := 90000 }
    let q := { running p with head := .seal, st := .stalled, wait := 5 }
    let one : Machine.Graph := { graph0 with st := .sealing, n := 1, e := 0, l := 0, nodes := [(0, BitVec.ofNat 512 (15 * 2 ^ 96))] }
    let s : State := { withGraph one (onQ p) with hcf := ⟨[(0, q)], 16383⟩ }
    let run : State := { s with gs := { s.gs with runRes := some c } }
    nextCheck [c] 0 = some c ∧ (after (exec (.furrowCheckStart false) { s with gs := { s.gs with waitRes := [c] } })).gs.waitRes = []
      ∧ (after (exec (.furrowCheckStart true) { s with gs := { s.gs with waitFal := [c] } })).gs.waitFal = []
      ∧ run.graph? 5 = some one ∧ c.start + (256 + 2 * cdiv one.n 4 + 2 * cdiv one.e 16) ≤ run.now
      ∧ (run.queue 0).head = .seal ∧ one.furrow.status = 0
      ∧ ((after (exec (.furrowCheckEnd false 5) run)).graph? 5).map (·.st) = some .sealed := by decide +kernel

/-- The fallow engine takes up the check of graph 5, whose last write is acknowledged, or whose transfer fails; its check ends
on an outcome, and with ECC_FAIL (R89, R90, R97). -/
theorem wit_FallowChecks :
    let p := pkt [0x5000A]
    let c : Check := { Check.make 0 5 0 with start := 90000 }
    let q := { running p with head := .seal, st := .stalled, wait := 5 }
    let g : Machine.Graph := { graph0 with st := .sealing, fallow := true, f := 2 }
    let s : State := { withGraph g (onQ p) with hcf := ⟨[(0, q)], 16383⟩ }
    let w : State := { s with gs := { s.gs with waitFal := [c] } }
    let run (x : Check) : State := { s with gs := { s.gs with runFal := some x } }
    let x : Flaw := ⟨0, 0x0C, none⟩
    nextCheck [c] 0 = some c ∧ w.graph? 5 = some g ∧ w.translate 0 g.image 64 .read (some 0) false = .ok 0x100000
      ∧ (after (exec (.furrowCheckStart true) w)).mesh.out.map (·.bytes) = [64]
      ∧ (run { c with phase := .writes 3 }).graph? c.handle = some g
      ∧ (((run { c with phase := .writes 3 }).checkAnswered 5 [] true).gs.runFal.map (·.phase)) = some (.over (c.graph g).furrow)
      ∧ (((run { c with phase := .reads 2 }).checkAnswered 5 [] false).gs.runFal.map (·.phase)) = some (.over x)
      ∧ ((after (exec (.furrowCheckEnd true 5) (run { c with phase := .over x }))).graph? 5).map (·.st) = some .opened
      ∧ fld ((after (exec (.furrowCheckEnd true 5) (run { c with phase := .over x }))).gs.sealres.look 0 0) 16 8 = 0x0C
      ∧ fld ((after (exec (.furrowCheckEnd true 5) (run { c with ecc := true }))).gs.sealres.look 0 0) 16 8 = 0x0D := by
  decide +kernel

/-- GRAPH_UNSEAL and GRAPH_FREE without a live sowing and with one (R72, R73, R107). -/
theorem wit_UnsealAndFree :
    let p := pkt [0x5000B]
    let x := pkt [0x5010C]
    let y := pkt [0x5000C]
    let s := withGraph sealed0 (onQ p)
    let busy := withSow sow0 s
    let fast := withSow sow0 (withGraph sealed0 (onQ x))
    s.heads 0 p ∧ opcode p = 0x0B ∧ s.owned? 0 (handleOf p) = some sealed0 ∧ s.liveOf 5 = []
      ∧ ((after (exec (.graphUnseal 0) s)).graph? 5).map (·.st) = some .opened
      ∧ (withGraph sealed0 (onQ y)).heads 0 y ∧ opcode y = 0x0C
      ∧ (after (exec (.graphFree 0) (withGraph sealed0 (onQ y)))).graph? 5 = none
      ∧ busy.heads 0 p ∧ busy.liveOf 5 ≠ [] ∧ nowait p = false ∧ Tab.rising busy.hcf.queues = true
      ∧ ((after (exec (.graphUnseal 0) busy)).queue 0).wait = 4
      ∧ fast.heads 0 x ∧ opcode x = 0x0C ∧ nowait x = true
      ∧ after (exec (.graphFree 0) fast) = (fast.serve 0).retire 0 stGraphBusy 0 := by decide +kernel

/-! ### Launches and sowings -/

/-- A node record with FANIN `f`, KIND `k` and FANOUT `o`. -/
def node (f k o : Nat) : BitVec 512 := BitVec.ofNat 512 (f * 2 ^ 64 + o * 2 ^ 80 + k * 2 ^ 96)
/-- `s` with one shadow block for function 0. -/
def quotaed (s : State) : State := { s with sow := { s.sow with quota := [(0, 1)] } }

/-- LAUNCH_GRAPH of graph 5, at once and after a wait (R106, R108). -/
theorem wit_LaunchProceeds :
    let p := pkt [0x50010]
    let s := quotaed (withGraph sealed0 (onQ p))
    let w := { s with hcf := ⟨[(0, { running p with st := .stalled, wait := 2, head := .launch false })], 16383⟩ }
    s.heads 0 p ∧ opcode p = 0x10 ∧ (endActOf p).semv = false ∧ s.owned? 0 (handleOf p) = some sealed0
      ∧ s.drainers (handleOf p) = [] ∧ sealed0.blocks ≤ s.shadowQuota 0 ∧ s.launchHold 0 (handleOf p) sealed0 true = .none
      ∧ ((after (exec (.launchGraph 0) s)).sowing? 0).map (·.st) = some .active
      ∧ (w.queue 0).head = .launch false ∧ w.alive = true ∧ w.launchHold 0 (handleOf p) sealed0 true = .none
      ∧ ((after (exec (.launchProceed 0) w)).sowing? 0).map (·.graph) = some 5
      ∧ ((after (exec (.launchProceed 0) w)).queue 0).head = .rooting 0 := by decide +kernel

/-- Graph 5's one root, node 0 (R109). -/
theorem wit_RootInsertion :
    let g := { sealed0 with nodes := [(1, node 1 0 0), (2, node 1 0 0), (3, node 1 0 0)] }
    let w := { sow0 with rootsDone := false }
    let s := withEng Engine.reset (withSow w (withGraph g
      { onQ (pkt [0x50010]) with hcf := ⟨[(0, { running (pkt [0x50010]) with head := .rooting 0 })], 16383⟩ }))
    s.alive = true ∧ s.sow.live = [(0, w)] ∧ (∀ j, j < 4 → (nFanin (g.nodes.look 0 j) = 0 ↔ j = 0))
      ∧ s.mayReady 0 = true ∧ g.inTransfer 0 = false ∧ s.hasKind 0 0 = true ∧ (s.queue 0).head = .rooting 0
      ∧ (after (exec .rootInsertion s)).list 0 = [⟨0, 0, 0, false, 100000, 0⟩]
      ∧ ((after (exec .rootInsertion s)).queue 0).rptr = 1 := by decide +kernel

/-- ID 0 is later than 2^32 - 1, and 2^31 is not later than 0 (R10). -/
theorem wit_SowingIds :
    (up.proceed 0 5 sealed0 { act := EndAct.nil, command := true, step := none, cyc := none }).2.nextSowId 0 = 1
      ∧ idLater 0 0xFFFFFFFF = true ∧ idLater 0x7FFFFFFF 0 = true ∧ idLater 0x80000000 0 = false := by decide +kernel

/-- Every check of a launch (R105, R106, R212). -/
theorem wit_LaunchChecksInOrder :
    let p := pkt [0x50010]
    let n := pkt [0x50110]
    let m := pkt [0x100050010]
    let s := quotaed (withGraph sealed0 (onQ p))
    let go (t : State) : State := after (exec (.launchGraph 0) t)
    let sm := quotaed (withGraph sealed0 (onQ m))
    let opened := quotaed (withGraph graph0 (onQ p))
    let drain := { s with hcf := ⟨s.hcf.queues ++ [(1, { running (pkt [0x5000B]) with head := .drain, st := .stalled })], 16383⟩ }
    let small := withGraph sealed0 (onQ p)
    let cold := quotaed (withGraph { sealed0 with warm := [⟨1, true, 100000⟩] } (onQ n))
    let wait := quotaed (withGraph { sealed0 with warm := [⟨1, true, 100000⟩] } (onQ p))
    let eight := { quotaed (withGraph sealed0 (onQ n)) with sow := { (quotaed up).sow with
      live := (List.range 8).map fun i => (i, { sow0 with id := BitVec.ofNat 32 i }) } }
    sm.heads 0 m ∧ (endActOf m).semv = true ∧ sm.declared 0 (endActOf m).sem = false
      ∧ go sm = (sm.serve 0).retire 0 stSemUndeclared 0
      ∧ (onQ p).heads 0 p ∧ (onQ p).owned? 0 5 = none ∧ go (onQ p) = ((onQ p).serve 0).retire 0 stBadHandle 0
      ∧ opened.heads 0 p ∧ go opened = (opened.serve 0).retire 0 stGraphUnsealed 0
      ∧ drain.heads 0 p ∧ drain.drainers 5 ≠ [] ∧ go drain = (drain.serve 0).retire 0 stGraphBusy 0
      ∧ small.heads 0 p ∧ small.shadowQuota 0 < sealed0.blocks ∧ go small = (small.serve 0).retire 0 0x0B 0
      ∧ eight.heads 0 n ∧ sealed0.limit ≤ (eight.liveOf 5).length ∧ go eight = (eight.serve 0).retire 0 0x0C 0
      ∧ cold.heads 0 n ∧ nowait n = true ∧ cold.launchHold 0 5 { sealed0 with warm := [⟨1, true, 100000⟩] } true = .shadow
      ∧ go cold = (cold.serve 0).retire 0 0x0D 0 ∧ wait.heads 0 p ∧ ((go wait).queue 0).wait = 2 := by decide +kernel

/-- A warm shadow of 4 counters is full one sc after the retirement, and not before (R111). -/
theorem wit_ShadowRefills :
    let g (t : Nat) := { sealed0 with warm := [⟨1, true, t⟩] }
    let s (t : Nat) := withGraph (g t) up
    (g 99999).warm.find? (·.refilling) = some ⟨1, true, 99999⟩ ∧ 99999 + cdiv sealed0.shadowSize 64 ≤ (s 99999).now
      ∧ ((after (exec (.shadowRefillDone 5) (s 99999))).graph? 5).map (·.warm) = some [⟨1, false, 99999⟩]
      ∧ (s 100000).now < 100000 + cdiv sealed0.shadowSize 64
      ∧ after (exec (.shadowRefillDone 5) (s 100000)) = s 100000 := by decide +kernel

/-- Sowing 0 with its four nodes retired ends, and retires one sc later (R113, R114). -/
theorem wit_SowingEndsAndRetires :
    let w := { sow0 with retired := 4, done := 4 }
    let v := { w with st := .ending, endedAt := 99999 }
    let s := withSow w (withGraph sealed0 up)
    let t := withSow v (withGraph sealed0 up)
    s.alive = true ∧ s.sowing? (sowKey 0 0) = some w ∧ s.nodesOver w = true ∧ s.idleSowing 0 = true
      ∧ ((after (exec (.sowingEnding 0 0) s)).sowing? 0).map (·.st) = some .ending
      ∧ v.endedAt + 1 ≤ t.now ∧ v.committed = true ∧ t.drainers 5 = []
      ∧ ((after (exec (.sowingRetire 0 0) t)).sowing? 0).map (·.st) = some .retired
      ∧ ((after (exec (.sowingRetire 0 0) t)).graph? 5).map (·.warm) = some [⟨1, true, 100000⟩] := by decide +kernel

/-- PATCH_PARAM inline of slot 255 into the bank that is not current, its refusals, and a pointer form of two records
(R118 to R122). -/
theorem wit_PatchesAreChecked :
    let p := pkt [0x50011, 0, pack [(0, 19, 255), (20, 20, 1)], 0, 1, 2, 3, 4]
    let x := pkt [0x50011, 0, pack [(0, 19, 256), (20, 20, 1)], 0, 1, 2, 3, 4]
    let cur := pkt [0x150011, 0, pack [(0, 19, 0), (20, 20, 1)], 0, 1, 2, 3, 4]
    let cur1 := pkt [0x100050011, 0, pack [(0, 19, 0), (20, 20, 1)], 0, 1, 2, 3, 4]
    let no := pkt [0x50111, 0, pack [(0, 19, 0), (20, 20, 1)], 0, 1, 2, 3, 4]
    let ptr := pkt [0x400050011, 0, pack [(0, 19, 0), (20, 20, 2)], 0x80]
    let on (p : BitVec 512) := withGraph sealed0 (onQ p)
    let go (t : State) : State := after (exec (.patchParamInline 0) t)
    let capB (p : BitVec 512) := withSow { sow0 with bankB := true } (on p)
    (on p).heads 0 p ∧ opcode p = 0x11 ∧ pf p 0 34 1 = 0 ∧ pf p 2 0 19 + pf p 2 20 20 ≤ sealed0.p * 128
      ∧ sealed0.turnFree 0 = true ∧ (on p).captured 5 true = false
      ∧ ((go (on p)).graph? 5).map (·.writer) = some (some 0)
      ∧ (onQ p).owned? 0 5 = none ∧ go (onQ p) = ((onQ p).serve 0).retire 0 stBadHandle 0
      ∧ (on x).heads 0 x ∧ sealed0.p * 128 < pf x 2 0 19 + pf x 2 20 20 ∧ go (on x) = ((on x).serve 0).retire 0 0x10 0
      ∧ handleOf cur ≠ 5
      ∧ (on cur1).heads 0 cur1 ∧ pf cur1 0 32 2 = 1 ∧ sealed0.target 1 = sealed0.curB
      ∧ ((go (on cur1)).queue 0).rptr = 1
      ∧ (capB no).heads 0 no ∧ (capB no).captured 5 true = true ∧ nowait no = true ∧ ((go (capB no)).queue 0).rptr = 1
      ∧ (capB p).heads 0 p ∧ ((go (capB p)).queue 0).wait = 3 ∧ ((go (capB p)).queue 0).head = .patchWait (some true)
      ∧ go (withGraph { graph0 with st := .sealing } (onQ p))
          = ((withGraph { graph0 with st := .sealing } (onQ p)).serve 0).retire 0 stGraphBusy 0
      ∧ (on ptr).heads 0 ptr ∧ pf ptr 0 34 1 = 1
      ∧ (on ptr).translate 0 (pw ptr 3) (pf ptr 2 20 20 * 32) .read (some 0) false = .ok 0x100080
      ∧ (after (exec (.patchParamPointer 0) (on ptr))).mesh.out.map (·.bytes) = [64] := by decide +kernel

/-- A patch that waited, and the end of one of slots 1 and 2 over a torn mark (R120, R122, R123). -/
theorem wit_PatchesEnd :
    let p := pkt [0x50011, 0, pack [(0, 19, 255), (20, 20, 1)], 0, 1, 2, 3, 4]
    let x := pkt [0x400050011, 0, pack [(0, 19, 1), (20, 20, 2)], 0x80]
    let s := { withGraph sealed0 (onQ p) with hcf := ⟨[(0, { running p with st := .stalled, wait := 3, head := .patchWait (some true) })], 16383⟩ }
    let g := { sealed0 with writer := some 0, torn := some (1, 2) }
    let t := { withGraph g (onQ x) with hcf := ⟨[(0, { running x with head := .patch true 99990 (some [1, 2, 3, 4, 5, 6, 7, 8]) })], 16383⟩ }
    let u := after (exec (.patchComplete 0) t)
    s.headPacket? 0 = some p ∧ (s.queue 0).held = false ∧ sealed0.turnFree 0 = true
      ∧ ((after (exec (.patchResume 0) s)).queue 0).head = .patch true 100000 (some [1, 2, 3, 4])
      ∧ t.headPacket? 0 = some x ∧ t.graph? (handleOf x) = some g ∧ pf x 0 34 1 = 1 ∧ g.turn = []
      ∧ (u.graph? 5).map (·.torn) = some none
      ∧ (u.graph? 5).map (fun g => g.bankB.look 0 2) = some (BitVec.ofNat 256 (wordsNat [5, 6, 7, 8]))
      ∧ (u.graph? 5).map (·.bankA) = some [] := by decide +kernel

/-- SWAP_BANK: begun, refused, waiting, and in effect after 4 sc (R119, R121, R124). -/
theorem wit_SwapsChangeBanks :
    let p := pkt [0x50013]
    let on (g : Machine.Graph) := withGraph g (onQ p)
    let go (t : State) : State := after (exec (.swapBank 0) t)
    let g := { sealed0 with swap := some (0, 99996) }
    let s := { on g with hcf := ⟨[(0, { running p with head := .swap })], 16383⟩ }
    (on sealed0).heads 0 p ∧ opcode p = 0x13 ∧ ((go (on sealed0)).graph? 5).map (·.swap) = some (some (0, 100000))
      ∧ go (onQ p) = ((onQ p).serve 0).retire 0 stBadHandle 0
      ∧ go (on { sealed0 with st := .sealing }) = ((on { sealed0 with st := .sealing }).serve 0).retire 0 stGraphBusy 0
      ∧ ({ sealed0 with writer := some 1 } : Machine.Graph).turnFree 0 = false
      ∧ ((go (on { sealed0 with writer := some 1 })).queue 0).wait = 3
      ∧ ((go (on { sealed0 with torn := some (0, 1) })).queue 0).rptr = 1
      ∧ s.headPacket? 0 = some p ∧ s.graph? (handleOf p) = some g ∧ 99996 + 4 ≤ s.now
      ∧ ((after (exec (.swapBankEffect 0) s)).graph? 5).map (·.curB) = some true := by decide +kernel

/-! ### Fallow graphs and end actions -/

/-- A SEALED fallow graph of 4 nodes with 2 frames, image at 0, workspace at 0x10000. -/
def fallow0 : Machine.Graph := { sealed0 with fallow := true, f := 2, wksp := 0x10000 }

/-- The three transfers of the fan-in copy of a fallow graph with one root, and a page fetch (R98, R99). -/
theorem wit_FallowPagesAreRead :
    let s (ph : FaninPhase) := withSow { sow0 with fanin := ph, rootsDone := false } (withGraph { fallow0 with nroots := 1 } up)
    let v := { sow0 with ctr := [(1, ⟨0, .counting⟩)] }
    let t := withSow v (withGraph fallow0 up)
    (s .due).alive = true ∧ (s .due).translate 0 fallow0.faninAddr 8 .read (some 0) false = .ok 0x110000
      ∧ (after (exec (.fallowFaninCopy 0 0) (s .due))).mesh.out.map (·.bytes) = [8]
      ∧ (s .reading).translate 0 (fallow0.ctrAddr 0 0) 8 .write (some 0) false = .ok 0x110020
      ∧ ((s .reading).faninArrived 0 [7]).mesh.out.map (·.data) = [[7]]
      ∧ (s .writing).translate 0 fallow0.rootAddr 4 .read (some 0) false = .ok 0x110008
      ∧ ((s .writing).faninArrived 0 []).mesh.out.map (·.bytes) = [4]
      ∧ (((s .roots).faninArrived 0 [3]).sowing? 0).map (·.roots) = some [3]
      ∧ fallow0.resident 0 = false ∧ fallow0.inTransfer 0 = false ∧ t.pageWanted 5 fallow0 0 = some v
      ∧ fallow0.freeSlot? = some 0 ∧ t.de.work = none
      ∧ t.translate 0 (fallow0.nodeAddr 0) (fallow0.nodeBytes 0) .read (some 0) false = .ok 0x100000
      ∧ ((after (exec (.fallowPageFetch 5 0) t)).graph? 5).map (·.pages)
          = some [⟨0, 0, false, [.nodes, .crc, .counters 0], [], 0, []⟩] := by decide +kernel

/-- A page of one node with 3 decrements to come arrives with the CRC recorded at seal; a spill ends, and so does one of a page
whose node has been listed meanwhile (R99, R100). -/
theorem wit_FallowPagesCome :
    let ws : Words := List.replicate 8 (0x0003000000000000 : W64)
    let one := { fallow0 with n := 1 }
    let g := { one with pages := [⟨0, 1, false, [], ws, crc32 ws, [(0, [3])]⟩] }
    let s := withSow sow0 (withGraph g up)
    let h := { one with pages := [⟨0, 0, true, [], [], 0, []⟩], frames := [⟨0, 0, 1⟩], nodes := [(0, node 1 0 0)] }
    let t := withSow { sow0 with ctr := [(0, ⟨1, .counting⟩)] } (withGraph h up)
    let u := { t with rla := { up.rla with lists := [(0, [⟨0, 0, 0, false, 0, 0⟩])] } }
    s.de.fallow = [] ∧ (sow0.takeCounters g 0 [3]).ctr = [(0, ⟨3, .counting⟩)]
      ∧ ((after (exec (.fallowPageFetchDone 5 0) s)).graph? 5).map (·.frames) = some [⟨0, 1, 100000⟩]
      ∧ ((after (exec (.fallowPageFetchDone 5 0) s)).sowing? 0).map (·.ctr) = some [(0, ⟨3, .counting⟩)]
      ∧ t.pinned 5 0 = false ∧ ((after (exec (.fallowPageSpillDone 5 0) t)).graph? 5).map (·.frames) = some []
      ∧ ((after (exec (.fallowPageSpillDone 5 0) t)).graph? 5).map (·.nodes) = some []
      ∧ ((after (exec (.fallowPageSpillDone 5 0) t)).sowing? 0).map (·.ctr) = some []
      ∧ u.pinned 5 0 = true ∧ u.de.fallow = []
      ∧ ((after (exec (.fallowPageSpillDone 5 0) u)).graph? 5).map (·.frames) = some [⟨0, 0, 1⟩] := by decide +kernel

/-- The four end actions (R214 to R217). -/
theorem wit_EndActionInOrder :
    let w (a : EndAct) : Sowing := { sow0 with st := .retired, act := a }
    let s (a : EndAct) : State := withSow (w a) (withGraph sealed0 (semState 0 0 0))
    let go (a : EndAct) : State := after (exec (.endAction 0 0) (s a))
    let rec' := { EndAct.nil with erv := true, eraddr := 0x20 }
    let sem := { EndAct.nil with semv := true, sem := 3, semop := 2, semval := 1 }
    let sig := { EndAct.nil with sigv := true, sig4 := true, sigaddr := 0x44, sigval := 9 }
    (s EndAct.nil).alive = true ∧ (s EndAct.nil).endTurn (w EndAct.nil) = true ∧ (s EndAct.nil).endWriting 0 = false
      ∧ (go EndAct.nil).sow.live = []
      ∧ (s rec').translate 0 0x20 32 .write (some 0) true = .ok 0x100020 ∧ (go rec').mesh.out.map (·.bytes) = [32]
      ∧ (s sem).semCheck 0 0 3 2 = 0 ∧ (go sem).semVal 3 = 6 ∧ (go sem).sow.live = []
      ∧ (s sig).translate 0 0x44 4 .write (some 0) false = .ok 0x100044
      ∧ (go sig).mesh.out.map (·.data) = [[9]] := by decide +kernel

/-- SIGNAL_WRITE of 8 B, and while function 0 may not master (R51, R218). -/
theorem wit_SignalWrites :
    let p := pkt [0x19, 0, 0x40, 7]
    let s := onQ p
    let n := { s with pins := { s.pins with bme := 0 } }
    s.heads 0 p ∧ opcode p = 0x19 ∧ s.resultsAcked 0 = true ∧ s.pins.bme.getLsbD 0 = true
      ∧ s.translate 0 (pw p 2) 8 .write (some 0) false = .ok 0x100040
      ∧ (after (exec (.signalWrite 0) s)).mesh.out.map (·.data) = [[7]]
      ∧ n.heads 0 p ∧ n.resultsAcked 0 = true ∧ n.pins.bme.getLsbD 0 = false
      ∧ ((after (exec (.signalWrite 0) n)).queue 0).wait = 1 := by decide +kernel

/-! ### Counters, lists, the drill -/

/-- An idle engine in service. -/
def eng0 : Engine := { Engine.reset with service := .inService, idleFrom := some 99999, ran := true }
/-- An edge to node `t`. -/
def edge (t : Nat) (producer : Bool) : BitVec 32 := BitVec.ofNat 32 (t + b2n producer * 2 ^ 27)
/-- Node 0 has FANOUT 2, edges to nodes 1 and 2, which have FANIN 1 and 2; node 3 has FANIN 3. -/
def chain : Machine.Graph := { sealed0 with
  nodes := [(0, node 0 0 2), (1, node 1 0 0), (2, node 2 0 0), (3, node 3 0 0)], edges := [(0, edge 1 false), (1, edge 2 true)] }
/-- Its sowing, in a block with engine 0 in service. -/
def work (e : Engine) (s : State) : State := withEng e (withSow sow0 (withGraph chain s))

/-- Node 0 retired: the one line of its edges (R131). -/
theorem wit_EdgeLinesAreRead :
    let j : EdgeJob := ⟨0, 0, some 0, 0⟩
    let s := { work eng0 up with de := { up.de with jobs := [j] } }
    let t := after (exec .edgeLineRead s)
    s.alive = true ∧ s.sowing? 0 = some sow0 ∧ s.graph? 5 = some chain ∧ chain.pages = [] ∧ s.lineFits chain (j.line16 chain) = true
      ∧ nFanout (chain.nodes.look 0 0) ≤ 16 ∧ t.bank 1 = [⟨0, 1, some 0, false, false⟩]
      ∧ t.bank 2 = [⟨0, 2, some 0, true, false⟩] ∧ t.de.jobs = [] := by decide +kernel

/-- A decrement waits in the queue of its bank for node `i`. -/
def decAt (i : Nat) : State := { work eng0 up with de := { up.de with banks := [(i, [⟨0, i, some 0, false, false⟩])] } }

/-- Decrements at 1 and at 3 left (R112, R139). -/
theorem wit_CountersDecrement :
    (decAt 1).sowing? 0 = some sow0 ∧ chain.resident 1 = true ∧ chain.inTransfer 1 = false
      ∧ sow0.counter chain 1 = ⟨1, .counting⟩ ∧ (decAt 1).holder? 0 1 = none
      ∧ (after (exec (.decrement 1) (decAt 1))).list 0 = [⟨0, 1, 0, false, 100000, 2⟩]
      ∧ sow0.counter chain 3 = ⟨3, .counting⟩
      ∧ (after (exec (.decrement 3) (decAt 3))).sowing? 0 = some (sow0.setCounter 3 ⟨2, .counting⟩) := by decide +kernel

/-- At 0, of a FAILING sowing, from the workspace's queue, and of a page that is not resident (R101, R133, R135). -/
theorem wit_DecrementsThatFail :
    let bad := { decAt 1 with sow := (withSow { sow0 with ctr := [(1, ⟨0, .passed⟩)] } up).sow }
    let fail := { decAt 1 with sow := (withSow { sow0 with st := .failing } up).sow }
    let d : Dec := ⟨0, 3, some 0, false, false⟩
    let fal := { work eng0 up with de := { up.de with fallow := [d] } }
    let far := { withSow sow0 (withGraph fallow0 up) with de := { up.de with fallow := [d] } }
    nextOf (fun x => bad.firstLane x.sow) (bad.bank 1) = some ⟨0, 1, some 0, false, false⟩
      ∧ bad.sowing? 0 = some { sow0 with ctr := [(1, ⟨0, .passed⟩)] }
      ∧ fail.bank 1 = [⟨0, 1, some 0, false, false⟩] ∧ (after (exec (.decrement 1) fail)).de.banks = []
      ∧ (after (exec (.decrement 1) fail)).sow = fail.sow
      ∧ fal.de.fallow.find? fal.decFree = some d
      ∧ (after (exec .fallowDecrement fal)).sowing? 0 = some (sow0.setCounter 3 ⟨2, .counting⟩)
      ∧ far.de.fallow.find? far.decFree = some d ∧ fallow0.resident 3 = false ∧ far.de.work = none
      ∧ far.translate 0 (fallow0.ctrAddr 0 3) 2 .read (some 0) false = .ok 0x110026
      ∧ (after (exec .fallowDecrement far)).de.work = some (d, none) := by decide +kernel

/-- A plot with room for a ready entry (R142). -/
theorem wit_PlotsHaveRoom : (decAt 1).mayReady 0 = true ∧ (decAt 1).alive = true := by decide +kernel

/-- A pending node, and a delay that has expired (R142, R156). -/
theorem wit_NodesBecomeReady :
    let s := { work eng0 up with rla := { up.rla with pend := [⟨0, 1, 0, false, 0, false⟩] } }
    let x : Delayed := ⟨0, 1, 0, 390, false⟩
    let t := { work eng0 up with rla := { up.rla with delays := [(0, [x])] } }
    s.alive = true ∧ s.mayReady 0 = true ∧ (after (exec .pendingMove s)).list 0 = [⟨0, 1, 0, false, 100000, 33⟩]
      ∧ t.expired = [x] ∧ (after (exec .delayExpiry t)).list 0 = [⟨0, 1, 0, false, 100000, 32⟩] := by decide +kernel

/-- A dead entry before a live one; LC is chosen over BE, BE is aged on the 16th decision, and a decision that finds nothing
moves the turn (R144, R148, R149). -/
theorem wit_ListsKeepTheirEntriesAndTurns :
    let s := { work eng0 up with tcs := { up.tcs with tick := 5 }, rla := { up.rla with
      lists := [(0, [⟨0, 1, 0, true, 0, 0⟩, ⟨0, 2, 5, false, 0, 0⟩]), (16, [⟨0, 3, 0, false, 0, 0⟩])] } }
    let a := { s with rla := { s.rla with arbs := [(0, { s.arb 0 0 with turn := 15, ageflip := true })] } }
    let n := work eng0 up
    Tab.rising s.rla.lists = true ∧ Tab.rising s.rla.flows = true
      ∧ (after (exec .deadEntrySweep s)).list 0 = [⟨0, 2, 5, false, 0, 0⟩]
      ∧ ((s.arbitrate 0 0).1.map fun c => (c.cls, c.grp, c.aged)) = some (0, 0, false)
      ∧ ((a.arbitrate 0 0).1.map fun c => (c.cls, c.grp, c.aged)) = some (1, 0, true)
      ∧ (engineIds.any fun e => n.eligible e 0 0) = true ∧ n.restorable 0 0 = none
      ∧ ((n.stripAll 0 0).arbitrate 0 0).1.isNone = true
      ∧ ((after (exec (.decision 0 .compute) n)).arb 0 0).turn = 1 := by decide +kernel

/-- Node 1 is ready and engine 0 is free (R160, R161). -/
theorem wit_DecisionsDispatch :
    let s := { work eng0 up with rla := { up.rla with lists := [(0, [⟨0, 1, 0, false, 0, 0⟩])] } }
    let u := s.stripAll 0 0
    let t := after (exec (.decision 0 .compute) s)
    (engineIds.any fun e => s.eligible e 0 0) = true ∧ s.restorable 0 0 = none
      ∧ ((u.arbitrate 0 0).1.map fun c => (c.cls, c.grp)) = some (0, 0) ∧ u.list 0 = [⟨0, 1, 0, false, 0, 0⟩]
      ∧ (u.entrySeg sow0 (u.node sow0 1)).wdraw = false ∧ (u.entrySeg sow0 (u.node sow0 1)).stale = false
      ∧ u.chooseEngine 0 0 (u.node sow0 1) = some 0
      ∧ t.list 0 = [] ∧ (t.engine 0).front = .committed ⟨0, 1, 0, none, false⟩ 0 := by decide +kernel

/-- A notice for node 1 holds it on engine 0, and finds nothing while the back slot is occupied; a look ahead from node 0
records its PRODUCER edge to node 2 (R135, R166 to R168). -/
theorem wit_NoticesHoldNodes :
    let s := { work { eng0 with front := .running ⟨0, 0, 0, none, false⟩ 1 } up with de := { up.de with notices := [⟨0, 1, some 0, false⟩] } }
    let n := { work { eng0 with back := { Back.reset with st := .held } } up with de := { up.de with notices := [⟨0, 1, some 0, false⟩] } }
    let l := { work eng0 up with de := { up.de with looks := [(0, 0, 0)] } }
    ((s.candidates 0 1 (chain.nodes.look 0 1) none none).find? fun c => s.holdOk c.1 0 1 sow0 chain) = none
      ∧ (after (exec .oneLeftNotice n)).de.notices = []
      ∧ l.dcs.producers.length + 16 ≤ 4096 ∧ (sow0.counter chain 2) = ⟨2, .counting⟩
      ∧ (after (exec .producerLookahead l)).dcs.producers = [(0, 2, 0, 0)] := by decide +kernel

/-- The same with the producer as its candidate: the node is held. -/
theorem wit_NoticesHoldTheirCandidate :
    let s := { work { eng0 with front := .running ⟨0, 0, 0, none, false⟩ 1 } up with
      de := { up.de with notices := [⟨0, 1, some 0, true⟩] } }
    let t := after (exec .oneLeftNotice s)
    ((s.candidates 0 1 (chain.nodes.look 0 1) none (some 0)).find? fun c => s.holdOk c.1 0 1 sow0 chain) = some (0, 3)
      ∧ (t.engine 0).back.st = .writing ∧ (t.engine 0).back.task = ⟨0, 1, 0, none, false⟩
      ∧ t.dcs.seqB.look [] 0 = [0] := by decide +kernel

/-- Engine 0 holds node 1, whose counter is 0: released at once, on the budgets, through the start queue, or on the plot's
reserve (R164, R169, R174). A PENDING one is withdrawn when engine 1 is free. -/
theorem wit_HeldNodesAreReleased :
    let b : Back := { Back.reset with st := .held, task := ⟨0, 1, 0, none, false⟩, zeroAt := some 99999 }
    let base (r : Engine) : State := { work r up with sow := (withSow { sow0 with ctr := [(1, ⟨0, .passed⟩)] } up).sow }
    let s := base { eng0 with back := b }
    let cold := base { eng0 with back := b, ran := false }
    let full := { cold with dcs := { cold.dcs with usedShared := 8 } }
    let rsv := { cold with dcs := { cold.dcs with granted := [(0, 1)] } }
    let p := { base { eng0 with back := { b with st := .pending }, front := .running ⟨0, 0, 0, none, false⟩ 1 } with
      fm := { up.fm with active := { up.fm.active with engines := [(0, { EngCfg.reset with active := true }), (1, { EngCfg.reset with active := true, logical := 1 })] } }
      eng := [(0, { eng0 with back := { b with st := .pending }, front := .running ⟨0, 0, 0, none, false⟩ 1 }), (1, eng0)] }
    s.heldReady 0 = true ∧ (s.engine 0).front = .empty ∧ s.domain 0 = .awake ∧ (s.plot 0).st = .running
      ∧ s.capped 0 0 = false ∧ s.frontStopped b.task = false ∧ s.swapFirst = false ∧ s.writeOk 0 b.task b.inc = true
      ∧ (s.engine 0).preempt = none ∧ (s.engine 0).moving = none ∧ s.isStart 0 = false
      ∧ ((after (exec (.heldRelease 0) s)).engine 0).token = some 0
      ∧ cold.isStart 0 = true ∧ cold.reserveLeft 0 = false ∧ cold.admitNow (.release 0) = true
      ∧ (after (exec (.heldRelease 0) cold)).dcs.usedShared = 1
      ∧ full.isStart 0 = true ∧ full.admitNow (.release 0) = false
      ∧ (after (exec (.heldRelease 0) full)).dcs.queue = [⟨.release 0, 100000⟩]
      ∧ rsv.isStart 0 = true ∧ rsv.reserveLeft 0 = true
      ∧ (after (exec (.heldRelease 0) rsv)).dcs.usedRsv.look 0 0 = 1
      ∧ p.eligible 1 0 0 = true ∧ ((after (exec (.mispredictWithdraw 0) p)).engine 0).token = some 1 := by decide +kernel

/-- Descriptors of node 1 to engine 0: a write, a start, a failed check, a hold (R161, R174, R176). -/
theorem wit_DescriptorsAreWritten :
    let x : Task := ⟨0, 1, 0, none, false⟩
    let on (r : Engine) : State := { work r up with dcs := { up.dcs with seqF := [(0, [0])] } }
    let s := on { eng0 with front := .committed x 0 }
    let cold := on { eng0 with front := .committed x 0, ran := false }
    let full := { cold with dcs := { cold.dcs with usedShared := 8 } }
    let bad := on { eng0 with front := .committed x 9 }
    let h := { work { eng0 with back := { Back.reset with st := .writing, task := x } } up with dcs := { up.dcs with seqB := [(0, [0])] } }
    let t := after (exec (.descriptorWrite 0) s)
    s.frontStopped x = false ∧ s.writeOk 0 x 0 = true ∧ s.preemptStops x = false ∧ s.isStart 0 = false ∧ s.looped 0 = false
      ∧ (t.engine 0).front = .driven x 100000 ∧ t.de.looks = [(0, 1, 0)]
      ∧ s.portFree 0 = true ∧ cold.isStart 0 = true ∧ cold.reserveLeft 0 = false ∧ cold.admitNow (.front 0) = true
      ∧ (after (exec (.descriptorWrite 0) cold)).dcs.usedShared = 1 ∧ full.admitNow (.front 0) = false
      ∧ (after (exec (.descriptorWrite 0) full)).dcs.queue = [⟨.front 0, 100000⟩]
      ∧ h.portFree 0 = true ∧ (h.engine 0).back.holdAt < h.now
      ∧ bad.writeOk 0 x 9 = false ∧ ((after (exec (.descriptorWrite 0) bad)).engine 0).front = .empty
      ∧ h.writeOk 0 x 0 = true
      ∧ ((after (exec (.descriptorWrite 0) h)).engine 0).back.drivenAt = some 100000 := by decide +kernel

/-- The engine's answers: an acknowledged front slot and hold, STARTED, WITHDRAWN and EMPTY (R25, R162, R169, R183). -/
theorem wit_DescriptorsAndTokens :
    let x : Task := ⟨0, 1, 0, none, false⟩
    let b : Back := { Back.reset with st := .writing, task := x, drivenAt := some 99990 }
    let f := work { eng0 with front := .driven x 99990 } up
    let h := work { eng0 with back := b, front := .running ⟨0, 0, 0, none, false⟩ 1 } up
    let p := work { eng0 with back := { b with zeroAt := some 99995 }, front := .running ⟨0, 0, 0, none, false⟩ 1 } up
    let r := work { eng0 with back := { b with st := .releasing }, token := some 0 } up
    let w := work { eng0 with back := { b with st := .withdrawing }, token := some 1 } up
    let g (c : Instr) (s : State) : Engine := (after (exec c s)).engine 0
    f.alive = true ∧ f.looped 0 = false ∧ (g (.descriptorAccepted 0) f).front = .running x 100000 ∧ (g (.descriptorAccepted 0) f).started = [(0, x)]
      ∧ (g (.descriptorAccepted 0) h).back.st = .held ∧ (g (.descriptorAccepted 0) p).back.st = .pending
      ∧ (g (.tokenStarted 0) r).front = .running x 100000 ∧ (g (.tokenStarted 0) r).back = Back.reset
      ∧ (g (.tokenWithdrawn 0) w).back = Back.reset ∧ (g (.tokenEmpty 0) w).token = none := by decide +kernel

/-! ### Engines -/

/-- Transfer `id` of function 0 at 0x100000, issued at sc 0. -/
def xfer (id : Nat) (u : Purpose) (write : Bool) (bytes : Nat) (data : Words) : Xfer :=
  ⟨id, u, 0, 3, write, 0x100000, bytes, data, none, none, 0, none, false, 0, []⟩

/-- An engine returns, is flushed and tested, and fails its test (R185, R186, R190, R416). -/
theorem wit_EnginesReturnAndAreTested :
    let s := withEng Engine.reset up
    let f := withEng { Engine.reset with service := .returning, token := some 2 } up
    let o := withEng { Engine.reset with service := .out } up
    let t := withEng { Engine.reset with service := .testing, flushed := true } up
    let l := withEng { Engine.reset with service := .testing, testAt := some 0 } { up with now := 4000000 }
    let m := withEng { Engine.reset with service := .returning, token := some 2, tokenAt := 98976 } up
    engineKind? 0 = some 0 ∧ s.active 0 = true ∧ s.domain 0 = .awake
      ∧ ((after (exec (.engineReturn 0) s)).engine 0).token = some 2
      ∧ f.alive = true ∧ f.looped 0 = false ∧ ((after (exec (.tokenFlushed 0) f)).engine 0).inc = 1
      ∧ ((after (exec (.engineSelfTest 0) o)).engine 0).token = some 2
      ∧ ((after (exec (.engineSelfTest 0) t)).engine 0).front = .committed ⟨0, 0, 0, none, true⟩ 0
      ∧ l.alive = true ∧ ((after (exec (.selfTestTimeout 0) l)).engine 0).service = .retired
      ∧ ((after (exec (.selfTestTimeout 0) m)).engine 0).inc = 1 := by decide +kernel

/-- A reset, a fall of the up pin and one in reset, a late acknowledgement and a late answer (R25, R32 to R37, R352). -/
theorem wit_EnginesFail :
    let x : Task := ⟨0, 1, 0, none, false⟩
    let s := work { eng0 with token := some 1 } up
    let i := { s with pins := { s.pins with rst := 1 } }
    let d := work { eng0 with front := .driven x 98976 } up
    let p := work { eng0 with preempt := some ⟨0, .plot 0, none, false, some 0⟩ } { up with now := 45000 * 2000 }
    s.alive = true ∧ s.looped 0 = false ∧ (s.engine 0).goneAt ≠ some s.now
      ∧ ((after (exec (.engineReset 0) s)).engine 0).token = none ∧ ((after (exec (.engineReset 0) s)).engine 0).inc = 1
      ∧ s.pins.rst.getLsbD 0 = false ∧ s.asleep 0 = false ∧ ((after (exec (.engineDown 0) s)).engine 0).service = .away
      ∧ i.pins.rst.getLsbD 0 = true ∧ (after (exec (.engineDown 0) i)).eng = i.eng
      ∧ 98976 + 1024 ≤ d.now ∧ (d.engine 0).front = .driven x 98976 ∧ (d.engine 0).back.st = .empty
      ∧ p.alive = true ∧ (p.plotCfg (p.plotOf 0)).preemptLimit * 2000 ≤ p.now
      ∧ ((after (exec (.preemptNoresp 0) p)).engine 0).service = .out := by decide +kernel

/-- The four answers to a preempt request (R29, R351). -/
theorem wit_EnginesAnswer :
    let x : Task := ⟨0, 1, 0, none, false⟩
    let s := work { eng0 with front := .running x 1, started := [(0, x)], preempt := some ⟨0, .plot 0, some (0, 2), false, some 99999⟩ } up
    let go (c : Instr) : Engine := (after (exec c s)).engine 0
    s.alive = true ∧ s.looped 0 = false ∧ s.areaAddr 0 128 64 .write = .ok 0x100080
      ∧ (go (.preemptIdle 0)).front = .running x 1 ∧ (go (.preemptAtBoundary 0)).preempt = none
      ∧ (go (.preemptSaved 0)).front = .empty ∧ ((after (exec (.preemptSaved 0) s)).plot 0).saved.map (·.slice) = [2]
      ∧ (s.engine 0).front = .running x 1 := by decide +kernel

/-- A record of node 1 from engine 0 (R30, R182): of another incarnation, of an SEQ passed, and its own, with digest 9. -/
theorem wit_CompletionsCount :
    let x : Task := ⟨0, 1, 0, none, false⟩
    let rec' (inc seq : Nat) : BitVec 256 := BitVec.ofNat 256 (1 * 2 ^ 32 + inc * 2 ^ 76 + seq * 2 ^ 84 + 9 * 2 ^ 128)
    let s := work { eng0 with front := .running x 1, started := [(4, x)], seqx := 4, nextSeq := 5 } up
    let t := after (exec (.completionRecord 0 (rec' 0 4)) s)
    let u : State := { s with cc := ⟨[], 0⟩, inSc := { s.inSc with taken := 1 } }
    let late : State := { s with inSc := { s.inSc with taken := 4 } }
    let full : State := { s with cc := ⟨[(0, List.replicate 32 0)], 0⟩ }
    s.looped 0 = false ∧ s.active 0 = true ∧ (CplRec.decode (rec' 0 4)).names x = true
      ∧ (CplRec.decode (rec' 0 4)).seq = 4 ∧ (CplRec.decode (rec' 0 4)).status = 0
      ∧ nNodigest (s.node sow0 1) = false ∧ (t.sowing? 0).map (·.done) = some 1
      ∧ (t.sowing? 0).map (·.digest) = some (contribution 1 9) ∧ (t.engine 0).front = .empty
      ∧ after (exec (.completionRecord 0 (rec' 1 4)) s) = u.errlog { code := 0x802, eng := some 0 }
      ∧ 32768 ≤ ((CplRec.decode (rec' 0 3)).seq - 4).toNat
      ∧ after (exec (.completionRecord 0 (rec' 0 3)) s) = u.errlog { code := 0x803, eng := some 0, arg := 3 }
      ∧ s.layersHeld < 4096 ∧ late.crdy 0 = true ∧ 4 ≤ late.inSc.taken
      ∧ (after (exec (.completionRecord 0 (rec' 0 4)) late)).ccBuf 0 = [rec' 0 4]
      ∧ full.crdy 0 = false ∧ after (exec (.completionRecord 0 (rec' 0 4)) full) = full := by decide +kernel

/-- An eviction of layer 2's sum, a restore from slice 1, an acknowledged notice (R189, R353, R354). -/
theorem wit_Restores :
    let x : Task := ⟨0, 1, 0, none, false⟩
    let v : Saved := ⟨x, 0, 1, [], none, false⟩
    let s := { work eng0 up with sow := (withSow { sow0 with layers := [(2, 7)] } up).sow }
    let r := { work eng0 up with pru := { up.pru with plots := [(0, { Plot.reset with saved := [v] })] } }
    let n : NoticeBlk := ⟨1, 3, 0, 0, false, 0⟩
    let y := xfer 0 (.notice 0) true 8 [0x301]
    let a := { work { eng0 with notice := some n } up with mesh := ⟨[y], []⟩ }
    let l := { s with mesh := ⟨[xfer 0 (.layerWrite 0 2) true 8 [0]], []⟩ }
    s.translate 0 (sow0.act.ldaddr + 16) 8 .read (some 0) true = .ok 0x100010
      ∧ s.layerBusy 0 2 = false ∧ ((after (exec (.layerDigestEvict 0 0 2) s)).sowing? 0).map (·.layers) = some []
      ∧ l.layerBusy 0 2 = true ∧ ((after (exec (.layerDigestEvict 0 0 2) l)).sowing? 0).map (·.layerWait) = some [(2, 7)]
      ∧ r.restorable 0 0 = some v ∧ r.eligible 0 0 0 = true ∧ r.areaAddr 0 64 64 .read = .ok 0x100040
      ∧ ((after (exec (.savedTaskRestore 0) r)).engine 0).front = .committed { x with slice := some (0, 1) } 0
      ∧ a.noticeOf 0 y = true ∧ ((after (exec (.noticeAck 0) a)).engine 0).notice = some { n with acked := true } := by decide +kernel

/-! ### Starts and power domains -/

/-- A window's end, a full budget, and a domain wake (R175, R176, R178). -/
theorem wit_StartsAreCharged :
    let full := { up with dcs := { up.dcs with usedShared := 8, queue := [⟨.domain 3, 1⟩] } }
    let one := { up with dcs := { up.dcs with queue := [⟨.domain 3, 1⟩] } }
    let in' := { up with dcs := { up.dcs with window := up.windowNow } }
    full.alive = true ∧ full.dcs.window < full.windowNow ∧ in'.windowNow ≤ in'.dcs.window
      ∧ after (exec (.rampWindowEnd 3) in') = in'
      ∧ (after (exec (.rampWindowEnd 3) full)).inForce = 3 ∧ (after (exec (.rampWindowEnd 0) full)).inForce = 8
      ∧ full.chipRoom = false
      ∧ (∀ x ∈ full.dcs.queue, full.startStands x.what = true ∧ full.reservedNow x.what = false)
      ∧ after (exec .startQueueAdmit full) = full
      ∧ one.chipRoom = true ∧ one.clusterRoom 3 = true
      ∧ (after (exec .startQueueAdmit one)).domain 3 = .waking 100000
      ∧ (after (exec .startQueueAdmit one)).dcs.usedShared = 4 := by decide +kernel

/-- Cluster 0 wakes and sleeps, in time and late (R54 to R56, R185); stack 7 is throttled (R58). -/
theorem wit_StartsAndDomains :
    let dom (d : Domain) : State := { work eng0 up with dcs := { up.dcs with domains := [(0, d)] } }
    let s := { dom .asleep with rla := { up.rla with lists := [(0, [⟨0, 1, 0, false, 0, 0⟩])] } }
    let full := { s with dcs := { s.dcs with usedShared := 8 } }
    let i := { work eng0 up with fm := { up.fm with active := { up.fm.active with
      engines := [(0, { EngCfg.reset with active := true })], clusters := [(0, ⟨4, 1⟩)] } }, now := 200000 }
    s.sleepingDomain 0 0 = some 0 ∧ s.listsWait 0 0 = true ∧ (∀ e ∈ engineIds, s.eligible e 0 0 = false)
      ∧ s.alive = true ∧ s.dcs.queue = [] ∧ s.admitNow (.domain 0) = true ∧ full.admitNow (.domain 0) = false
      ∧ (after (exec (.domainWakeRequest 0 .compute) s)).domain 0 = .waking 100000
      ∧ full.sleepingDomain 0 0 = some 0 ∧ full.listsWait 0 0 = true ∧ (∀ e ∈ engineIds, full.eligible e 0 0 = false)
      ∧ (after (exec (.domainWakeRequest 0 .compute) full)).dcs.queue = [⟨.domain 0, 100000⟩]
      ∧ (dom (.sleeping 9)).ccBuf 0 = []
      ∧ i.domain 0 = .awake ∧ i.domainIdle 0 = true
      ∧ (after (exec (.domainSleepRequest 0) i)).domain 0 = .sleeping 200000
      ∧ (after (exec (.wakeAck 0) (dom (.waking 9)))).domain 0 = .awake
      ∧ (after (exec (.wakeTimeout 0) (dom (.waking 34464)))).domain 0 = .unavailable
      ∧ ((after (exec (.sleepAck 0) (dom (.sleeping 9)))).engine 0).inc = 1
      ∧ ((after (exec (.sleepTimeout 0) (dom (.sleeping 34464)))).engine 0).service = .away
      ∧ (after (exec (.thermalChange 7 2) up)).therm 31 = 2 ∧ (after (exec (.thermalChange 7 2) up)).therm 27 = 0 := by
  decide +kernel

/-! ### The mesh and the mailboxes -/

/-- A result record that has been answered, refused and timed out; a late response; a retry (R39, R40). -/
theorem wit_MeshTransfersEnd :
    let x := xfer 7 (.result 0) true 16 [1, 2]
    let s := { up with mesh := ⟨[x], []⟩ }
    let again := { up with mesh := ⟨[{ x with second := true }], []⟩ }
    let l := { s with now := 2 ^ 20 }
    let r := { up with mesh := ⟨[{ x with retryAt := some 99999 }], []⟩ }
    s.xfer? 6 = none ∧ s.xfer? 7 = some x ∧ (s.faultQ 0).recs = [] ∧ (s.faultQ 0).quiet 0x212 s.now = true
      ∧ (s.faultQ 0).freshAt ≠ s.now ∧ (s.faultQ 0).quiet 0x213 l.now = true
      ∧ ((after (exec (.meshResponse 7 .tgtReset []) s)).xfer? 7).map (·.retryAt) = some (some 100256)
      ∧ (after (exec (.meshResponse 7 .ok []) s)).mesh.out = []
      ∧ ((after (exec (.meshResponse 7 .decode []) s)).faultQ 0).recs.length = 1
      ∧ ((after (exec (.meshResponse 7 .tgtReset []) again)).faultQ 0).recs.length = 1
      ∧ x.at' + 2 ^ 20 ≤ l.now ∧ ((after (exec (.meshTimeout 7) l)).faultQ 0).recs.length = 1
      ∧ ((after (exec (.meshRetry 7) r)).xfer? 7).map (·.second) = some true := by decide +kernel

/-- Channel 1: doorbells, clears, masks, and a notification; a bit rung in this sc stays set (R17, R374 to R383). -/
theorem wit_DoorbellsRing :
    let s := { up with mdu := { up.mdu with chans := [(1, { Channel.reset with
      hostMask := 0, notaddr := 0x1000, notval := 0x1000000AA, hostOut := ⟨6, 2, 99000⟩ })] } }
    let now' := { up with mdu := { up.mdu with chans := [(1, { Channel.reset with hostOut := ⟨6, 2, 100000⟩ })] } }
    s.mbxOk boss 1 false = true ∧ s.mbxOk guest 1 true = true
      ∧ ((after (exec (.mbxDbin boss 1 false 4) s)).channel 1).fwOut.bits = 4
      ∧ ((after (exec (.mbxDboutClear boss 1 false 6) s)).channel 1).hostOut.bits = 0
      ∧ ((after (exec (.mbxDboutClear boss 1 false 6) now')).channel 1).hostOut.bits = 2
      ∧ ((after (exec (.mbxDbmaskWrite boss 1 false 4) s)).channel 1).hostMask = 4
      ∧ (8 : BitVec 32) &&& ~~~(s.channel 1).hostOut.bits ≠ 0 ∧ bit (s.channel 1).notval 32 = true
      ∧ ((s.channel 1).hostOut.bits ||| 8) &&& ~~~(s.channel 1).hostMask ≠ 0
      ∧ (s.channel 1).underway = false ∧ (s.channel 1).given = false
      ∧ (after (exec (.mbxDbin guest 1 true 8) s)).mesh.out.map (fun x => (x.addr, x.data)) = [(0x1000, [0xAA])] := by decide +kernel

/-- The lock of channel 0: claimed, claimed again by each side, released, and broken (R384, R385). -/
theorem wit_LocksAreClaimed :
    let t := after (exec (.mbxLockClaim boss 0 false 9) up)
    let later := { t with now := 100001 }
    let old := { t with now := 100000 + 2 ^ 24 }
    (up.lock 0).held = false ∧ up.mbxOk boss 0 false = true ∧ (t.lock 0).held = true ∧ (t.lock 0).tag = 9
      ∧ (t.lock 0).side = false ∧ (t.lock 0).at' = t.now ∧ ((after (exec (.mbxLockClaim boss 0 true 8) t)).lock 0).tag = 8
      ∧ ((after (exec (.mbxLockClaim boss 0 true 8) later)).lock 0).tag = 9
      ∧ ((after (exec (.mbxLockClaim boss 0 false 8) t)).lock 0).tag = 9
      ∧ ((after (exec (.mbxLockClaim boss 0 false 0) up)).lock 0).held = false
      ∧ ((after (exec (.mbxLockRelease boss 0 false 9) t)).lock 0).held = false
      ∧ ((after (exec (.mbxLockRelease boss 0 false 8) t)).lock 0).held = true
      ∧ (t.lock 0).at' + 2 ^ 24 ≤ old.now
      ∧ ((after (exec (.mbxLockBroken 0) old)).lock 0).broken = some (100000 + 2 ^ 24) := by decide +kernel

/-- Headers of 15, 16 and 0 words toward the firmware, words of a packet, the last word in the sc of a TXFLUSH, a read, and
the flushes (R380 to R382). -/
theorem wit_WordQueuesCarryPackets :
    let ch (w : WordQ) : State := { up with mdu := { up.mdu with chans := [(1, { Channel.reset with toFw := w, toHost := w })] } }
    let nil := Channel.reset.toFw
    let one : WordQ := { nil with words := [7], pkts := [1] }
    let late := ch { nil with kept := some (100000, [1]) }
    let q (s : State) : WordQ := (s.channel 1).tx false
    ((ch nil).channel 1).tx false = nil ∧ nil.used + 15 + 1 ≤ 16 ∧ 16 < one.used + 15 + 1
      ∧ (q (after (exec (.mbxTx boss 1 false 15) (ch nil)))).opened = some 15
      ∧ (q (after (exec (.mbxTx boss 1 false 15) (ch one)))).discard = 15
      ∧ (q (after (exec (.mbxTx boss 1 false 0x10) (ch nil)))).coming = [[0x10]]
      ∧ (q (after (exec (.mbxTx boss 1 false 5) (ch { nil with discard := 2 })))).discard = 1
      ∧ (q (after (exec (.mbxTx boss 1 false 5) (ch { nil with opened := some 1, part := [1] })))).coming = [[1, 5]]
      ∧ ((late.channel 1).tx false).kept = some (late.now, [1]) ∧ (q (after (exec (.mbxTx boss 1 false 5) late))).coming = [[1, 5]]
      ∧ (q (after (exec (.mbxTx boss 1 false 5) (ch { nil with opened := some 2, part := [2] })))).opened = some 1
      ∧ (after (exec (.mbxRx boss 1 false) (ch one))).mt.rdata = 7
      ∧ (((after (exec (.mbxRx boss 1 false) (ch nil))).channel 1).rx false).und = some 100000
      ∧ (q (after (exec (.txflush boss 1 false) (ch { nil with opened := some 2, part := [2] })))).part = []
      ∧ (q (after (exec (.txflush boss 1 false) (ch { nil with opened := some 1, part := [2] })))).kept = some (100000, [2])
      ∧ (((after (exec (.rxflush boss 1 false) (ch one))).channel 1).rx false).words = [] := by decide +kernel

/-! ### Faults and storage -/

/-- A report that is queued, one that goes before a higher code of its sc, one whose code was queued just now, and one for
a full queue (R401 to R406). -/
theorem wit_FaultReportsAreKept :
    let r : Report := { code := 0x301, fn := some 3 }
    let s (q : FaultQ) : State := { up with ftt := { up.ftt with queues := [(3, q)] } }
    let busy := s { FaultQ.reset with lastAt := [(0x301, 99000)] }
    let full := s { FaultQ.reset with recs := List.replicate 64 0 }
    let same := s { FaultQ.reset with recs := [0x302], fresh := 1, freshAt := 100000 }
    (up.faultQ 3).quiet 0x301 up.now = true ∧ (up.faultQ 3).freshAt ≠ up.now ∧ copied 0x301 = false
      ∧ ((up.report 3 r).faultQ 3).recs.length = 1
      ∧ (same.faultQ 3).freshAt = same.now ∧ (same.faultQ 3).quiet 0x301 same.now = true
      ∧ ((same.report 3 r).faultQ 3).recs = [up.recordOf { r with fn := some 3 }, 0x302]
      ∧ (busy.faultQ 3).quiet 0x301 busy.now = false ∧ ((busy.report 3 r).faultQ 3).suppressed = ⟨0, 1, 100000⟩
      ∧ 64 ≤ (full.faultQ 3).recs.length ∧ ((full.report 3 r).faultQ 3).overflow = ⟨0, 1, 100000⟩ := by decide +kernel

/-- POP, the counts (an overflow of this sc stays counted, R18), and a glean slot, of function 3's queue and of the error
log (R404, R407). -/
theorem wit_FaultReportsAreRead :
    let q : FaultQ := { FaultQ.reset with recs := [5, 6], overflow := ⟨2, 1, 100000⟩ }
    let s : State := { up with ftt := { up.ftt with queues := [(3, q)], log := q } }
    let g (n : Nat) : Glean := ⟨5, n, 7, 7, none, none⟩
    let twice : FaultQ :=
      { q with glean := [(0, g 2)], gleanWas := [(0, g 1)], counted := [(5, 7, none)], countedAt := 100000 }
    let s2 : State := { s with ftt := { s.ftt with log := twice } }
    s.now = 100000 ∧ (after (exec (.fttElgltake boss 0) s2)).ftt.log.taken = Glean.encode (some (g 1))
      ∧ (after (exec (.fttElgltake boss 0) s2)).ftt.log.glean = [(0, g 1)]
      ∧ s.pageOk boss 3 = true ∧ s.globalOk boss = true ∧ s.ftt.fatal = false
      ∧ ((after (exec (.fttFqstatPop boss 3) s)).faultQ 3).recs = [6]
      ∧ (after (exec (.fttFqstatRead boss 3) s)).mt.rdata = pack [(0, 7, 2), (8, 24, 2)]
      ∧ ((after (exec (.fttFqstatRead boss 3) s)).faultQ 3).overflow = ⟨0, 1, 100000⟩
      ∧ ((after (exec (.fttGltake boss 3 31) s)).faultQ 3).taken = 0
      ∧ (after (exec (.fttElstatPop boss) s)).ftt.log.recs = [6]
      ∧ (after (exec (.fttElstatRead boss) s)).ftt.log.overflow = ⟨0, 1, 100000⟩
      ∧ (after (exec (.fttElgltake boss 63) s)).ftt.log.taken = 0 := by decide +kernel

/-- One error of each kind (R411 to R413, R436, R444). -/
theorem wit_StorageErrorsCost :
    let s := semState 0 0 0
    let go (x : EccSite) : State := after (exec (.eccUncorrectable x 9) s)
    s.alive = true ∧ (go .fieldMap).ftt.fatal = true ∧ bit ((go .core0).channel 1).hostOut.bits 30 = true
      ∧ ((go (.sheaf 4095)).shf.ents.look ShfEntry.reset 4095).poison = true ∧ (go (.harvestCounter 1)).hv.damageNext = true
      ∧ (go (.harvestShadow 1)).hv.damaged = true ∧ (go .traceBuffer).tr.dropped = ⟨0, 1, 100000⟩ ∧ (go (.semaphore 3)).semVal 3 = 0
      ∧ after (exec (.ce 0x42 9) s) = s.errlog { code := 0x815, arg := storageArg 0x42 9 0 }
      ∧ after (exec (.patrolScrub none none) s) = s := by decide +kernel

/-- Bank 0 reports a corrected error, is copied, and its test ends (R418, R421); a commit is tried again (R428). -/
theorem wit_BanksAreTested :
    let b (x : Bank) : State := { up with ftt := { up.ftt with banks := [(0, x)] } }
    let c := b { bankReset 0 with copyTo := some 64 }
    let t := b { bankReset 0 with st := 3, logv := false }
    let r := { up with ftt := { up.ftt with retryAt := some 0 }, nv := { up.nv with gone := false } }
    let w := { r with nv := { r.nv with job := some .save } }
    up.freeBank? = some 64 ∧ (up.bankOf 0).st = 0 ∧ ((after (exec (.ce 0 9) up)).bankOf 0).copyTo = some 64
      ∧ (c.bankOf 0).at' + 8192 ≤ c.now ∧ ((after (exec (.gsBankCopyDone 0) c)).bankOf 64).logv = true
      ∧ (t.bankOf 0).st = 3 ∧ ((after (exec (.gsBankTestDone 0 true) t)).bankOf 0).st = 1
      ∧ (after (exec (.gsBankTestDone 0 false) t)).ftt.unsaved = true
      ∧ r.alive = true ∧ r.ftt.retryAt = some 0 ∧ 0 ≤ r.tcs.start ∧ r.nv.job = none ∧ r.nv.next = [] ∧ r.nv.gone = false
      ∧ w.nv.job = some .save ∧ (after (exec .repairCommitRetry w)).nv.next = [.commit 0] := by decide +kernel

/-! ### Start-up -/

/-- The block in start-up step `n`, at sc 30,000,000,000. -/
def inStep (n : Nat) : State := { State.reset with now := 30000000000, su := { StartUp.reset with step := n, alignDone := decide (1 < n) } }

/-- Steps 1 to 3 (R59, R445, R446). -/
theorem wit_StartUpTestsTheHardware :
    let s := inStep 1
    let p := { s with su := { s.su with pulseAt := some 0 } }
    let row (r : Bool) : BistRow := ⟨0x4A, 9, r⟩
    s.alive = true ∧ s.su.alignDone = false ∧ (after (exec (.alignmentPulse true) s)).su.step = 2
      ∧ (after (exec (.alignmentPulse false) s)).su.pulseAt = some s.now
      ∧ 0 + 8192 ≤ p.now ∧ (after (exec (.alignTimeout 5) p)).su.code = 1
      ∧ (inStep 2).alive = true ∧ (after (exec (.startupFuseRead (some 7)) (inStep 2))).su.code = 2
      ∧ (inStep 2).su.stepAt + 400000 ≤ (inStep 2).now ∧ (after (exec .startupStepTimeout (inStep 2))).su.failed = true
      ∧ (inStep 3).alive = true ∧ (after (exec (.startupBist [] [row false]) (inStep 3))).su.code = 4
      ∧ (inStep 3).ftt.entries = [] ∧ (∀ r ∈ [row true], r.replaceable = true)
      ∧ (inStep 3).su.stepAt + 16000000 ≤ (inStep 3).now := by decide +kernel

/-- What else those steps need, and three banks that fail their test (R59, R446). -/
theorem wit_StartUpSteps :
    let s := inStep 1
    let t := after (exec (.alignmentPulse true) s)
    s.mesh.waiting = [] ∧ s.nv.job = none ∧ s.nv.next = [] ∧ s.nv.gone = false ∧ s.pins.flrHeld = []
      ∧ t.nv.job = some .records ∧ (inStep 2).nv.job = none
      ∧ (after (exec (.startupBist [] []) (inStep 3))).su.step = 4
      ∧ (after (exec (.startupBist [0, 1, 2] []) (inStep 3))).su.code = 4
      ∧ (after (exec .startupStepTimeout (inStep 3))).su.code = 4
      ∧ { inStep 2 with su := { (inStep 2).su with failed := true } }.alive = false := by decide +kernel

/-- Step 4 and 5 (R445, R451 to R454). -/
theorem wit_FirmwareAndMapAreTaken :
    let s := inStep 3
    let f := { inStep 4 with su := { (inStep 4).su with fwsrc := 1 } }
    let sent := { inStep 4 with su := { (inStep 4).su with fwsrc := 1, fwSent := true } }
    let h : Words := [pack [(0, 32, 0x57464B48), (32, 16, 1), (48, 16, 8)], 8, 0, 0, 0, 0, 0, 0]
    let x (u : Purpose) : Xfer := { Xfer.make u 0 0 false 64 64 [] none none with id := 7 }
    let on (s : State) (u : Purpose) : State := { s with mesh := ⟨[x u], []⟩ }
    let got (u : Purpose) (r : Resp) (ws : Words) (s : State) : State := after (exec (.meshResponse 7 r ws) (on s u))
    let held := { f with su := { f.su with fwHeader := h } }
    let p := { inStep 5 with nv := { up.nv with job := some .records } }
    let r : Words := [0, 0, 0, 0, 0, 0, 0, 0]
    let done (b : MapTry) : State := { inStep 5 with
      fm := { (inStep 5).fm with state := .recalling, image := some r, boot := b } }
    let lost : State := { inStep 5 with
      fm := { (inStep 5).fm with state := .loading, failed := true, boot := .loading } }
    let m := { inStep 5 with su := { (inStep 5).su with fmsrc := 1 }, nv := { up.nv with gone := true } }
    s.secureOk boss = true ∧ (after (exec (.suFwsrcWrite boss 0x41) s)).su.fwsrc = 0x41
      ∧ (after (exec (.suFwsrcWrite boss 0x41) (inStep 4))).su.stepAt = 30000000000
      ∧ (after (exec (.suFmsrcWrite boss 0x43) (inStep 5))).su.fmsrc = 0x41 ∧ (inStep 5).fm.swap = none
      ∧ (after (exec (.suFwsrcWrite boss 0x81) f)).su = f.su ∧ (after (exec (.suFmsrcWrite boss 0x81) m)).su = m.su
      ∧ m.fm.state = .idle
      ∧ (after (exec (.suFmsrcWrite boss 0x43) s)).su.fmsrc = 0x41 ∧ up.secureOk boss = true
      ∧ (after (exec (.suFwsrcWrite boss 0x41) up)).su = up.su
      ∧ f.alive = true ∧ f.su.fwBegun = false ∧ (after (exec (.firmwareBoot false) f)).mesh.out.map (·.bytes) = [64]
      ∧ (on f (.firmware false)).xfer? 7 = some (x (.firmware false)) ∧ (x (.firmware false)).last = true
      ∧ (x (.firmware false)).fits r = true ∧ (x (.firmware false)).fits h = true
      ∧ (got (.firmware true) .decode r f).su.detail = 64
      ∧ fwHeaderBad r = some 0 ∧ (got (.firmware false) .ok r f).su.code = 6 ∧ fwHeaderBad h = none
      ∧ (got (.firmware false) .ok h f).su.fwHeader = h ∧ held.su.fwHeader ≠ [] ∧ held.su.fwCopying = false ∧ held.alive = true
      ∧ (after (exec (.firmwareBoot true) held)).mesh.out.map (fun y => (y.addr, y.bytes)) = [(64, 8)]
      ∧ (got (.firmware true) .ok r f).su.fwSent = true
      ∧ sent.alive = true ∧ after (exec (.firmwareReply 2 0) sent) = sent
      ∧ (after (exec (.firmwareReply 1 0) sent)).su.step = 5 ∧ (after (exec (.firmwareReply 1 3) sent)).su.detail = 3
      ∧ m.alive = true ∧ m.fm.swap = none ∧ m.nv.gone = true
      ∧ (after (exec (.startupFieldMap true) m)).fm.boot = .loading ∧ (inStep 5).fm.boot = .none ∧ (inStep 5).nv.gone = false
      ∧ (inStep 5).nv.job = none ∧ (inStep 5).nv.next = [] ∧ (after (exec (.startupFieldMap false) (inStep 5))).nv.job = some .recall
      ∧ p.nv.job = some .records ∧ (after (exec (.startupFieldMap false) p)).nv.next = [.recall]
      ∧ (done .recalling).alive = true ∧ (after (exec .fmLoadDone (done .recalling))).fm.boot = .refused
      ∧ (after (exec .fmLoadDone (done .loading))).su.detail = 2 ∧ (after (exec .fmLoadDone lost)).su.detail = 1 := by
  decide +kernel

/-- The bounds of steps 4, 6, 7 and 8, the release, the test port and the clock ratio (R60, R61, R306, R445 to R449). -/
theorem wit_ReleaseStartsTheFunctions :
    let lock := { up with pins := { up.pins with tstLock := true } }
    (inStep 4).su.stepAt + 20000000000 ≤ (inStep 4).now ∧ (after (exec .startupStepTimeout (inStep 4))).su.code = 8
      ∧ (after (exec .startupStepTimeout (inStep 6))).su.yokedeg = true
      ∧ (inStep 7).su.stepAt + 8 * (inStep 7).period ≤ (inStep 7).now
      ∧ (after (exec .startupStepTimeout (inStep 7))).su.step = 8
      ∧ (inStep 8).alive = true ∧ (inStep 8).su.stepAt + 8000000 ≤ (inStep 8).now ∧ (inStep 8).untested = []
      ∧ (after (exec (.jtagInstruction .status) up)).pins.jtag = .status
      ∧ (after (exec (.jtagInstruction .status) lock)).pins.jtag = up.pins.jtag
      ∧ (after (exec (.jtagInstruction .startBist) up)).pins.jtag = up.pins.jtag
      ∧ after (exec (.clkRatio 20) up) = up
      ∧ after (exec (.clkRatio 19) up) = up.errlog { code := 0x809, arg := 19 } := by decide +kernel

/-- SU_LOOP of cluster 0, taken and ignored; the responder; the generator (R455 to R458). -/
theorem wit_BringUpAids :
    let x : Task := ⟨0, 1, 0, none, false⟩
    let busy := work { eng0 with front := .running x 1 } up
    let loop (r : Engine) : State := { work r up with su := { up.su with loop := 1 } }
    let d := loop { eng0 with front := .driven x 99997 }
    let tok := loop { eng0 with token := some 2, tokenAt := 99998 }
    let g := { withGraph graph0 up with su := { up.su with gencfg := 5, genbusy := true } }
    let free := { withGraph graph0 up with su := { up.su with gencfg := 5 } }
    up.secureOk boss = true ∧ busy.loopBusy 0 = true ∧ engineKind? 0 ≠ none ∧ (bit (1 : W64) 0 != busy.looped 0) = true
      ∧ (after (exec (.suLoopWrite boss 1) busy)).su = busy.su
      ∧ up.looped 0 = false ∧ after (exec (.loopbackResponse 0 .token) up) = up
      ∧ d.alive = true ∧ d.looped 0 = true ∧ ((after (exec (.loopbackResponse 0 .descriptorAck) d)).engine 0).front = .running x 100000
      ∧ ((after (exec (.loopbackResponse 0 .token) tok)).engine 0).inc = 1
      ∧ up.globalOk boss = true ∧ (after (exec (.suGenctlGo boss) free)).su.genAt = 100000
      ∧ (after (exec (.suGenctlGo boss) g)).su = g.su
      ∧ g.su.genAt + g.genTime ≤ g.now ∧ g.graph? (fld g.su.gencfg 0 16) = some graph0
      ∧ (after (exec .generationDone g)).su.genbusy = false := by decide +kernel

/-! ### Plots -/

/-- PLOT_PREEMPT and PLOT_RESUME of plot 0 (R349, R350). -/
theorem wit_PlotsArePreempted :
    let p := pkt [0x4000000040]
    let r := pkt [0x41]
    let plot (x : PlotState) (s : State) : State := { s with pru := { s.pru with plots := [(0, { Plot.reset with st := x })] } }
    let f1 (p : BitVec 512) : State := { up with hcf := ⟨[(64, running p)], 16383⟩ }
    (onQ p).heads 0 p ∧ opcode p = 0x40 ∧ (onQ p).mayPlot 0 0 = true ∧ pf p 0 38 2 = 1
      ∧ ((after (exec (.plotPreempt 0) (onQ p))).plot 0).st = .preempted
      ∧ (plot .preempted (onQ p)).heads 0 p
      ∧ after (exec (.plotPreempt 0) (plot .preempted (onQ p))) = ((plot .preempted (onQ p)).serve 0).retire 0 0x41 0
      ∧ (f1 p).heads 64 p ∧ (f1 p).mayPlot 1 0 = false ∧ after (exec (.plotPreempt 64) (f1 p)) = ((f1 p).serve 64).retire 64 0x40 0
      ∧ (plot .preempted (onQ r)).heads 0 r ∧ opcode r = 0x41
      ∧ ((after (exec (.plotResume 0) (plot .preempted (onQ r)))).plot 0).st = .running
      ∧ (onQ r).heads 0 r ∧ after (exec (.plotResume 0) (onQ r)) = ((onQ r).serve 0).retire 0 0x41 0
      ∧ (f1 r).heads 64 r ∧ after (exec (.plotResume 64) (f1 r)) = ((f1 r).serve 64).retire 64 0x40 0 := by decide +kernel

/-- PLOT_PREEMPT by saving with no save area (R355); an ESCALATE whose DEADLINE has passed (R353). -/
theorem wit_EscalatedPreemptions :
    let p := pkt [0x8000000040]
    let s : State := { onQ p with pru := { up.pru with segs := [], plots := [(0, { Plot.reset with saveCfg := 0x20001 })] } }
    let x : Task := ⟨0, 1, 0, none, false⟩
    let c : PlotCmd := ⟨some 0, 3, 0, 50, true, 0, 0, 0, false, false, [0], false⟩
    let e : State := { work { eng0 with front := .running x 1, token := some 1, back := { Back.reset with st := .withdrawing } } up with
      pru := { up.pru with plots := [(0, { Plot.reset with cmd := some c })] } }
    s.heads 0 p ∧ s.saveCheck [] [0] ≠ 0 ∧ after (exec (.plotPreempt 0) s) = (s.serve 0).retire 0 (s.saveCheck [] [0]) 0
      ∧ c.at' + c.deadline * 2000 ≤ e.now ∧ e.sowing? 0 ≠ none
      ∧ ((after (exec (.escalateDeadline 0) e)).engine 0).preempt = some ⟨2, .plot 0, none, false, none⟩ := by decide +kernel

/-- PLOT_LEND and PLOT_RECLAIM of engine 0 between plots 0 and 1 (R339 to R341, R358, R359). -/
theorem wit_EnginesAreLent :
    let k := pkt [0x42, 0, 1]
    let n := pkt [0x42]
    let r := pkt [0x4000000043, 0, 1]
    let cfg (lent : Bool) (s : State) : State := { s with
      fm := { s.fm with active := { s.fm.active with engines := [(0, { EngCfg.reset with active := true, lendv := true, lend := 1 })] } }
      eng := [(0, { eng0 with lent := lent })] }
    let s := cfg false (onQ k)
    let b := cfg true (onQ r)
    s.heads 0 k ∧ opcode k = 0x42 ∧ s.mayPlot 0 0 = true ∧ (s.plot 0).move = none ∧ s.savingDir 0 = false
      ∧ s.plotOf 0 = 0 ∧ (after (exec (.plotLend 0) s)).plotOf 0 = 1
      ∧ (onQ n).heads 0 n ∧ after (exec (.plotLend 0) (onQ n)) = ((onQ n).serve 0).retire 0 0x42 0
      ∧ b.heads 0 r ∧ opcode r = 0x43 ∧ pf r 0 38 2 = 1 ∧ b.plotOf 0 = 1 ∧ (after (exec (.plotReclaim 0) b)).plotOf 0 = 0
      ∧ (onQ r).heads 0 r ∧ after (exec (.plotReclaim 0) (onQ r)) = ((onQ r).serve 0).retire 0 0x42 0 := by decide +kernel

/-! ### Segments and buckets -/

/-- `up` with segment 1 of function 0 as given. -/
def withSeg (x : Seg) (s : State) : State := { s with pru := { s.pru with segs := [(0, seg0), (1, x)] } }

/-- Segment 1 of function 0 is installed, not installed beyond 2^56, and withdrawn (R363, R365). -/
theorem wit_SegmentsInstall :
    let free := withSeg { seg0 with valid := false } up
    let big := withSeg { seg0 with valid := false, base := 0xFFFFFFFFFFF } up
    let held := withSeg { seg0 with holders := [3] } up
    up.globalOk boss = true ∧ ({ seg0 with valid := false }.base.toNat + seg0.limit.toNat + 1) * 4096 ≤ 2 ^ 56
      ∧ ((after (exec (.pruSegctlInstall boss 0 1) free)).segment 0 1).valid = true
      ∧ ¬(big.segment 0 1).base.toNat + (big.segment 0 1).limit.toNat + 1 ≤ 2 ^ 44
      ∧ (after (exec (.pruSegctlInstall boss 0 1) big)).pru = big.pru
      ∧ (held.segment 0 1).valid = true ∧ (held.segment 0 1).wdraw = false
      ∧ (after (exec (.pruSegctlWithdraw boss 0 1) free)).pru = free.pru := by decide +kernel

/-- SEG_WITHDRAW of a VALID segment, of one being withdrawn, and of one that is not VALID (R365, R369). -/
theorem wit_SegWithdraws :
    let k := pkt [0x100000020]
    let v := withSeg seg0 (onQ k)
    let w := withSeg { seg0 with wdraw := true } (onQ k)
    let n := withSeg { seg0 with valid := false } (onQ k)
    v.heads 0 k ∧ opcode k = 0x20 ∧ pf k 0 32 4 = 1 ∧ (v.segment 0 1).valid = true ∧ (v.segment 0 1).wdraw = false
      ∧ w.heads 0 k ∧ ((after (exec (.segWithdraw 0) w)).segment 0 1).queues = [0]
      ∧ n.heads 0 k ∧ after (exec (.segWithdraw 0) n) = (n.serve 0).retire 0 0 0 := by decide +kernel

/-- Nothing is awaited any more, with a command that waits and without (R365, R369). -/
theorem wit_WithdrawalsEnd :
    let k := pkt [0x100000020]
    let w (l : List Nat) : State := withSeg { seg0 with wdraw := true, queues := l }
      { up with hcf := ⟨[(0, { running k with st := .stalled, wait := 8, head := .withdraw })], 16383⟩ }
    (w []).withdrawDone 0 1 = true ∧ (w []).savedIn 0 1 = [] ∧ (w []).alive = true
      ∧ ((after (exec (.segWithdrawSignal 0 1) (w []))).segment 0 1).stale = true
      ∧ (w [0]).headPacket? 0 = some k ∧ ((after (exec (.segWithdrawSignal 0 1) (w [0]))).queue 0).rptr = 1 := by decide +kernel

/-- A fill for engine 0 and for one that runs nothing, the acknowledgement of a notice, and one that is late (R364, R366,
R367). -/
theorem wit_SegmentsAreHeld :
    let x : Task := ⟨0, 1, 0, none, false⟩
    let r : Req := ⟨0, false, .engine, 0⟩
    let n : NoticeBlk := ⟨3, 7, 0, 1, true, 0⟩
    let s := withSeg { seg0 with unacked := [0] } (work { eng0 with front := .running x 1 } up)
    let a := withSeg { seg0 with wdraw := true, unacked := [0] } (work { eng0 with notice := some n } up)
    let l := { a with now := 2 ^ 20 }
    s.engineReads r 0 = true ∧ s.runsFn 0 0 = true ∧ s.runsFn 3 0 = false
      ∧ ((after (exec (.pruEsegFill r 0 1 false) s)).segment 0 1).holders = [0]
      ∧ (after (exec (.pruEsegFill engReq 0 1 false) s)).mt.rdata = 0
      ∧ a.engineInReset 0 = false ∧ (a.engine 0).inc.toNat = fld (7 : W64) 8 8
      ∧ ((after (exec (.pruEwack r 0 7) a)).segment 0 1).unacked = []
      ∧ n.at' + 2 ^ 20 ≤ l.now ∧ ((after (exec (.segInvalTimeout 0) l)).engine 0).service = .out := by decide +kernel

/-- A refill, and draws on the task bucket, the save bucket and none (R343, R344). -/
theorem wit_BucketsRegulate :
    let x : Task := ⟨0, 1, 0, none, false⟩
    let r : Req := ⟨0, false, .engine, 0⟩
    let s := work { eng0 with front := .running x 1 } up
    let v := { work { eng0 with front := .running x 1, notice := some ⟨1, 0, 0, 0, true, 0⟩ } up with
      pru := { up.pru with plots := [(0, { Plot.reset with saveTokens := 128 })] } }
    let low : State := { up with pru := { up.pru with plots := [(0, { Plot.reset with tokens := -64 })] } }
    low.pru.refillAt + 64 ≤ low.now ∧ low.mesh.waiting = [] ∧ ((after (exec .bucketRefill low)).plot 0).tokens = -64 + 32 * 4095
      ∧ s.grantFrom 0 0 = some (0, false) ∧ fld (after (exec (.pruEgrant r 0) s)).mt.rdata 0 11 = 1024
      ∧ v.grantFrom 0 0 = some (0, true) ∧ fld (after (exec (.pruEgrant r 0) v)).mt.rdata 0 12 = 2 + 2048
      ∧ s.grantFrom 3 0 = none ∧ (after (exec (.pruEgrant engReq 0) s)).mt.rdata = 0 := by decide +kernel

/-! ### The tick -/

/-- The edge of tick 0 at sc 2,000,000, with a SWAP that is due, and its headland (R305 to R308, R395). -/
theorem wit_TickEdgesAndHeadlands :
    let e := { up with now := 2000000, tcs := { up.tcs with inHead := true }, fm := { up.fm with swap := some (1999936, none) } }
    let h := { up with now := 1980000 }
    let r := { h with yoke := { up.yoke with phase := .ready, exch := [⟨10, 7⟩, ⟨8, -7⟩], parentTick := some 41 } }
    e.alive = true ∧ e.su.alignDone = true ∧ e.tcs.edge ≤ e.now ∧ 1999936 + 64 ≤ e.now ∧ e.ftt.edits = []
      ∧ (∀ i ∈ engineIds, (e.fm.shadow.eng i).active = false)
      ∧ h.tcs.inHead = false ∧ h.tcs.edge ≤ h.now + h.tcs.head ∧ (after (exec .headlandStart h)).tcs.inHead = true
      ∧ (after (exec .headlandStart r)).tcs.len = 2000003 ∧ (after (exec .headlandStart r)).tcs.renum = some 42 := by decide +kernel

/-- A cyclic entry of function 0, queue 0, plot 0, tick 0, offset 1. -/
def cyEntry (kind target sem : Nat) (val : Nat) : BitVec 256 :=
  BitVec.ofNat 256 (1 * 2 ^ 8 + kind * 2 ^ 36 + target * 2 ^ 80 + sem * 2 ^ 128 + val * 2 ^ 160)
/-- The active map holds it as entry 0. -/
def withEntry (r : BitVec 256) (s : State) : State :=
  { s with fm := { s.fm with active := { s.fm.active with cyc := [r] } } }

/-- A LAUNCH of graph 5, a SEM of -1, one of a queue that is not enabled, one in a reset, one whose time has not come
(R308, R312, R313). -/
theorem wit_CyclicEntriesFire :
    let l := withEntry (cyEntry 1 5 0 0) (quotaed (withGraph sealed0 (semState 0 0 0)))
    let m := withEntry (cyEntry 3 0 3 0xFFFFFFFF) (semState 0 0 0)
    let off := withEntry (cyEntry 1 5 0 0) up
    let rst := { l with ftt := { l.ftt with resets := [(0, ⟨1, false, [], 0, 0, 0, 0, 0⟩)] } }
    let early := withEntry (BitVec.ofNat 256 (100001 * 2 ^ 8 + 1 * 2 ^ 36)) up
    l.alive = true ∧ l.fireable 0 1 = true ∧ l.inReset 0 = false ∧ l.skipReason 0 0 = 0 ∧ l.launchCheck 0 5 = 0
      ∧ l.launchHold 0 5 sealed0 false = .none ∧ ((after (exec (.cyclicLaunch 0) l)).sowing? 0).map (·.st) = some .active
      ∧ m.fireable 0 3 = true ∧ m.semCheck 0 0 3 2 = 0 ∧ (after (exec (.cyclicSem 0) m)).semVal 3 = 4
      ∧ off.fireable 0 1 = true ∧ off.skipReason 0 0 = 4 ∧ (off.faultQ 0).quiet 0x306 off.now = true
      ∧ ((after (exec (.cyclicLaunch 0) off)).faultQ 0).recs.length = 1
      ∧ rst.inReset 0 = true ∧ (after (exec (.cyclicLaunch 0) rst)).sow = rst.sow
      ∧ early.fireable 0 1 = false ∧ after (exec (.cyclicLaunch 0) early) = early := by decide +kernel

/-- Model 0 of function 0: graph 5, 1 buffer, queue 0. -/
def model0 : Model := ⟨0, 5, 0, 4, 1, 16, 16, 0, false, false, 0, 0, 0⟩
/-- A sequence of model 0 with LEN 3. -/
def seq0 (st : SeqState) : Seq' := ⟨st, 0, 0, 0, 3, 3, 10, false, false, false, 0, 0x2000, 0, 0⟩

/-- A STEP of model 0 with an ACTIVE sequence (R301). -/
theorem wit_CyclicSteps :
    let off := { withEntry (cyEntry 2 0 0 0) up with stu := { up.stu with models := [(0, model0)] } }
    let s := { withEntry (cyEntry 2 0 0 0) (quotaed (withGraph sealed0 (semState 0 0 0))) with
      stu := { up.stu with models := [(0, model0)], seqs := [(7, seq0 .active)], lists := [(0, [7])] } }
    s.fireable 0 2 = true ∧ s.model? 0 0 = some model0 ∧ s.skipReason 0 0 = 0 ∧ s.hasActive 0 = true
      ∧ s.launchCheck 0 5 = 0 ∧ s.launchHold 0 5 sealed0 false = .none ∧ s.bufFree 0 0 model0 = true
      ∧ model0.stepq < 64 ∧ (after (exec (.cyclicStep 0) s)).stu.queue = [0]
      ∧ off.fireable 0 2 = true ∧ off.inReset 0 = false ∧ off.stepQueue (off.cyclicEntry 0) = 0 ∧ off.skipReason 0 0 = 4
      ∧ (off.faultQ 0).quiet 0x303 off.now = true ∧ ((after (exec (.cyclicStep 0) off)).faultQ 0).recs.length = 1 := by decide +kernel

/-- A deadline that has come (R314). -/
theorem wit_TickOverruns :
    let c : CycInfo := ⟨0, some 100000, 0, false, false⟩
    let s := withSow { sow0 with cyc := some c } (withGraph sealed0 up)
    let f := { s with fm := { s.fm with active := { s.fm.active with plots := [(0, { PlotCfg.reset with overrunFail := true })] } } }
    s.alive = true ∧ 100000 ≤ s.now ∧ (s.plotCfg 0).overrunFail = false
      ∧ ((after (exec (.tickOverrun 0 0) s)).sowing? 0).map (·.cyc) = some (some { c with reported := true })
      ∧ (f.plotCfg 0).overrunFail = true := by decide +kernel

/-- TICK_WAIT of a time that is past and one to come, and its retirement (R331). -/
theorem wit_TickWaits :
    let past := pkt [0x51, 0, 0, 99999]
    let come := pkt [0x51, 0, 0, 100001]
    let at' := pkt [0x51, 0, 0, 100000]
    let w := { up with hcf := ⟨[(0, { running at' with st := .stalled, wait := 11, head := .tickWait })], 16383⟩ }
    (onQ past).heads 0 past ∧ (onQ past).tickPassed 0 99999 = true
      ∧ after (exec (.tickWait 0) (onQ past)) = ((onQ past).serve 0).retire 0 0x55 0
      ∧ (onQ come).heads 0 come ∧ (onQ come).tickPassed 0 100001 = false
      ∧ ((after (exec (.tickWait 0) (onQ come))).queue 0).wait = 11
      ∧ w.headPacket? 0 = some at' ∧ w.tickReached 0 100000 = true
      ∧ after (exec (.tickWaitRetire 0) w) = w.retire 0 0 0 := by decide +kernel

/-- YOKE_BARRIER 2 of `chips` chips with offset 9, and a queue that waits at it. -/
def barPkt (chips : Nat) : BitVec 512 := pkt [pack [(0, 8, 0x50), (32, 4, 2), (36, 9, chips)], 0, 9]
/-- Queue 1 waits at barrier 2. -/
def barQueue (due : Option (BitVec 48 × Nat)) : Queue := { running (barPkt 1) with st := .stalled, wait := 12, head := .yoke due }
/-- A chip of the given role, joined with `n` chips. -/
def yoked (role n : Nat) (s : State) : State := { s with
  fm := { s.fm with active := { s.fm.active with chip := { s.fm.active.chip with role := role } } }
  yoke := { s.yoke with role := role, phase := .joined, count := n, port := 4 } }

/-- YOKE_BARRIER with no yoke, on a member and on a master (R328, R329). -/
theorem wit_BarriersAreEntered :
    let s := onQ (barPkt 1)
    let two := onQ (barPkt 2)
    let busy := { s with hcf := ⟨s.hcf.queues ++ [(1, barQueue none)], 16383⟩ }
    let go (t : State) : State := after (exec (.yokeBarrier 0) t)
    let lone := { yoked 1 1 s with yoke := { up.yoke with role := 1 } }
    let left := { yoked 1 1 s with yoke := { (yoked 1 1 s).yoke with arrivals := [⟨96, 0, 2, 1, 1, 9⟩] } }
    s.heads 0 (barPkt 1) ∧ opcode (barPkt 1) = 0x50 ∧ s.fm.active.chip.role = 0 ∧ s.barrierQueues 0 2 = []
      ∧ ((go s).queue 0).head = .yoke (some (1, 9)) ∧ two.heads 0 (barPkt 2) ∧ go two = (two.serve 0).retire 0 0x50 0
      ∧ busy.heads 0 (barPkt 1) ∧ busy.barrierQueues 0 2 = [1] ∧ go busy = (busy.serve 0).retire 0 0x54 0
      ∧ lone.heads 0 (barPkt 1) ∧ lone.yoke.joined = false ∧ go lone = (lone.serve 0).retire 0 0x50 0
      ∧ (yoked 1 2 s).heads 0 (barPkt 1) ∧ (yoked 1 2 s).yoke.joined = true ∧ go (yoked 1 2 s) = ((yoked 1 2 s).serve 0).retire 0 0x51 0
      ∧ go (yoked 1 1 busy) = ((yoked 1 1 busy).serve 0).retire 0 0x54 0
      ∧ left.heads 0 (barPkt 1) ∧ left.abandonedRound 0 2 = true ∧ ((go left).queue 0).head = .yokeNext
      ∧ (go (yoked 1 1 s)).yoke.arrivals = [⟨96, 0, 2, 1, 1, 9⟩] ∧ (yoked 2 1 s).yoke.arrivals = []
      ∧ ((go (yoked 2 1 s)).queue 0).head = .yoke (some (2, 9))
      ∧ (go (yoked 2 2 two)).yoke.arrivals = [⟨96, 0, 2, 2, 1, 9⟩] := by decide +kernel

/-- A release with a time and with an abort code, an arrival that completes the count and one that does not, and the
retirement at its time (R329, R330). -/
theorem wit_BarriersAreReleased :
    let s := yoked 1 1 { up with hcf := ⟨[(0, barQueue none)], 16383⟩, pins := { up.pins with lsUp := BitVec.allOnes 96 } }
    let m := { yoked 2 2 s with yoke := { (yoked 2 2 s).yoke with kids := [(5, 1)], arrivals := [⟨96, 0, 2, 2, 1, 9⟩] } }
    let m3 := { m with yoke := { m.yoke with arrivals := [⟨96, 0, 2, 3, 1, 9⟩] } }
    let d := { up with hcf := ⟨[(0, barQueue (some (0, 9)))], 16383⟩ }
    s.alive = true ∧ s.yoke.joined = true ∧ s.pins.lsUp.getLsbD 4 = true ∧ s.barrierQueues 0 2 = [0] ∧ s.tickPassed 3 9 = false ∧ s.yoke.port = 4
      ∧ ((after (exec (.release 4 0 2 3 9 0) s)).queue 0).head = .yoke (some (3, 9))
      ∧ ((after (exec (.release 4 0 2 3 9 0x52) s)).queue 0).rptr = 1
      ∧ m.barrierQueues 0 2 = [0] ∧ m.mirrorKid 5 = false
      ∧ ((after (exec (.arrive 5 0 2 2 1) m)).queue 0).head = .yoke (some (2, 9))
      ∧ (after (exec (.arrive 5 0 2 3 1) m3)).yoke.arrivals.length = 2
      ∧ d.tickReached 0 9 = true ∧ after (exec (.barrierRetire 0) d) = d.retire 0 0 0 := by decide +kernel

/-! ### The sheaf -/

/-- Engine 0, running node 1 of function 0. -/
def eng0Req : Req := ⟨0, false, .engine, 0⟩
/-- The block with engine 0 running node 1. -/
def runs0 : State := work { eng0 with front := .running ⟨0, 1, 0, none, false⟩ 1 } up
/-- `s` with sheaf entry 0. -/
def withEnt (x : ShfEntry) (ops : List ShfOp) (s : State) : State :=
  { s with shf := { s.shf with ents := [(0, x)], ops := ops, next := ops.length } }
/-- Sheaf entry of function 0, enabled, format 0 with COUNT 1. -/
def ent0 : ShfEntry := { ShfEntry.reset with enable := true, fmtv := true, count := 1 }
/-- An SHF_EOP value. -/
def eop (op fmt inc : Nat) : W64 := pack [(12, 3, op), (15, 3, fmt), (54, 8, inc)]
/-- Operation 0 on entry 0, of engine 0, accepted in an earlier sc. -/
def shfOp (op : Nat) (ph : ShfPhase) : ShfOp :=
  { num := 0, ent := 0, op := op, fmt := 0, fn := 0, eng := 0, sow := 0, queue := 0, at' := 99999
    inc := 0, addr := 0x40, plot := 0, phase := ph, status := 0, data := [], cfg := none }

/-- Two contributions in both orders, and one merged through a raw image (R275). -/
theorem wit_SheafSumsDoNotDependOnOrder :
    let a := Elem.finite 5 false
    let b := Elem.finite (-3) false
    [a, b].Perm [b, a] ∧ ((Lane.cleared.add 0 a).add 0 b).sum = 2 ∧ ((Lane.cleared.add 0 b).add 0 a).sum = 2
      ∧ ((Lane.cleared.add 0 a).merge (Lane.decode (Lane.cleared.add 0 b).encode)).sum = 2 := by decide +kernel

/-- Every refusal of an SHF_EOP write, and one of each OP that is accepted (R263, R265, R266). -/
theorem wit_SheafOperationsAreAccepted :
    let s := withEnt ent0 [] runs0
    let none' := withEnt { ent0 with owner := 1 } [] runs0
    let full := withEnt ent0 (List.replicate 8 (shfOp 3 .ready)) runs0
    let shf (c : Instr) (t : State) : ShfRes := ((after (exec c t)).engine 0).shf
    s.engineOk eng0Req 0 = true ∧ bit (s.sheafCfg 0) 8 = true ∧ fld (s.sheafCfg 0) 0 8 = 0
      ∧ (shf (.sheafAdd eng0Req 0 (eop 1 0 9)) s).firsterr = ⟨0, 0x2B, 100000⟩
      ∧ (shf (.sheafAdd eng0Req 0 (eop 1 0 0)) none').firsterr = ⟨0, 0x28, 100000⟩
      ∧ (shf (.sheafClear eng0Req 0 (eop 5 0 0)) s).firsterr = ⟨0, 0x29, 100000⟩
      ∧ (shf (.sheafClear eng0Req 0 (eop 0 5 0)) s).firsterr = ⟨0, 0x29, 100000⟩
      ∧ (full.shfOut 0).length = 8 ∧ (shf (.sheafAdd eng0Req 0 (eop 1 0 0)) full).firsterr = ⟨0, 0x2A, 100000⟩
      ∧ (shf (.sheafClear eng0Req 0 (eop 0 4 0)) s).acc = 1 ∧ (shf (.sheafDrain eng0Req 0 (eop 3 0 0)) s).acc = 1
      ∧ (shf (.sheafDrainRaw eng0Req 0 (eop 4 0 0)) s).acc = 1 ∧ (shf (.sheafAddRaw eng0Req 0 (eop 2 0 0)) s).acc = 1
      ∧ ((withEnt ent0 [shfOp 1 .accepted] runs0).shf.ops.filter fun y => y.phase == .accepted) = [shfOp 1 .accepted]
      ∧ s.translate 0 0x40 128 .read (some 0) true = .ok 0x100040
      ∧ (withEnt ent0 [shfOp 1 .accepted] runs0).shfReads.mesh.out.map (·.bytes) = [128] := by decide +kernel

/-- A completed operation, of this incarnation and of another; SHF_ENTCFG; SHF_ERES for an engine, with an error of this sc
that stays (R18), and for others (R257, R259, R267, R269). -/
theorem wit_SheafResultsAreRead :
    let ended (o : ShfOp) : State := { withEnt ent0 [] runs0 with shf := { (withEnt ent0 [] runs0).shf with ended := [o] } }
    let s := ended (shfOp 3 .ready)
    let stale := ended { shfOp 3 .ready with inc := 9 }
    let idle := withEnt ent0 [] runs0
    let err := { idle with eng := [(0, { idle.engine 0 with shf := ⟨0, ⟨0x29, 0x2A, 100000⟩, 0, 0, Rc.zero, Rc.zero, Rc.zero, Rc.zero⟩ })] }
    let e' := after (exec (.shfEres eng0Req 0) err)
    s.alive = true ∧ (s.shf.ended.find? fun y => y.ent == 0) = some (shfOp 3 .ready) ∧ s.shf.ops = []
      ∧ ((after (exec (.sheafOpComplete 0) s)).engine 0).shf.cmp = 1 ∧ (after (exec (.sheafOpComplete 0) s)).shf.ended = []
      ∧ ((after (exec (.sheafOpComplete 0) stale)).engine 0).shf.cmp = 0
      ∧ idle.globalOk boss = true ∧ (after (exec (.shfEntcfgWrite boss 0 0x107) idle)).shf.ops.map (·.cfg) = [some 0x107]
      ∧ err.engineReads eng0Req 0 = true ∧ e'.mt.resp = 0 ∧ e'.mt.rdata = err.shfEresOf 0 ∧ fld e'.mt.rdata 8 8 = 0x29
      ∧ (e'.engine 0).shf.firsterr = ⟨0, 0x2A, 100000⟩
      ∧ idle.pageOk boss 0 = true ∧ (after (exec (.shfEres boss 0) err)).mt.rdata = 0 := by decide +kernel

/-- CLEAR, ADD and their failures (R264, R271, R277, R280). -/
theorem wit_SheafOperationsApply :
    let on (x : ShfEntry) (op : Nat) (ph : ShfPhase) : State := withEnt x [shfOp op ph] runs0
    let go (s : State) : ShfEntry := (after (exec (.sheafApply 0) s)).sheaf 0
    let st (s : State) : List (BitVec 8) := (after (exec (.sheafApply 0) s)).shf.ended.map (·.status)
    let now' := withEnt ent0 [{ shfOp 1 .ready with at' := 100000 }] runs0
    let c : ShfOp := { shfOp 0 .ready with cfg := some 0x107 }
    let cfg := withEnt ent0 [c] runs0
    (on ent0 1 .ready).alive = true ∧ (on ent0 1 .ready).nextOp? 0 = some (shfOp 1 .ready)
      ∧ after (exec (.sheafApply 0) (on ent0 1 .reading)) = on ent0 1 .reading
      ∧ (go (on ent0 0 .ready)).count = 0 ∧ (go (on ent0 1 .ready)).count = 2 ∧ (go (on ent0 1 .failed)).lost = true
      ∧ st (on { ent0 with poison := true } 1 .ready) = [0x2E] ∧ st (on { ent0 with fmtv := false } 1 .ready) = [0x29]
      ∧ (go (on { ent0 with count := 2 ^ 38 - 2 } 1 .ready)).count = 2 ^ 38 - 1
      ∧ st (on { ent0 with count := 2 ^ 38 - 1 } 1 .ready) = [0x2C]
      ∧ st (on { ent0 with poison := true } 1 .failed) = [0x2E]
      ∧ now'.nextOp? 0 = some { shfOp 1 .ready with at' := 100000 } ∧ after (exec (.sheafApply 0) now') = now'
      ∧ cfg.nextOp? 0 = some c ∧ go cfg = { ShfEntry.reset with owner := 7, enable := true }
      ∧ go (withEnt { ent0 with owner := 7 } [c] runs0) = { ent0 with owner := 7 } := by decide +kernel

/-- ADD_RAW and the drains (R274, R276, R278). -/
theorem wit_SheafImagesApply :
    let raw (fmt : Nat) : Words := pack [(0, 16, 0x5846), (16, 3, fmt), (24, 38, 5)] :: List.replicate 167 0
    let on (x : ShfEntry) (op : Nat) (d : Words) : State := withEnt x [{ shfOp op .ready with data := d }] runs0
    let go (s : State) : State := after (exec (.sheafApply 0) s)
    rawOk (raw 0) = true ∧ rawOk [] = false ∧ ((go (on ent0 2 (raw 0))).sheaf 0).count = 6
      ∧ (go (on ent0 2 [])).shf.ended.map (·.status) = [0x2D] ∧ (go (on ent0 2 (raw 1))).shf.ended.map (·.status) = [0x29]
      ∧ (go (on { ent0 with poison := true } 3 [])).shf.ended.map (·.status) = [0x2E]
      ∧ (go (on { ent0 with fmtv := false } 4 [])).shf.ended.map (·.status) = [0x29]
      ∧ (on ent0 3 []).translate 0 0x40 (8 * (packElems ent0.fmt ent0.drains).length) .write (some 0) true = .ok 0x100040
      ∧ (go (on ent0 3 [])).mesh.out.map (·.bytes) = [128] := by decide +kernel

/-! ### Messages -/

/-- Engine 0, logical 0, and engine 1, logical 1, with `l` as engine 0's sends. -/
def withSends (l : List Send) : State := { runs0 with
  fm := { up.fm with active := { up.fm.active with
    engines := [(0, { EngCfg.reset with active := true }), (1, { EngCfg.reset with active := true, logical := 1 })] } }
  eng := [(0, { eng0 with front := .running ⟨0, 1, 0, none, false⟩ 1, sends := l }), (1, eng0)]
  mrs := { up.mrs with rx := [(0, pack [(12, 36, 1), (48, 4, 4), (52, 1, 1)])] } }
/-- A send to engine 1 of this chip, 64 B, at 0x1000. -/
def send0 (ph : SendPhase) : Send := ⟨0, 0x1000, 0, ph, [pack [(9, 9, 1), (30, 9, 64)], 0x2000, 0, 0, 0, 0, 0, 0], []⟩

/-- MRS_ESEND of another incarnation, as the eighth, as a ninth (R247, R248). -/
theorem wit_SendsAreTaken :
    let s := withSends (List.replicate 7 (send0 .accepted))
    let f := withSends (List.replicate 8 (send0 .accepted))
    s.engineOk eng0Req 0 = true ∧ ((after (exec (.mrsEsend eng0Req 0 (9 <<< 46)) s)).engine 0).sends.length = 7
      ∧ ((after (exec (.mrsEsend eng0Req 0 0x40) s)).engine 0).sends.length = 8
      ∧ f.translate 0 16 8 .write (some 0) false = .ok 0x100010
      ∧ (after (exec (.mrsEsend eng0Req 0 0) f)).mesh.out.map (·.data) = [[0x108]] := by decide +kernel

/-- The phases of a send (R248, R250). -/
theorem wit_MessagesAreSent :
    let s (ph : SendPhase) : State := withSends [send0 ph]
    let k := (s .checked).sendKey 0 (send0 .checked)
    let pair (n : Nat) : State := { s .checked with mrs := { (s .checked).mrs with pairs := [(k, ⟨n⟩)] } }
    let full := { s .recordWait with mrs := { (s .recordWait).mrs with rings := [(1, ⟨16, 0⟩)] } }
    let y := xfer 0 (.msgRecord 0) true 16 [0, 0]
    let d := { s .recordWrite with mesh := ⟨[y], []⟩ }
    let go (t : State) : State := after (exec (.msgSend 0) t)
    (go (s .accepted)).mesh.out.map (·.addr) = [0x101000]
      ∧ go (pair 0) = pair 0 ∧ (go (pair 1)).mrs.pairs = [(k, ⟨0⟩)] ∧ (s .checked).fullCredits (pairFn k) = 16
      ∧ (go (s .checked)).mrs.pairs = [(k, ⟨15⟩)] ∧ (go (s .checked)).mesh.out.map (·.addr) = [0x101040]
      ∧ go full = full ∧ (go (s .recordWait)).mesh.out.map (·.addr) = [0x101100]
      ∧ ((go (s .recordWait)).ring 0 1).written = 1
      ∧ d.pins.bme.getLsbD 0 = true ∧ d.su.alignDone = true ∧ (after (exec (.msgDelivered 0) d)).mesh.out.map (·.addr) = [0x101010] := by decide +kernel

/-- A message from chip 2 for an engine that does not exist, without a ring, and one that lands (R249, R252). -/
theorem wit_MessagesLand :
    let f : MsgFrame := ⟨0, 2, 0, 1, 5, 64, 0x2000, []⟩
    let s := withSends []
    let off := { s with mrs := up.mrs }
    s.physical? 7 = none ∧ s.pins.lsUp.getLsbD 1 = true ∧ s.su.alignDone = true
      ∧ s.pins.lsUp.getLsbD 2 = false ∧ after (exec (.msgFrame 2 f) s) = s
      ∧ (after (exec (.msgFrame 1 { f with deng := 7 }) s)).pins.linkOut.map (·.1) = [1]
      ∧ s.physical? 1 = some 1 ∧ bit (off.rxOf 0) 52 = false ∧ (after (exec (.msgFrame 1 f) off)).pins.linkOut.map (·.1) = [1]
      ∧ bit (s.rxOf 0) 52 = true ∧ s.translate 0 0x2000 64 .write none true = .ok 0x102000
      ∧ (after (exec (.msgFrame 1 f) s)).mrs.coming.length = 1 := by decide +kernel

/-- Credits by a CRED frame: fewer than full, full, too many; a confirmation (R252, R253). -/
theorem wit_CreditsReturn :
    let k := pairKey 0 true 2 0 1
    let s := { withSends [{ send0 .framed with words := [pack [(0, 8, 2), (8, 1, 1), (9, 9, 1)]] }] with
      mrs := { up.mrs with pairs := [(k, ⟨10⟩)] } }
    let f (n : BitVec 6) (c : Option (BitVec 8)) : CredFrame := ⟨0, 2, 0, 1, n, c⟩
    s.fullCredits 0 = 16 ∧ s.sendWaits k = false ∧ after (exec (.credFrame 2 (f 5 none)) s) = s ∧ (after (exec (.credFrame 1 (f 5 none)) s)).mrs.pairs = [(k, ⟨15⟩)]
      ∧ (after (exec (.credFrame 1 (f 6 none)) s)).mrs.pairs = [] ∧ (after (exec (.credFrame 1 (f 7 none)) s)).ftt.log.recs.length = 1
      ∧ (s.framed? 0 2 0 1).map (·.1) = some 0 ∧ s.translate 0 0x1010 8 .write (some 0) false = .ok 0x101010
      ∧ ((after (exec (.credFrame 1 (f 0 (some 0))) s)).engine 0).sends = [] := by decide +kernel

/-- MRS_ECREDIT and MRS_RX (R249, R252). -/
theorem wit_RingsAreKept :
    let k := pairKey 0 false 0 1 0
    let s := { withSends [] with mrs := { (withSends []).mrs with rings := [(0, ⟨9, 3⟩)], pairs := [(k, ⟨10⟩)] } }
    let go (v : W64) : State := after (exec (.mrsEcredit eng0Req 0 v) s)
    let far := { s with link := ⟨[(1, { Port.reset with partner := some ⟨9, 0, 2⟩ })], 0⟩ }
    s.engineOk eng0Req 0 = true ∧ s.logicalOf 0 = 0 ∧ s.mrs.coming = [] ∧ (go (1 <<< 37)).mrs = s.mrs
      ∧ ((go 6).ring 0 0).freed = 9 ∧ ((go 7).ring 0 0).freed = 9 ∧ ((go 5).ring 0 0).freed = 8
      ∧ (go (pack [(22, 9, 1), (31, 6, 5)])).mrs.pairs = [(k, ⟨15⟩)]
      ∧ far.portTo? 9 = some 1 ∧ far.pins.lsUp.getLsbD 1 = true
      ∧ (after (exec (.mrsEcredit eng0Req 0 (pack [(13, 8, 9), (21, 1, 1), (22, 9, 1), (31, 6, 5)])) far)).pins.linkOut.map (·.1) = [1]
      ∧ s.pageOk boss 0 = true ∧ bit (s.rxOf 0) 52 = true
      ∧ after (exec (.mrsRxWrite boss 0 (1 <<< 52)) s) = s.respond 0 0
      ∧ (after (exec (.mrsRxWrite boss 0 (13 <<< 48)) s)).mrs.rings = []
      ∧ fld ((after (exec (.mrsRxWrite boss 0 (13 <<< 48)) s)).rxOf 0) 48 4 = 12
      ∧ bit (up.rxOf 0) 52 = false ∧ fld ((after (exec (.mrsRxWrite boss 0 (3 <<< 48)) up)).rxOf 0) 48 4 = 4 := by decide +kernel

/-! ### Sequences -/

/-- Packet `p` at the head of queue 0; model 0 and sequence 7 in state `st`; room for 2 models and 2 sequences. -/
def onSeq (p : BitVec 512) (st : SeqState) : State := { withGraph sealed0 (quotaed (onQ p)) with
  stu := { up.stu with
    models := [(0, model0)], seqs := [(7, seq0 st)], lists := [(0, [7])], quota := [(0, pack [(0, 17, 2), (17, 11, 2)])] } }

/-- STU_MODEL, STU_MODEL_FREE and STU_ADMIT, with every refusal (R282 to R286). -/
theorem wit_ModelsAreKept :
    let m := pkt [0x50030, 0, 0, pack [(0, 17, 4), (17, 4, 1), (21, 13, 16), (34, 24, 16)]]
    let f := pkt [0x31]
    let o := pkt [0x100000031]
    let go (c : Instr) (s : State) : State := after (exec c s)
    let none' := { onSeq m .active with gs := up.gs }
    let full := { onSeq m .active with stu := { (onSeq m .active).stu with quota := [(0, pack [(17, 11, 1)])] } }
    let free := { onSeq f .active with stu := { (onSeq f .active).stu with seqs := [] } }
    none'.heads 0 m ∧ opcode m = 0x30 ∧ none'.owned? 0 5 = none ∧ go (.stuModel 0 1) none' = (none'.serve 0).retire 0 stBadHandle 0
      ∧ full.heads 0 m ∧ (full.stuHeld 0).2 = 1 ∧ go (.stuModel 0 1) full = (full.serve 0).retire 0 0x30 0
      ∧ (onSeq m .active).heads 0 m ∧ ((go (.stuModel 0 1) (onSeq m .active)).stu.models.map (·.1)) = [0, 1]
      ∧ (onSeq o .active).heads 0 o ∧ go (.stuModelFree 0) (onSeq o .active) = ((onSeq o .active).serve 0).retire 0 0x32 0
      ∧ (onSeq f .active).heads 0 f ∧ go (.stuModelFree 0) (onSeq f .active) = ((onSeq f .active).serve 0).retire 0 0x33 0
      ∧ free.heads 0 f ∧ free.liveSteps 0 = [] ∧ (go (.stuModelFree 0) free).stu.models = [] := by decide +kernel

/-- STU_ADMIT (R284, R285). -/
theorem wit_SequencesAreAdmitted :
    let a := pkt [0x32, 0, pack [(0, 23, 3), (23, 23, 7)], 10]
    let bad := pkt [0x32, 0, pack [(0, 23, 10)], 10]
    let nom := pkt [0x100000032, 0, pack [(0, 23, 3)], 10]
    let full := { onSeq a .active with stu := { (onSeq a .active).stu with quota := [(0, 1)] } }
    let go (s : State) : State := after (exec (.stuAdmit 0 9) s)
    (onSeq a .active).heads 0 a ∧ opcode a = 0x32 ∧ ((go (onSeq a .active)).stu.seqs.map (·.1)) = [7, 9]
      ∧ (go (onSeq a .active)).stu.lists.look [] 0 = [7, 9]
      ∧ (onSeq bad .active).heads 0 bad ∧ go (onSeq bad .active) = ((onSeq bad .active).serve 0).retire 0 0x34 0
      ∧ (onSeq nom .active).heads 0 nom ∧ go (onSeq nom .active) = ((onSeq nom .active).serve 0).retire 0 0x32 0
      ∧ full.heads 0 a ∧ (full.stuHeld 0).1 = 1 ∧ go full = (full.serve 0).retire 0 0x30 0 := by decide +kernel

/-- EVICT, PARK and MOVE of sequence 7 in each state, and of one that does not exist (R287, R288). -/
theorem wit_SequenceCommands :
    let e := pkt [0x700000034]
    let u := pkt [0x700000035]
    let r := pkt [0x1000700000035]
    let v := pkt [0x700000036, 0, 0x4000]
    let go (c : Instr) (p : BitVec 512) (st : SeqState) : State := after (exec c (onSeq p st))
    let st (t : State) : Option SeqState := (t.seq? 0 7).map (·.st)
    (onSeq e .active).heads 0 e ∧ opcode e = 0x34 ∧ st (go (.stuEvict 0) e .active) = none
      ∧ ((go (.stuEvict 0) e .instep).seq? 0 7).map (·.evictp) = some true
      ∧ (onSeq u .active).heads 0 u ∧ pf u 0 48 1 = 0 ∧ st (go (.stuParkSuspend 0) u .active) = some .suspended
      ∧ ((go (.stuParkSuspend 0) u .instep).seq? 0 7).map (·.suspp) = some true
      ∧ go (.stuParkSuspend 0) u .suspended = ((onSeq u .suspended).serve 0).retire 0 0 0
      ∧ go (.stuParkSuspend 0) u .done = ((onSeq u .done).serve 0).retire 0 0x33 0
      ∧ (onSeq r .suspended).heads 0 r ∧ pf r 0 48 1 = 1 ∧ st (go (.stuParkResume 0) r .suspended) = some .active
      ∧ ((go (.stuParkResume 0) r .instep).seq? 0 7).map (·.suspp) = some false
      ∧ go (.stuParkResume 0) r .active = ((onSeq r .active).serve 0).retire 0 0 0
      ∧ go (.stuParkResume 0) r .faulted = ((onSeq r .faulted).serve 0).retire 0 0x33 0
      ∧ (onSeq v .suspended).heads 0 v ∧ opcode v = 0x36
      ∧ ((go (.stuMove 0) v .suspended).seq? 0 7).map (·.addr) = some 0x4000
      ∧ go (.stuMove 0) v .active = ((onSeq v .active).serve 0).retire 0 0x33 0
      ∧ (onSeq (pkt [0x800000034]) .active).seq? 0 8 = none
      ∧ go (.stuEvict 0) (pkt [0x800000034]) .active = ((onSeq (pkt [0x800000034]) .active).serve 0).retire 0 0x31 0 := by decide +kernel

/-- STU_STEP: its refusals, its launch, and a buffer that is not free (R290). -/
theorem wit_StepsLaunch :
    let p := pkt [0x33]
    let n := pkt [0x133]
    let o := pkt [0x100000033]
    let step : StepInfo := ⟨0, 0, [], .running, false⟩
    let busy (p : BitVec 512) : State := { onSeq p .active with
      sow := { (withSow { sow0 with id := 1, step := some step, graph := 6 } (quotaed up)).sow with quota := [(0, 2)] } }
    let open' := { onSeq p .active with gs := (withGraph graph0 up).gs }
    let cold := { onSeq n .active with gs := (withGraph { sealed0 with warm := [⟨1, true, 0⟩] } up).gs }
    let eight := { onSeq n .active with sow := { (quotaed up).sow with
      live := (List.range 8).map fun i => (i, { sow0 with id := BitVec.ofNat 32 i }) } }
    let go (s : State) : State := after (exec (.stuStep 0) s)
    (onSeq p .active).heads 0 p ∧ opcode p = 0x33 ∧ (onSeq p .active).launchCheck 0 5 = 0
      ∧ (onSeq p .active).launchHold 0 5 sealed0 true = .none ∧ (onSeq p .active).bufFree 0 0 model0 = true
      ∧ (go (onSeq p .active)).stu.queue = [0] ∧ (go (onSeq o .active)) = ((onSeq o .active).serve 0).retire 0 0x32 0
      ∧ (onSeq p .suspended).hasActive 0 = false ∧ go (onSeq p .suspended) = ((onSeq p .suspended).serve 0).retire 0 0x35 0
      ∧ open'.heads 0 p ∧ go open' = (open'.serve 0).retire 0 stGraphUnsealed 0
      ∧ cold.heads 0 n ∧ go cold = (cold.serve 0).retire 0 0x0D 0 ∧ eight.heads 0 n ∧ go eight = (eight.serve 0).retire 0 0x0C 0
      ∧ (busy p).heads 0 p ∧ (busy p).bufFree 0 0 model0 = false ∧ ((go (busy p)).queue 0).wait = 15
      ∧ (busy n).heads 0 n ∧ go (busy n) = ((busy n).serve 0).retire 0 0x36 0 := by decide +kernel

/-- Composing, the roots of a deterministic step, and both halves of a commit (R292, R293, R296, R302). -/
theorem wit_StepsComposeAndCommit :
    let rec' : StepRec := ⟨7, 3, true⟩
    let step (ph : StepPhase) : Option StepInfo := some ⟨0, 0, [rec'], ph, false⟩
    let on (w : Sowing) : State := { onSeq (pkt [0x33]) .active with sow := (withSow w up).sow, now := 100000 }
    let c := { on { sow0 with step := some ⟨0, 0, [], .composing, false⟩ } with
      stu := { (onSeq (pkt [0x33]) .active).stu with queue := [0] } }
    let d (ph : StepPhase) : State := { on { sow0 with rootsAt := none, step := step ph } with
      stu := { (onSeq (pkt [0x33]) .active).stu with models := [(0, { model0 with det := true, detoff := 10000 })] } }
    let e := on { sow0 with st := .ending, step := step .running }
    let empty := { c with stu := { c.stu with seqs := [] , lists := [] } }
    let none' := on { sow0 with st := .ending, step := some ⟨0, 0, [], .running, false⟩ }
    let early := on { sow0 with st := .ending, code := 0x10D, step := some ⟨0, 0, [], .composing, false⟩ }
    let f := on { sow0 with st := .ending, step := step (.reading (some [0, 0, 0, 0])) }
    ((c.walk 0 model0 0 90000).recs.map (·.seq)) = [7] ∧ ((c.walk 0 model0 0 90000).recs.map (·.ntok)) = [3]
      ∧ c.translate 0 64 32 .write (some 0) true = .ok 0x100040 ∧ c.translate 0 0 32 .write (some 0) true = .ok 0x100000
      ∧ (after (exec .stuCompose c)).mesh.out.map (·.addr) = [0x100040, 0x100000]
      ∧ 90000 + 10000 ≤ (d .running).now
      ∧ ((after (exec (.stepDetRoots 0 0) (d .running))).sowing? 0).map (·.rootsAt) = some (some 100000)
      ∧ (((after (exec (.stepDetRoots 0 0) (d .composing))).sowing? 0).bind (·.step)).map (·.late) = some true
      ∧ e.translate 0 64 32 .read (some 0) true = .ok 0x100040
      ∧ (after (exec (.stepCommit 0 0) e)).mesh.out.map (·.bytes) = [32]
      ∧ f.translate 0 16 8 .write (some 0) true = .ok 0x100010
      ∧ (after (exec (.stepCommit 0 0) f)).mesh.out.map (·.bytes) = [8]
      ∧ (empty.walk 0 model0 0 90000).recs = [] ∧ (after (exec .stuCompose empty)).mesh.out.map (·.addr) = [0x100000]
      ∧ ((((after (exec (.stepCommit 0 0) none')).sowing? 0).bind (·.step)).map (·.phase)) = some (.reading (some []))
      ∧ (after (exec (.stepCommit 0 0) early)).mesh.out.map (·.data) = [[0]] := by decide +kernel

/-! ### The yoke and the links -/

/-- A member whose parent is chip 9 on port 1, in the given phase. -/
def member (ph : JoinPhase) : State := { up with
  fm := { up.fm with active := { up.fm.active with chip := { ChipCfg.reset with role := 1, parent := 1 } } }
  yoke := { up.yoke with role := 1, phase := ph, port := 1, hops := 1 }
  link := { up.link with ports := [(1, { Port.reset with partner := some ⟨9, 0, 2⟩ })] } }

/-- JOIN, the calibration frames, and an exchange with d = 7 and a = 3 (R323 to R325). -/
theorem wit_YokeJoinsAndCalibrates :
    let j := member (.joining 1 99488)
    let l : State := { member (.joining 16 99488) with yoke := { (member (.joining 16 99488)).yoke with exch := List.replicate 15 ⟨9, 9⟩ } }
    let k : State := { member .joined with yoke := { (member .joined).yoke with kids := [(0, 0)] } }
    let t0 : Stamp := ⟨5, 100⟩
    let o := { member .none with link := ⟨[(1, { Port.reset with partner := some ⟨9, 3, 2⟩ })], 0⟩ }
    (member .none).joinPort? = some 1 ∧ (member .none).secondMaster = false ∧ (member .none).alive = true
      ∧ (member .none).otherField 1 = false ∧ (after (exec .yokeJoinStart (member .none))).yoke.phase = .joining 0 100000
      ∧ o.joinPort? = some 1 ∧ o.otherField 1 = true ∧ (after (exec .yokeJoinStart o)).ftt.log.recs.length = 1
      ∧ 99488 + 512 ≤ j.now ∧ (after (exec .calReqSend j)).yoke.phase = .joining 2 100000
      ∧ k.yoke.joined = true ∧ k.pins.lsUp.getLsbD 0 = true ∧ (after (exec (.calReq 0 t0) k)).pins.linkOut.map (·.1) = [0]
      ∧ (after (exec (.calRsp 1 t0 t0 t0) j)).yoke.exch.length = 1 ∧ (after (exec (.calRsp 1 t0 t0 t0) l)).yoke.phase = .ready
      ∧ exchangeOf 2000000 t0 ⟨5, 110⟩ ⟨5, 120⟩ ⟨5, 124⟩ = ⟨14, 6⟩ ∧ (exchangeOf 2000000 t0 ⟨5, 110⟩ ⟨5, 120⟩ ⟨5, 124⟩).theta = 3
      ∧ bestExchange [⟨14, 6⟩, ⟨12, 8⟩] = ⟨12, 8⟩ := by decide +kernel

/-- JOIN accepted, too deep, and of another configuration; TICK on time, late and early (R321, R323, R326). -/
theorem wit_YokeTraffic :
    let s := member .joined
    let f : JoinFrame := ⟨2, 0, 1, 1, 100000, 1000, 1, 2⟩
    let go (c : Instr) : State := after (exec c s)
    s.yoke.joined = true ∧ s.isMaster = false ∧ s.joinAgrees 0 f = true ∧ s.mirrorKid 0 = false
      ∧ (go (.join 0 f)).yoke.kids = [(0, 0)] ∧ (go (.join 0 { f with hops := 3 })).ftt.log.recs.length = 1
      ∧ s.joinAgrees 0 { f with chips := 2 } = false ∧ (go (.join 0 { f with chips := 2 })).ftt.log.recs.length = 1
      ∧ s.yoke.kids = [] ∧ s.yoke.delay = 0 ∧ go (.tick 1 0 100002) = { s with yoke := { s.yoke with seen := true } }
      ∧ (go (.tick 1 0 99999)).yoke.seen = true ∧ (go (.tick 1 0 100003)).yoke.recal = true := by decide +kernel

/-- STATUS of more and of fewer chips at the master; a standby is promoted (R327, R330). -/
theorem wit_StatusAndPromotion :
    let m := { yoked 2 3 { up with hcf := ⟨[(0, barQueue none)], 16383⟩ } with yoke := { (yoked 2 3 up).yoke with kids := [(0, 2)] } }
    let s := { yoked 3 1 up with yoke := { (yoked 3 1 up).yoke with missed := 2, phase := .none } }
    m.yoke.joined = true ∧ m.isMaster = true ∧ m.mirrorKid 0 = false ∧ m.barriers = [(0, 2)] ∧ m.barrierQueues 0 2 = [0]
      ∧ (after (exec (.status 0 4 false 1) m)).yoke.count = 5 ∧ ((after (exec (.status 0 1 false 1) m)).queue 0).rptr = 1
      ∧ s.alive = true ∧ s.hasPartner s.fm.active.chip.parent = false ∧ s.barriers = []
      ∧ s.yoke.kids.look? 1 = none ∧ (after (exec (.status 1 1 true 1) s)).yoke.kidSeen = true
      ∧ (after (exec .yokePromote s)).yoke.role = 2 := by decide +kernel

/-- Results of a mirrored pair: equal, different, without a partner, and late (R334). -/
theorem wit_MirroredResultsMeet :
    let a : Compare := ⟨4, 7, 0, 9, 0, 0, 0⟩
    let s := { up with fm := { up.fm with active := { up.fm.active with chip := { ChipCfg.reset with mirrorV := true } } } }
    let m := { s with tcs := { s.tcs with mine := [a] } }
    let l := { m with now := 4000000 }
    let t := { l with tcs := { s.tcs with twins := [a] } }
    (after (exec (.digest 4 7 0 9) s)).tcs.twins.length = 1 ∧ (after (exec (.digest 4 7 0 9) m)).tcs.mine = []
      ∧ (m.faultQ 0).quiet 0x308 m.now = true ∧ ((after (exec (.digest 4 7 0 8) m)).faultQ 0).recs.length = 2
      ∧ a.at' + 2 * l.period ≤ l.now ∧ (l.faultQ 0).quiet 0x309 l.now = true
      ∧ ((after (exec .mirrorMissing l)).faultQ 0).recs.length = 1 ∧ (after (exec .mirrorMissing t)).tcs.twins = [] := by decide +kernel

/-- Ports 0 to 2: up, down, HELLOs, silence, a reserved type (R52, R53). -/
theorem wit_LinksFindPartners :
    let h : HelloFrame := ⟨9, 7, 1⟩
    let on (p : Port) : State := { up with link := ⟨[(1, p)], 0⟩, yoke := { up.yoke with port := 5 } }
    let go (c : Instr) (s : State) : Port := (after (exec c s)).port 1
    up.pins.lsUp.getLsbD 2 = false ∧ (after (exec (.linkUp 2) up)).pins.lsUp.getLsbD 2 = true
      ∧ (up.port 0).partner = none ∧ (after (exec (.partnerDepart 0) up)).pins.lsUp.getLsbD 0 = false
      ∧ (go (.partnerDepart 1) (on { Port.reset with partner := some h })).partner = none
      ∧ (on { Port.reset with partner := some h }).isMaster = false ∧ h.field.toNat ≠ up.fm.active.chip.field
      ∧ (go (.helloSilenceTimeout 1) (on { Port.reset with partner := some h })).partner = none
      ∧ (go (.hello 1 h) up).agreed = 1 ∧ (go (.hello 1 h) (on { Port.reset with last := some h })).partner = some h
      ∧ (go (.hello 1 h) (on { Port.reset with last := some h, partner := some h })).agreed = 2
      ∧ (go (.reservedFrame 1 5 0) up).discarded = 1 ∧ (go (.reservedFrame 1 0 0) up).discarded = 1
      ∧ up.link.helloAt + 16384 ≤ up.now ∧ (after (exec .helloSend up)).pins.linkOut.map (·.1) = [0, 1] := by decide +kernel

/-! ### Function resets -/

/-- An FLR before release, a merged request, FTT_FNRST without GO, changes of the counts and of bus mastering (R48 to R51). -/
theorem wit_FunctionResetsBegin :
    let r : FnReset := ⟨2, false, [], 0, 0, 0, 0, 0⟩
    let pre := inStep 4
    let s := { up with ftt := { up.ftt with resets := [(3, r)] }, pins := { up.pins with numvf := 4 } }
    (inStep 1).su.released = false ∧ (inStep 1).su.alignDone = false
      ∧ (after (exec (.flrRequest 3) (inStep 1))).pins.flrHeld = [3] ∧ pre.su.released = false ∧ pre.su.alignDone = true
      ∧ (after (exec (.flrRequest 3) pre)).pins.flrDone = [(30000000000, 3)]
      ∧ s.su.released = true ∧ (after (exec (.flrRequest 3) s)).ftt.resets = [(3, { r with pulse := true })]
      ∧ s.ftt.resets.look? 5 = none ∧ s.globalOk boss = true ∧ after (exec (.fttFnrstGo boss 3) s) = s.respond 0 0
      ∧ (after (exec (.fttFnrstGo boss 0x103) s)).ftt.resets = [(3, r)]
      ∧ (after (exec (.vfEnable 5) s)).pins.numvf = 5 ∧ (3 : BitVec 8).toNat < s.pins.numvf.toNat
      ∧ (after (exec (.busMasterEnableChange 3 false) s)).pins.bme.getLsbD 3 = false
      ∧ (after (exec (.busMasterEnableChange 3 true) s)).pins.bme.getLsbD 3 = true := by decide +kernel

/-- A function reset with an engine to wait for, at its bound and before; one with none (R414, R415). -/
theorem wit_FunctionResetsComplete :
    let r (l : List Nat) : FnReset := ⟨1, true, l, 0, 0, 0, 0, 0⟩
    let s (l : List Nat) : State := { up with now := 1000000, ftt := { up.ftt with resets := [(3, r l)] } }
    (s [0]).alive = true ∧ (r [0]).at' + 1000000 ≤ (s [0]).now ∧ (r [0]).wait.contains 0 = true
      ∧ after (exec (.fnResetComplete 3) (s [0])) = s [0]
      ∧ (r []).at' + 8 * (s []).semBlocks 3 ≤ (s []).now ∧ (∀ e ∈ engineIds, (s []).holdsFn e 3 = false)
      ∧ (s []).sm.waiters = [] ∧ (r []).pulse = true ∧ (s []).su.alignDone = true := by decide +kernel

/-! ### Field maps and the persistent store -/

/-- The commands of FM_CTRL (R393 to R396). -/
theorem wit_FieldMapCommandsAct :
    let busy := { up with fm := { up.fm with state := .saving } }
    let v := { up with fm := { up.fm with shvalid := true } }
    let c := { up with fm := { up.fm with state := .recalling, failed := true } }
    let f := { up with fm := { up.fm with state := .loading, failed := true } }
    let w := { up with nv := { up.nv with job := some .records } }
    let h : Words := [pack [(0, 32, 0x4D415046), (32, 16, 1)], 0x6000, 0, 0, 0, 0, 0, 0]
    let x (b : Bool) : Xfer := { Xfer.make (.mapImage b) 0 0 false 64 64 [] none none with id := 7 }
    let got (b : Bool) (ws : Words) : State := after (exec (.meshResponse 7 .ok ws) { up with mesh := ⟨[x b], []⟩ })
    let go (c : Instr) (s : State) : FieldMaps := (after (exec c s)).fm
    up.globalOk boss = true ∧ (go (.fmLoad boss) busy).err = 16 ∧ up.fm.state = .idle ∧ (go (.fmLoad boss) up).state = .loading
      ∧ (go (.fmRecall boss) up).state = .recalling ∧ up.fm.shvalid = false ∧ (go (.fmSwap boss false 0) up).err = 14
      ∧ (go (.fmSwap boss true 0) v).err = 15 ∧ (go (.fmSwap boss true 2) v).state = .swapPending
      ∧ (go (.fmSwap boss false 0) v).swap = some (100000, none)
      ∧ up.nv.job = none ∧ up.nv.next = [] ∧ up.nv.gone = false ∧ (go (.fmSave boss) up).state = .saving
      ∧ w.nv.job = some .records ∧ (after (exec (.fmRecall boss) w)).nv.next = [.recall]
      ∧ (after (exec (.fmSave boss) w)).nv.next = [.save]
      ∧ (go .fmLoadDone f).err = 1 ∧ (go .fmLoadDone c).err = 17 ∧ f.fm.boot = .none
      ∧ (x true).last = true ∧ (x true).fits h = true ∧ headerBad h = false ∧ headerBad [0, 0, 0, 0, 0, 0, 0, 0] = true
      ∧ (got true h).mesh.out.map (fun y => (y.addr, y.bytes)) = [(128, 0x6000 - 64)]
      ∧ (got true [0, 0, 0, 0, 0, 0, 0, 0]).fm.image = some [0, 0, 0, 0, 0, 0, 0, 0]
      ∧ (got false h).fm.image = some h := by decide +kernel

/-- The operations of a SAVE: the first and the last end, one fails twice, one reaches its bounds; the last read of a RECALL
(R62, R63, R65). -/
theorem wit_StoreOperationsEnd :
    let op : NvOp := .program 5 7
    let s (l : List NvOp) : State := { up with
      now := 20000000, nv := { up.nv with ops := l, issued := some 0, job := some .save }, fm := { up.fm with state := .saving } }
    let two := { s [op] with nv := { (s [op]).nv with second := true } }
    let late := { s [op] with nv := { (s [op]).nv with bound := true } }
    let call := { s [.read 5 1] with nv := { (s [.read 5 1]).nv with job := some .recall } }
    let go (c : Instr) (s : State) : State := after (exec c s)
    (s [op]).alive = true ∧ (go (.nvOpDone false) (s [op, .erase 1])).nv.ops = [.erase 1]
      ∧ (go (.nvOpDone false) (s [op, .erase 1])).nvWord 5 = 7 ∧ (go (.nvOpDone false) (s [op])).fm.state = .idle
      ∧ (go (.nvOpDone true) (s [op])).nv.second = true ∧ (go (.nvOpDone true) two).fm.err = 17
      ∧ nvRest call.nv.ops = [] ∧ call.nv.next = [] ∧ (go (.nvOpDone false) call).nv.job = none
      ∧ 0 + op.bound ≤ (s [op]).now ∧ (s [op]).nv.bound = false ∧ (s [op]).nv.second = false
      ∧ late.nv.bound = true ∧ (go (.nvOpDone true) late).nv.bound = false
      ∧ 0 + 20000000 ≤ late.now ∧ 0 + op.bound ≤ two.now ∧ (go .nvOpTimeout two).nv.gone = true := by decide +kernel

/-! ### Register accesses -/

/-- A one-beat write by `boss` of a register of queue 0. -/
def qWrite (r : Nat) (v : W64) : Access := ⟨false, boss, Fin.ofNat _ (queueAt 0 r), true, .word64, v, true⟩

/-- A burst's beats, an abort, refusals, and the registers of queue 0 (R42, R45, R46, R195). -/
theorem wit_RegisterAccesses :
    let b : Access := { qWrite 0x18 1 with commit := false }
    let t := after (exec (.registerWrite b) up)
    let odd : Access := { qWrite 0x18 1 with offset := 0x1002004 }
    let glob : Access := ⟨false, guest, 0x4000, false, .word64, 0, true⟩
    let fatal := { up with ftt := { up.ftt with fatal := true } }
    let go (a : Access) (s : State) : State := after (exec (.registerWrite a) s)
    t.mt.bursts = [b] ∧ (after (exec (.writeBurstAbort boss) t)).mt.bursts = []
      ∧ odd.aligned = false ∧ up.openBeats boss = [] ∧ (go odd up).mt.resp = 1
      ∧ (go (qWrite 0x10 5) fatal).mt.resp = 1 ∧ up.globalWord? glob.base ≠ none ∧ (go glob up).mt.resp = 1
      ∧ up.su.step ≠ 1 ∧ (qWrite 0x10 5).offset.val = queueAt 0 0x10 ∧ up.pageOk boss (fnOfQueue 0) = true
      ∧ ((go (qWrite 0x10 0) up).queue 0).limit = 1 ∧ ((go (qWrite 0x10 0xFFFFFFFF) up).queue 0).limit = 3600000000
      ∧ go (qWrite 0x20 3) up = after (exec (.hcfQptrWrite boss 0 3) up)
      ∧ go (qWrite 0x18 3) up = after (exec (.hcfQdb boss 0 3) up) ∧ go (qWrite 0x38 2) up = after (exec (.resume boss 0) up)
      ∧ (go { qWrite 0x28 0 with write := false } up).mt.rdata = (up.queue 0).stat
      ∧ (go { qWrite 0x20 0 with write := false } up).mt.rdata = 0 := by decide +kernel

/-- A read of two beats of the trace aperture, and the firmware's read of MBX_QSTAT of channel 1 (R42, R376). -/
theorem wit_WideAndMappedReads :
    let b : Access := ⟨false, boss, 0x2200000, false, .beats 1, 0, true⟩
    let m : Access := ⟨true, boss, 0x2000138, false, .word64, 0, true⟩
    up.globalOk boss = true ∧ reservedPart 0x2200000 = false ∧ (after (exec (.registerWrite b) up)).mt.rbeats.length = 16
      ∧ (after (exec (.registerWrite b) up)).mt.resp = 0
      ∧ after (exec (.registerWrite m) up) = up.respond 0 ((up.channel 1).qstat true) := by decide +kernel

/-- HCF_QSTAT of queue 0 by function 7 (R43). -/
theorem wit_PagesAnswerTheirFunction :
    let a : Access := ⟨false, guest, 0x1002028, false, .word64, 0, true⟩
    a.base = 0x1000000 + 0 * 0x10000 + 0x2028 ∧ up.pageWord? 0 0x2028 ≠ none ∧ a.req.fn ≠ 0 ∧ a.req.sec = false
      ∧ a.req.src ≠ .engine ∧ (after (exec (.registerWrite a) up)).mt.resp = 1 := by decide +kernel

/-! ### Ill-formed commands, one for each check of WellFormed -/

theorem test_wf_startupBist : (Instr.startupBist [] [⟨0x61, 0, true⟩]).wf = false ∧ (Instr.startupBist [] [⟨0x60, 0, true⟩]).wf = true := by decide +kernel
theorem test_wf_write32 : (Instr.registerWrite ⟨false, boss, 0, true, .word32, 0x100000000, true⟩).wf = false := by decide +kernel
theorem test_wf_read : (Instr.registerWrite ⟨false, boss, 0, false, .word64, 0, false⟩).wf = false := by decide +kernel
theorem test_wf_reservedFrame :
    (Instr.reservedFrame 0 1 0).wf = false ∧ (Instr.reservedFrame 0 2 8).wf = false ∧ (Instr.reservedFrame 0 2 9).wf = true
      ∧ (Instr.reservedFrame 0 5 0).wf = true := by decide +kernel
theorem test_wf_graphAlloc :
    (Instr.graphAlloc 0 0 1048577 0 0).wf = false ∧ (Instr.graphAlloc 0 0 0 8388609 0).wf = false
      ∧ (Instr.graphAlloc 0 0 0 0 8193).wf = false := by decide +kernel
theorem test_wf_pages :
    (Instr.fallowPageFetch 0 16384).wf = false ∧ (Instr.fallowPageFetchDone 0 16384).wf = false
      ∧ (Instr.fallowPageSpillDone 0 16384).wf = false := by decide +kernel
theorem test_wf_msgFrame :
    (Instr.msgFrame 0 ⟨0, 0, 0, 0, 0, 0, 0, []⟩).wf = false ∧ (Instr.msgFrame 0 ⟨0, 0, 0, 0, 0, 8, 0, []⟩).wf = false
      ∧ (Instr.msgFrame 0 ⟨0, 0, 0, 0, 0, 264, 0, List.replicate 33 0⟩).wf = false
      ∧ (Instr.msgFrame 0 ⟨0, 0, 0, 0, 0, 8, 0, [0]⟩).wf = true := by decide +kernel
theorem test_wf_join :
    (Instr.join 0 ⟨0, 0, 0, 2 ^ 64, 0, 0, 0, 0⟩).wf = false ∧ (Instr.join 0 ⟨0, 0, 0, 0, 2 ^ 64, 0, 0, 0⟩).wf = false
      ∧ (Instr.join 0 ⟨0, 0, 0, 0, 0, 2 ^ 64, 0, 0⟩).wf = false ∧ (Instr.join 0 ⟨0, 0, 0, 0, 0, 0, 2 ^ 64, 0⟩).wf = false
      ∧ (Instr.join 0 ⟨0, 0, 0, 0, 0, 0, 0, 2 ^ 64⟩).wf = false := by decide +kernel
theorem test_wf_stamps :
    (Instr.calReq 0 ⟨0, 2 ^ 64⟩).wf = false ∧ (Instr.calRsp 0 ⟨0, 2 ^ 64⟩ ⟨0, 0⟩ ⟨0, 0⟩).wf = false
      ∧ (Instr.calRsp 0 ⟨0, 0⟩ ⟨0, 2 ^ 64⟩ ⟨0, 0⟩).wf = false ∧ (Instr.calRsp 0 ⟨0, 0⟩ ⟨0, 0⟩ ⟨0, 2 ^ 64⟩).wf = false := by decide +kernel
theorem test_wf_yokeFrames :
    (Instr.tick 0 0 (2 ^ 64)).wf = false ∧ (Instr.status 0 (2 ^ 64) false 0).wf = false
      ∧ (Instr.status 0 0 false (2 ^ 64)).wf = false ∧ (Instr.arrive 0 0 0 (2 ^ 64) 0).wf = false
      ∧ (Instr.arrive 0 0 0 0 (2 ^ 64)).wf = false ∧ (Instr.release 0 0 0 0 (2 ^ 64) 0).wf = false := by decide +kernel
theorem test_wf_clkRatio : (Instr.clkRatio (2 ^ 32)).wf = false ∧ (Instr.clkRatio 20).wf = true := by decide +kernel

/-! ### Resets and words -/

/-- A fall of rst_n_i while a word is being programmed, and while a sector is being erased: other words stand (R64). -/
theorem wit_BlockResetRestores :
    let s (op : NvOp) : State := { up with nv := { up.nv with words := [(7, 5)], ops := [op], issued := some 0 } }
    (s (.program 8 1)).nv.ops = [.program 8 1] ∧ (after (exec .blockReset (s (.program 8 1)))).nvWord 7 = 5
      ∧ (s (.erase 1)).nv.ops = [.erase 1] ∧ (after (exec .blockReset (s (.erase 1)))).nvWord 7 = 5
      ∧ (after (exec .blockReset (s (.erase 1)))).su.step = 1 := by decide +kernel

/-- Whatever the command, the queue of commands stands (StepsRunTheFrontCommand, EveryCommandAnswers). -/
theorem wit_EveryCommandAnswers :
    let s := { up with pending := [.nop 0, .helloSend] }
    s.pending = .nop 0 :: [.helloSend] ∧ (after (step s)).pending = [.helloSend] := by decide +kernel

/-- The table gives no row any bits, so no word spells a command. -/
theorem test_noWordSpellsACommand :
    decodeTableWord 0 0 = none ∧ decodeTableWord 64 0xFFFFFFFFFFFFFFFF = none ∧ (up.withFetchWord 8 1) = up := by decide +kernel

/-! ### Checks of the spec's own functions, on values it states -/

/-- The CRC-32 of IEEE 802.3 over the ASCII bytes 1 to 8. -/
theorem test_crc32 : crc32 [0x3837363534333231] = 0x9AE0DAAF := by decide +kernel

/-- The worked example of 08_sheaf.md after R280: an entry cleared in BINARY32. -/
def shf0 : ShfEntry := ⟨0, true, 0, true, 0, false, false, List.replicate 32 Lane.cleared⟩
/-- Its sources u, v and w: lanes 0 to 2; the others are +0. -/
def shfU : Words := [0x3F8000003F800000, 0x80000000]
def shfV : Words := [0x3380000033800000, 0x80000000]
def shfW : Words := [0x33800000, 0x80000000]

/-- In both orders lane 0 is exact, lane 1 is a tie to even and INEXACT, lane 2 stays −0 and the rest are +0; the raw
image's header word is the example's. -/
theorem test_sheafExample :
    let a := ((shf0.add shfU).add shfV).add shfW
    let b := ((shf0.add shfV).add shfW).add shfU
    a = b ∧ (a.lane 0).sum = 2 ^ 149 + 2 ^ 126 ∧ a.drains.map (·.bits) = [0x3F800001, 0x3F800000, 0x80000000] ++ List.replicate 29 0
      ∧ a.drains.map (·.inexact) = [false, true] ++ List.replicate 30 false
      ∧ a.raw.at 0 = 0x0000000003005846 ∧ byteAt (a.raw.drop 8) 15 = 0x40 ∧ byteAt (a.raw.drop 8) 18 = 0x20 := by decide +kernel

/-- The raw image added into a cleared entry drains the same (the example's last paragraph). -/
theorem test_sheafRawExample :
    let a := ((shf0.add shfU).add shfV).add shfW
    rawOk a.raw = true ∧ rawCount a.raw = 3
      ∧ (shf0.addRaw a.raw).drains.map (·.bits) = a.drains.map (·.bits) := by decide +kernel

/-- The exchanges of the example after R324: round trips of 840, 1,340 and 841; the first is used, with θ = 17. -/
theorem test_calibrationExample :
    let x (a b c d : Nat) : Exchange := exchangeOf 200000 ⟨0, a⟩ ⟨0, b⟩ ⟨0, c⟩ ⟨0, d⟩
    let l := [x 1000 1437 1457 1860, x 1512 2449 2469 2872, x 2024 2462 2482 2885]
    l.map (·.rtt) = [840, 1340, 841] ∧ (bestExchange l).theta = 17 := by decide +kernel

/-- Node 5 of the LATTICE of the example after R458: slots 10 and 11, and their words; an exact FANOUT and EDGE_OFF. -/
theorem test_latticeExample :
    let g := (newGraph 0 (pkt [0x08, 0, 12 + 0x20000000, 16]) 0 0 0).generated (pack [(16, 2, 1), (18, 12, 4), (30, 12, 3)]) 0 0
    g.n = 12 ∧ g.e = 16 ∧ g.edges.look 0 10 = 0x08000009 ∧ g.edges.look 0 11 = 0x0400000A
      ∧ fld ((toWords 8 (g.nodes.look 0 5).toNat).at 1) 16 16 = 2 ∧ fld ((toWords 8 (g.nodes.look 0 5).toNat).at 2) 0 23 = 10 := by decide +kernel

end Sys2Proof.Tests
end

/-! PROOFS. O19, launches and roots: what a launch that proceeds changes, the checks before it, and the insertion of a
sowing's last root. -/
namespace Sys2Proof.Machine

/-! ### What a launch changes (R108, R109, R111) -/

/-- A change of a graph touches the graph store alone. -/
theorem State.modGraph_gs_only (s : State) (h : Nat) (f : Graph → Graph) :
    s.modGraph h f = { s with gs := (s.modGraph h f).gs } := by
  unfold State.modGraph; split <;> rfl

/-- Releasing warm shadows touches the graph store alone. -/
theorem State.releaseWarm_gs_only (s : State) (n b fuel : Nat) :
    s.releaseWarm n b fuel = { s with gs := (s.releaseWarm n b fuel).gs } := by
  induction fuel generalizing s with
  | zero => rfl
  | succ fuel ih =>
    unfold State.releaseWarm
    dsimp only
    split
    · rfl
    · rw [ih, State.modGraph_gs_only]

/-- Sowing `w` stands as launched by queue `q`, over a graph store `gs`, with its trace event (R10, R108, R430). -/
def State.sown (s : State) (q : Nat) (gs : GraphStore) (w : Sowing) (ev : Event) : State :=
  let n := fnOfQueue q
  let id := s.nextSowId n
  let s1 : State := { s with
    gs := gs
    sow := { s.sow with
      live := s.sow.live.ins (sowKey n id) w
      nextId := s.sow.nextId.put 0 n (id + 1)
      lastId := s.sow.lastId.put none n (some id)
      ordinal := s.sow.ordinal + 1 } }
  ((s1.modQueue q fun r => { r with last := some id }).bumpPlot (s.queue q).plot 0 1).capture ev

/-- A launch that proceeds gives a sowing that begins as R108 says. -/
theorem State.proceed_sown (s : State) (q h : Nat) (g : Graph) (a : LaunchArgs) :
    ∃ gs w ev, (s.proceed q h g a).2 = s.sown q gs w ev
      ∧ w.fn = fnOfQueue q ∧ w.id = s.nextSowId (fnOfQueue q) ∧ w.graph = h ∧ w.bankB = g.curB
      ∧ w.plot = (s.queue q).plot ∧ w.queue = q ∧ w.st = .active ∧ w.code = 0 ∧ w.done = 0 ∧ w.lost = 0
      ∧ w.digest = 0 ∧ w.ctr = [] ∧ w.startAt = s.now := by
  unfold State.proceed
  dsimp only
  rw [State.modGraph_gs_only]
  split
  · exact ⟨_, _, _, rfl, rfl, rfl, rfl, rfl, rfl, rfl, rfl, rfl, rfl, rfl, rfl, rfl, rfl⟩
  · rw [State.releaseWarm_gs_only]
    exact ⟨_, _, _, rfl, rfl, rfl, rfl, rfl, rfl, rfl, rfl, rfl, rfl, rfl, rfl, rfl, rfl⟩

section
variable (s : State) (q : Nat) (gs : GraphStore) (w : Sowing) (ev : Event)

@[simp] theorem State.sowing?_sown_same :
    (s.sown q gs w ev).sowing? (sowKey (fnOfQueue q) (s.nextSowId (fnOfQueue q))) = some w := by
  simp [State.sown, State.sowing?]
theorem State.sowing?_sown_of_ne {j : Nat} (hj : j ≠ sowKey (fnOfQueue q) (s.nextSowId (fnOfQueue q))) :
    (s.sown q gs w ev).sowing? j = s.sowing? j := by
  simp [State.sown, State.sowing?, Tab.look?_ins_of_ne _ _ hj]
@[simp] theorem State.nextSowId_sown_same :
    (s.sown q gs w ev).nextSowId (fnOfQueue q) = s.nextSowId (fnOfQueue q) + 1 := by
  simp [State.sown, State.nextSowId]
theorem State.nextSowId_sown_of_ne {m : Nat} (hm : m ≠ fnOfQueue q) :
    (s.sown q gs w ev).nextSowId m = s.nextSowId m := by
  simp [State.sown, State.nextSowId, Tab.look_put_of_ne _ _ _ hm]
@[simp] theorem State.lastId_sown :
    (s.sown q gs w ev).sow.lastId.look none (fnOfQueue q) = some (s.nextSowId (fnOfQueue q)) := by
  simp [State.sown]
@[simp] theorem State.queue_sown_same :
    (s.sown q gs w ev).queue q = { s.queue q with last := some (s.nextSowId (fnOfQueue q)) } := by
  rw [State.sown, State.queue_capture, State.queue_bumpPlot, State.queue_modQueue_same]
  rfl
theorem State.otherQueues_sown : s.otherQueues (s.sown q gs w ev) q := by
  intro r hr
  rw [State.sown, State.queue_capture, State.queue_bumpPlot, State.queue_modQueue_of_ne _ _ hr]
  rfl
theorem State.only_sown : s.only (s.sown q gs w ev) [.gs, .sow, .hcf, .hv, .inSc] := by
  intro p hp
  cases p <;> simp_all [State.same, State.sown]
end

/-- A launch that proceeds is a launch as R10 and R108 say. -/
theorem State.launched_proceed (s : State) (q h : Nat) (g : Graph) (a : LaunchArgs) :
    s.launched (s.proceed q h g a).2 q h g := by
  obtain ⟨gs, w, ev, e, hfn, hid, hgraph, hbank, hplot, hq, hst, hcode, hdone, hlost, hdig, hctr, hat⟩ :=
    s.proceed_sown q h g a
  unfold State.launched
  rw [e]
  exact ⟨w, by simp, hfn, hid, hgraph, hbank, hplot, hq, hst, hcode, hdone, hlost, hdig, hctr, hat, by simp, by simp,
    by simp, fun m => s.nextSowId_sown_of_ne q gs w ev, fun j => s.sowing?_sown_of_ne q gs w ev,
    s.otherQueues_sown q gs w ev⟩

theorem State.only_proceed (s : State) (q h : Nat) (g : Graph) (a : LaunchArgs) :
    s.only (s.proceed q h g a).2 [.gs, .sow, .hcf, .hv, .inSc] := by
  obtain ⟨gs, w, ev, e, -⟩ := s.proceed_sown q h g a
  exact e ▸ s.only_sown q gs w ev

theorem State.rptr_proceed (s : State) (q h : Nat) (g : Graph) (a : LaunchArgs) :
    ((s.proceed q h g a).2.queue q).rptr = (s.queue q).rptr := by
  obtain ⟨gs, w, ev, e, -⟩ := s.proceed_sown q h g a
  simp [e]

/-- A change of the launching queue that keeps its last sowing ID leaves a launch a launch. -/
theorem State.launched_modQueue {s t : State} {q h : Nat} {g : Graph} (f : Queue → Queue)
    (hf : (f (t.queue q)).last = (t.queue q).last) (hl : s.launched t q h g) : s.launched (t.modQueue q f) q h g := by
  obtain ⟨w, hw, hfn, hid, hgraph, hbank, hplot, hq, hst, hcode, hdone, hlost, hdig, hctr, hat, hlast, hnext, hlastId,
    hother, hsow, hqueues⟩ := hl
  exact ⟨w, hw, hfn, hid, hgraph, hbank, hplot, hq, hst, hcode, hdone, hlost, hdig, hctr, hat,
    by rw [State.queue_modQueue_same, hf, hlast], hnext, hlastId, hother, hsow,
    fun r hr => (t.queue_modQueue_of_ne f hr).trans (hqueues r hr)⟩

theorem State.only_modQueue (s : State) (q : Nat) (f : Queue → Queue) : s.only (s.modQueue q f) [.hcf] := by
  intro p hp
  cases p <;> simp at hp <;> rfl

/-- A launch that nothing holds proceeds, and its command waits for the sowing's roots (R106, R108). -/
theorem State.tryLaunch_proceeds {s : State} {q : Nat} {p : BitVec 512} {g : Graph}
    (hh : s.launchHold q (handleOf p) g true = .none) :
    s.launched (s.tryLaunch q p g) q (handleOf p) g
      ∧ ((s.tryLaunch q p g).queue q).head = .rooting (sowKey (fnOfQueue q) (s.nextSowId (fnOfQueue q)))
      ∧ ((s.tryLaunch q p g).queue q).rptr = (s.queue q).rptr
      ∧ s.only (s.tryLaunch q p g) [.gs, .sow, .hcf, .hv, .inSc] := by
  unfold State.tryLaunch
  simp only [hh]
  refine ⟨State.launched_modQueue _ rfl (s.launched_proceed ..), ?_, ?_, ?_⟩
  · rw [State.queue_modQueue_same]; rfl
  · rw [State.queue_modQueue_same]; exact s.rptr_proceed ..
  · exact State.only_trans (s.only_proceed _ _ _ _) (State.only_mono (State.only_modQueue _ _ _) (by simp))

/-! ### The checks of a launch (R105, R106, R212) -/

/-- A graph that its function owns is the graph of its handle (R66). -/
theorem State.graph?_of_owned? {s : State} {q h : Nat} {g : Graph} (ho : s.owned? q h = some g) :
    s.graph? h = some g := by
  unfold State.owned? at ho
  exact (Option.filter_eq_some_iff.mp ho).1

section
variable {s : State} {q h : Nat} {g : Graph}

theorem State.launchCheck_of_unowned (ho : s.owned? q h = none) : s.launchCheck q h = stBadHandle := by
  simp [State.launchCheck, ho]
theorem State.launchCheck_of_unsealed (ho : s.owned? q h = some g) (hs : g.st ≠ .sealed) :
    s.launchCheck q h = stGraphUnsealed := by
  simp [State.launchCheck, ho, hs]
theorem State.launchCheck_of_drained (ho : s.owned? q h = some g) (hs : g.st = .sealed) (hd : s.drainers h ≠ []) :
    s.launchCheck q h = stGraphBusy := by
  simp [State.launchCheck, ho, hs, hd]
theorem State.launchCheck_of_overQuota (ho : s.owned? q h = some g) (hs : g.st = .sealed) (hd : s.drainers h = [])
    (he : g.eccBlock = false) (hb : s.shadowQuota (fnOfQueue q) < g.blocks) : s.launchCheck q h = 0x0B := by
  simp [State.launchCheck, ho, hs, hd, he, hb]
theorem State.launchCheck_passes (ho : s.owned? q h = some g) (hs : g.st = .sealed) (hd : s.drainers h = [])
    (he : g.eccBlock = false) (hb : g.blocks ≤ s.shadowQuota (fnOfQueue q)) : s.launchCheck q h = 0 := by
  simp [State.launchCheck, ho, hs, hd, he, Nat.not_lt.mpr hb]
theorem State.launchRecheck_passes (ho : s.owned? q h = some g) (hs : g.st = .sealed) (hd : s.drainers h = [])
    (he : g.eccBlock = false) : s.launchRecheck q h = 0 := by
  simp [State.launchRecheck, ho, hs, hd, he]
end

/-- The end semaphore of a LAUNCH_GRAPH packet is declared, when it names one (R212). -/
abbrev State.endSemOk (s : State) (q : Nat) (p : BitVec 512) : Prop :=
  (endActOf p).semv = true → s.declared q (endActOf p).sem = true

section
variable {s : State} {q : Fin 16384} {p : BitVec 512} (hp : s.heads q p) (ho : opcode p = 0x10)
include hp ho

/-- What LAUNCH_GRAPH does when its turn has come; the turn itself moves nothing that its checks read. -/
theorem State.exec_launchGraph : exec (.launchGraph q) s = .next (
    if (endActOf p).semv && !s.declared q (endActOf p).sem then (s.serve q).retire q stSemUndeclared 0
    else if s.launchCheck q (handleOf p) ≠ 0 then (s.serve q).retire q (s.launchCheck q (handleOf p)) 0
    else match s.graph? (handleOf p) with
      | none => s.serve q
      | some g => (s.serve q).tryLaunch q p g) := by
  change execLaunchGraph q s = _
  rw [execLaunchGraph, State.command_of_heads hp _ (by simp [ho])]
  rfl

theorem State.launchGraph_undeclared (hs : ¬s.endSemOk q p) :
    exec (.launchGraph q) s = .next ((s.serve q).retire q stSemUndeclared 0) := by
  rw [State.exec_launchGraph hp ho, if_pos]
  simpa using hs

/-- The first check of R105 that fails ends the command with its status. -/
theorem State.launchGraph_fails (hs : s.endSemOk q p) {st : Nat} (hc : s.launchCheck q (handleOf p) = st)
    (h0 : st ≠ 0) : exec (.launchGraph q) s = .next ((s.serve q).retire q st 0) := by
  rw [State.exec_launchGraph hp ho, if_neg, hc, if_pos h0]
  simpa using hs

/-- With every check passed the launch proceeds, waits or fails as what holds it says (R106). -/
theorem State.launchGraph_passes (hs : s.endSemOk q p) {g : Graph} (hg : s.owned? q (handleOf p) = some g)
    (hc : s.launchCheck q (handleOf p) = 0) : exec (.launchGraph q) s = .next ((s.serve q).tryLaunch q p g) := by
  rw [State.exec_launchGraph hp ho, if_neg, if_neg (not_not.mpr hc), State.graph?_of_owned? hg]
  simpa using hs
end

/-- LAUNCH_PROCEED of a waiting launch that still meets its checks tries it again (R106). -/
theorem State.exec_launchProceed {s : State} {q : Fin 16384} {p : BitVec 512} {g : Graph} (ha : s.alive = true)
    (hp : s.headPacket? q = some p) (hh : (s.queue q).head = .launch false) (hheld : (s.queue q).held = false)
    (hg : s.owned? q (handleOf p) = some g) (hc : s.launchRecheck q (handleOf p) = 0) :
    exec (.launchProceed q) s = .next (s.tryLaunch q p g) := by
  change execLaunchProceed q s = _
  simp [execLaunchProceed, hp, hh, State.when, hheld, ha, State.resumeLaunch, hc, State.graph?_of_owned? hg]

/-! ### A launch that waits (R106, R121) -/

theorem State.only_modGraph (s : State) (h : Nat) (f : Graph → Graph) : s.only (s.modGraph h f) [.gs] := by
  intro p hp
  cases p <;> simp_all [State.same]

/-- A command that waits behind a change of a graph waits with WAIT `w`, its head where it was, and nothing else has
moved. -/
theorem State.modGraph_stall_waits (s : State) (q h w : Nat) (f : Graph → Graph) (hd : Head) :
    let t := (s.modGraph h f).stall q w hd
    (t.queue q).st = .stalled ∧ (t.queue q).wait = w ∧ (t.queue q).rptr = (s.queue q).rptr
      ∧ t.sow = s.sow ∧ s.otherQueues t q ∧ s.only t [.gs, .hcf] := by
  refine ⟨?_, ?_, ?_, by simp, fun r hr => ?_, ?_⟩
  · simp [State.stall]
  · simp [State.stall]
  · simp [State.stall]
  · simp [State.stall, State.queue_modQueue_of_ne _ _ hr]
  · exact State.only_trans (State.only_mono (s.only_modGraph h f) (by simp))
      (State.only_mono (State.only_modQueue _ _ _) (by simp))

/-- A launch that the no-wait bit does not fail waits with LAUNCH and takes nothing (R106). -/
theorem State.tryLaunch_waits {s : State} {q : Nat} {p : BitVec 512} {g : Graph}
    (hh : s.launchHold q (handleOf p) g true ≠ .none)
    (hn : nowait p = false ∨ (s.launchHold q (handleOf p) g true ≠ .limit ∧ s.launchHold q (handleOf p) g true ≠ .shadow)) :
    let t := s.tryLaunch q p g
    (t.queue q).st = .stalled ∧ (t.queue q).wait = 2 ∧ (t.queue q).rptr = (s.queue q).rptr
      ∧ t.sow = s.sow ∧ s.otherQueues t q ∧ s.only t [.gs, .hcf] := by
  unfold State.tryLaunch
  dsimp only
  split
  · contradiction
  · simp_all
  · simp_all
  · exact s.modGraph_stall_waits ..
  · exact s.modGraph_stall_waits ..

theorem State.tryLaunch_limit {s : State} {q : Nat} {p : BitVec 512} {g : Graph}
    (hh : s.launchHold q (handleOf p) g true = .limit) (hn : nowait p = true) :
    s.tryLaunch q p g = (s.leaveTurn q (handleOf p)).retire q 0x0C 0 := by
  simp only [State.tryLaunch, hh, hn]
theorem State.tryLaunch_shadow {s : State} {q : Nat} {p : BitVec 512} {g : Graph}
    (hh : s.launchHold q (handleOf p) g true = .shadow) (hn : nowait p = true) :
    s.tryLaunch q p g = (s.leaveTurn q (handleOf p)).retire q 0x0D 0 := by
  simp only [State.tryLaunch, hh, hn]

/-- The live limit is the first thing that holds a launch (R106). -/
theorem State.launchHold_limit {s : State} {q h : Nat} {g : Graph} {cmd : Bool}
    (hl : g.limit ≤ (s.liveOf h).length) : s.launchHold q h g cmd = .limit := by
  simp [State.launchHold, hl]

theorem State.only_serve (s : State) (q : Nat) : s.only (s.serve q) [.hcf, .inSc] := by
  intro p hp
  cases p <;> simp at hp <;> rfl

/-! ### IDs and the order of a list (R10, R147) -/

theorem idLater_iff (a b : BitVec 32) : idLater a b = true ↔ 1 ≤ (a.toNat + 2 ^ 32 - b.toNat) % 2 ^ 32
    ∧ (a.toNat + 2 ^ 32 - b.toNat) % 2 ^ 32 ≤ 2 ^ 31 - 1 := by
  have e : (a - b).toNat = (a.toNat + 2 ^ 32 - b.toNat) % 2 ^ 32 := by
    rw [BitVec.toNat_sub]
    congr 1
    omega
  simp [idLater, e]

/-- A launch takes the function's next ID, and the counter of no other function moves (R10). -/
theorem State.proceed_takes_nextSowId (s : State) (q h : Nat) (g : Graph) (a : LaunchArgs) :
    let n := fnOfQueue q
    let t := (s.proceed q h g a).2
    t.nextSowId n = s.nextSowId n + 1 ∧ (∀ m, m ≠ n → t.nextSowId m = s.nextSowId m)
      ∧ ∃ w, t.sowing? (sowKey n (s.nextSowId n)) = some w ∧ w.fn = n ∧ w.id = s.nextSowId n := by
  obtain ⟨w, hw, hfn, hid, -, -, -, -, -, -, -, -, -, -, -, -, hnext, -, hother, -, -⟩ := s.launched_proceed q h g a
  exact ⟨hnext, hother, w, hw, hfn, hid⟩

/-- An entry goes behind those of its list, but for the later ones of its own sc (R147). -/
theorem insertReady_splits (x : Ready) (l : List Ready) : ∃ a b, l = a ++ b ∧ insertReady x l = a ++ x :: b
    ∧ (∀ y ∈ a, y.at' ≠ x.at' ∨ y.rank ≤ x.rank) ∧ (∀ y, b.head? = some y → y.at' = x.at' ∧ x.rank < y.rank) := by
  induction l with
  | nil => exact ⟨[], [], rfl, rfl, by simp, by simp⟩
  | cons y r ih =>
    by_cases hy : y.at' = x.at' ∧ x.rank < y.rank
    · exact ⟨[], y :: r, rfl, by simp [insertReady, hy], by simp, by simpa using hy⟩
    · obtain ⟨a, b, hl, hi, ha, hb⟩ := ih
      refine ⟨y :: a, b, by rw [hl]; rfl, by simp [insertReady, hy, hi], ?_, hb⟩
      intro z hz
      rcases List.mem_cons.mp hz with rfl | hz
      · omega
      · exact ha z hz

/-! ### The roots of a sowing (R109, R143) -/

/-- Node `i` is the only root that sowing `w` of graph `g` has left. -/
def Sowing.lastRoot (w : Sowing) (g : Graph) (i : Nat) : Prop :=
  w.nextRoot ≤ i ∧ i < g.n ∧ ∀ j, w.nextRoot ≤ j → j < g.n → (nFanin (g.nodes.look 0 j) = 0 ↔ j = i)

/-- The roots of a resident graph are its nodes with FANIN 0, taken from `nextRoot` on (R109). -/
theorem Sowing.root_of_nextRoot? {w : Sowing} {g : Graph} {i : Nat} (hf : g.fallow = false)
    (h : w.nextRoot? g = some i) : w.nextRoot ≤ i ∧ i < g.n ∧ nFanin (g.nodes.look 0 i) = 0 := by
  simp only [Sowing.nextRoot?, hf, Bool.false_eq_true, if_false] at h
  have hm := List.mem_of_find?_eq_some h
  have hz := List.find?_some h
  simp only [List.mem_map, List.mem_range, beq_iff_eq] at hm hz
  omega

theorem Sowing.nextRoot?_eq_none_iff {w : Sowing} {g : Graph} (hf : g.fallow = false) :
    w.nextRoot? g = none ↔ ∀ j, w.nextRoot ≤ j → j < g.n → nFanin (g.nodes.look 0 j) ≠ 0 := by
  simp only [Sowing.nextRoot?, hf, Bool.false_eq_true, if_false, List.find?_eq_none, List.mem_map, List.mem_range,
    beq_iff_eq]
  constructor
  · exact fun h j h1 h2 => h j ⟨j - w.nextRoot, by omega, by omega⟩
  · rintro h j ⟨d, hd, rfl⟩
    exact h _ (by omega) (by omega)

theorem Sowing.nextRoot?_of_lastRoot {w : Sowing} {g : Graph} {i : Nat} (hf : g.fallow = false)
    (hr : w.lastRoot g i) : w.nextRoot? g = some i := by
  obtain ⟨hle, hlt, honly⟩ := hr
  cases h : w.nextRoot? g with
  | none => exact absurd ((honly i hle hlt).mpr rfl) ((Sowing.nextRoot?_eq_none_iff hf).mp h i hle hlt)
  | some j =>
    obtain ⟨h1, h2, h3⟩ := Sowing.root_of_nextRoot? hf h
    rw [(honly j h1 h2).mp h3]

/-- Behind its last root a sowing has none left. -/
theorem Sowing.nextRoot?_past_lastRoot {w x : Sowing} {g g' : Graph} {i : Nat} (hf : g'.fallow = false)
    (hn : g'.n = g.n) (hnodes : g'.nodes = g.nodes) (hr : w.lastRoot g i) (hx : x.nextRoot = i + 1) :
    x.nextRoot? g' = none := by
  obtain ⟨hle, -, honly⟩ := hr
  rw [Sowing.nextRoot?_eq_none_iff hf, hx, hn, hnodes]
  intro j h1 h2 h3
  have := (honly j (by omega) h2).mp h3
  omega

/-! ### What the steps of an insertion change -/

/-- Which engines a plot has depends on the active field map and on the engines alone. -/
theorem State.belongs_congr {s t : State} (hf : t.fm = s.fm) (he : t.eng = s.eng) (e p k : Nat) :
    t.belongs e p k = s.belongs e p k := by
  rw [State.belongs, State.belongs, State.active, State.active, State.plotOf, State.plotOf, State.engCfg, State.engCfg,
    State.engine, State.engine, hf, he]

theorem State.hasKind_congr {s t : State} (hf : t.fm = s.fm) (he : t.eng = s.eng) (p k : Nat) :
    t.hasKind p k = s.hasKind p k := by
  simp only [State.hasKind, State.belongs_congr hf he]

/-- The list that node record `n` of sowing `w` enters (R146). -/
def State.listOf (s : State) (w : Sowing) (n : BitVec 512) : Nat :=
  listKey w.plot (nKind n) (s.classOf w n) (nGroup n)

/-- The list depends on the plot, on whether a cyclic entry launched the sowing, and on the active field map (R316). -/
theorem State.listOf_congr {s t : State} {w x : Sowing} (hf : t.fm = s.fm) (hp : x.plot = w.plot)
    (hc : x.cyc = w.cyc) (n : BitVec 512) : t.listOf x n = s.listOf w n := by
  rw [State.listOf, State.listOf, State.classOf, State.classOf, State.plotCfg, State.plotCfg, hf, hp, hc]

theorem State.list_setList_same (s : State) (l : Nat) (v : List Ready) : (s.setList l v).list l = v :=
  Tab.look_put_same _ _ _ _
theorem State.list_setList_of_ne (s : State) {j l : Nat} (v : List Ready) (h : j ≠ l) :
    (s.setList l v).list j = s.list j := Tab.look_put_of_ne _ _ _ h

/-- What an entry makes of the ready lists depends on them and on the time alone. -/
theorem State.listNode_rla_congr {s t : State} (hrla : t.rla = s.rla) (hnow : t.now = s.now) (htcs : t.tcs = s.tcs)
    (l k i : Nat) (r : Rank) : (t.listNode l k i r).rla = (s.listNode l k i r).rla := by
  simp only [State.listNode, State.setList, State.list, hrla, hnow, htcs]

/-- A node whose kind its plot has enters its list and counts in the pool (R141, R146, R151). -/
theorem State.pushReady_of_hasKind {s : State} {k i : Nat} {w : Sowing} (r : Rank) (hw : s.sowing? k = some w)
    (hk : s.hasKind w.plot (nKind (s.node w i)) = true) :
    s.pushReady k i r = (s.listNode (s.listOf w (s.node w i)) k i r).noteAdd w.plot := by
  simp only [State.pushReady, hw]
  refine if_pos ?_
  rw [Bool.or_eq_true]
  exact .inr hk

theorem State.setCtrState_eq {s : State} {k i : Nat} {w : Sowing} {g : Graph} (st : CtrState)
    (hw : s.sowing? k = some w) (hg : s.graph? w.graph = some g) :
    s.setCtrState k i st = s.setSowing k (w.setCounter i { w.counter g i with st := st }) := by
  simp only [State.setCtrState, hw, hg]

/-- A use of a page moves the frames of its graph alone. -/
theorem State.graph?_touch {s : State} {h p : Nat} {g : Graph} (hg : s.graph? h = some g) :
    ∃ fr, (s.touch h p).graph? h = some { g with frames := fr } := by
  rw [State.touch, State.graph?_modGraph_same, hg]
  exact ⟨_, rfl⟩

/-! ### The insertion of a sowing's last root -/

theorem State.only_setSowing (s : State) (k : Nat) (v : Sowing) : s.only (s.setSowing k v) [.sow] := by
  intro p hp
  cases p <;> simp at hp <;> rfl

/-- Sowing `w` with root `i` taken: the next one is looked for behind it, and its place in the order of root insertion is
kept, or given when this is its first (R143). -/
def State.rootTaken (s : State) (w : Sowing) (i : Nat) : Sowing :=
  { w with
    nextRoot := i + 1
    firstRoot := match w.firstRoot with | some o => some o | none => some s.sow.roots }

/-- The state in which root `i` of sowing `k` has been taken and its counter has passed (R109, R139). -/
def State.takeRoot (s : State) (k : Nat) (w : Sowing) (i : Nat) : State :=
  let s1 : State := { s with sow := { s.sow with
    live := s.sow.live.ins k (s.rootTaken w i)
    roots := if w.firstRoot.isSome then s.sow.roots else s.sow.roots + 1 } }
  (s1.touch w.graph (pageOf i)).setCtrState k i .passed

/-- The root insertion of sowing `k` of graph `h` ends when no root is left (R109). -/
def State.endRoots (s : State) (k h : Nat) : State :=
  match s.sowing? k, s.graph? h with
  | some x, some g => if (x.nextRoot? g).isNone then s.rootsEnd k x else s
  | _, _ => s

theorem State.insertRoot_eq (s : State) (k : Nat) (w : Sowing) (i : Nat) :
    s.insertRoot k w i =
      (if nDlyv ((s.takeRoot k w i).node w i) then (s.takeRoot k w i).pushDelay k i w
        else if nKind ((s.takeRoot k w i).node w i) = 15 then (s.takeRoot k w i).retireNode k i 0 none
        else (s.takeRoot k w i).pushReady k i .root).endRoots k w.graph := rfl

theorem State.endRoots_of_none {s : State} {k h : Nat} {x : Sowing} {g : Graph} (hx : s.sowing? k = some x)
    (hg : s.graph? h = some g) (hn : x.nextRoot? g = none) : s.endRoots k h = s.rootsEnd k x := by
  simp [State.endRoots, hx, hg, hn]

/-- What taking a root leaves: the sowing with the root passed, its graph but for the frames, and everything else. -/
theorem State.takeRoot_spec {s : State} {k i : Nat} {w : Sowing} {g : Graph} (hlive : s.sow.live = [(k, w)])
    (hg : s.graph? w.graph = some g) :
    ∃ c fr, (s.takeRoot k w i).sow.live = [(k, (s.rootTaken w i).setCounter i c)] ∧ c.st = .passed
      ∧ (s.takeRoot k w i).graph? w.graph = some { g with frames := fr }
      ∧ s.only (s.takeRoot k w i) [.gs, .sow] := by
  unfold State.takeRoot
  generalize hs1 : ({ s with sow := _ } : State) = s1
  have hl1 : s1.sow.live = [(k, s.rootTaken w i)] := by subst hs1; simp [hlive, Tab.ins]
  have hg1 : s1.graph? w.graph = some g := by subst hs1; exact hg
  have ho1 : s.only s1 [.sow] := by
    subst hs1; intro p hp; cases p <;> simp at hp <;> rfl
  have hsow : (s1.touch w.graph (pageOf i)).sowing? k = some (s.rootTaken w i) := by
    simp [State.touch, State.sowing?, hl1, Tab.look?]
  obtain ⟨fr, ht⟩ := State.graph?_touch (p := pageOf i) hg1
  rw [State.setCtrState_eq .passed hsow ht]
  refine ⟨{ (s.rootTaken w i).counter { g with frames := fr } i with st := .passed }, fr, ?_, rfl, ?_, ?_⟩
  · simp [State.setSowing, State.touch, hl1, Tab.ins]
  · rw [State.graph?_setSowing, ht]
  · have ht1 : s1.only (s1.touch w.graph (pageOf i)) [.gs] := s1.only_modGraph _ _
    exact State.only_trans (State.only_mono ho1 (by simp))
      (State.only_trans (State.only_mono ht1 (by simp)) (State.only_mono (State.only_setSowing _ _ _) (by simp)))

/-! ### The end of root insertion -/

theorem State.rootsEnd_rla (s : State) (k : Nat) (w : Sowing) : (s.rootsEnd k w).rla = s.rla := by
  unfold State.rootsEnd
  dsimp only
  split <;> simp

theorem State.rootsEnd_live (s : State) (k : Nat) (w : Sowing) :
    (s.rootsEnd k w).sow.live = s.sow.live.ins k { w with rootsDone := true, launching := false } := by
  unfold State.rootsEnd
  dsimp only
  split <;> simp [State.setSowing]

/-- With its last root in, the launch command of a sowing retires with status OK (R109). -/
theorem State.queue_rootsEnd {s : State} {k : Nat} {w : Sowing} {p : BitVec 512}
    (hq : (s.queue w.queue).head = .rooting k) (hp : s.headPacket? w.queue = some p)
    (ha : (s.queue w.queue).haltAfter = none) :
    (s.rootsEnd k w).queue w.queue = ((s.queue w.queue).advance).settle s.now := by
  unfold State.rootsEnd
  dsimp only
  rw [State.queue_setSowing, if_pos hq]
  rw [State.queue_retire (st := 0) (p := p) _ ?_ (by simp [haltsQueue]) ?_]
  · simp
  · exact hp
  · simpa using ha

/-- A queue that goes on has nothing under way. -/
theorem Queue.head_settle (r : Queue) (now : Nat) : (r.settle now).head = .none := by
  unfold Queue.settle Queue.goOn
  split
  · rfl
  · split <;> rfl

/-- Marking the launches that wait for a root touches the queues alone. -/
theorem State.markRoots_hcf_only (s : State) : s.markRoots = { s with hcf := s.markRoots.hcf } := by
  unfold State.markRoots
  generalize s.sow.live = l
  induction l generalizing s with
  | nil => rfl
  | cons kv l ih =>
    rw [List.foldl_cons, ih]
    split <;> rfl

/-- It leaves a queue whose command waits for no root as it was. -/
theorem State.queue_markRoots {s : State} {q : Nat} (h : ∀ k, (s.queue q).head ≠ .rooting k) :
    s.markRoots.queue q = s.queue q := by
  unfold State.markRoots
  generalize s.sow.live = l
  induction l generalizing s with
  | nil => rfl
  | cons kv l ih =>
    rw [List.foldl_cons]
    split
    · next hk =>
      have hne : q ≠ kv.2.queue := by rintro rfl; exact h _ hk
      rw [ih]
      · exact State.queue_modQueue_of_ne _ _ hne
      · rwa [State.queue_modQueue_of_ne _ _ hne]
    · exact ih h

/-- With the roots of every sowing in, nothing is inserted. -/
theorem State.nextInsertion_of_done {s : State} {k : Nat} {w : Sowing} (hl : s.sow.live = [(k, w)])
    (hd : w.rootsDone = true) : s.nextInsertion = none := by
  simp [State.nextInsertion, State.rootOrder, hl, State.rooting, hd]

theorem State.insertRoots_of_none {s : State} (h : s.nextInsertion = none) (n : Nat) : s.insertRoots n = s := by
  cases n with
  | zero => rfl
  | succ n => simp [State.insertRoots, h]

/-- The one sowing that inserts its roots is the next to insert one that fits (R143). -/
theorem State.nextInsertion_of_single {s : State} {k i : Nat} {w : Sowing} {g : Graph} (hl : s.sow.live = [(k, w)])
    (hst : w.st = .active) (hr : s.rooting w = true) (hg : s.graph? w.graph = some g)
    (hi : w.nextRoot? g = some i) (hfit : s.rootFits w g i = true) : s.nextInsertion = some (k, w, i) := by
  simp [State.nextInsertion, State.rootOrder, hl, hst, hr, hg, hi, hfit]

/-- ROOT_INSERTION inserts up to 16 roots when no sowing fails (R115, R143). -/
theorem State.exec_rootInsertion {s : State} (ha : s.alive = true) (hf : ∀ kv ∈ s.sow.live, kv.2.st ≠ .failing) :
    exec .rootInsertion s = .next (s.insertRoots 16).markRoots := by
  have hnone : (s.sow.live.filter fun kv => !kv.2.rootsDone && kv.2.st == .failing) = [] := by
    simp only [List.filter_eq_nil_iff, Bool.and_eq_true, beq_iff_eq, not_and]
    exact fun kv hkv _ => hf kv hkv
  change execRootInsertion s = _
  unfold execRootInsertion
  rw [hnone]
  exact State.when_true rfl ha

/-! ### A sowing with one root left -/

section
variable {s : State} {k i : Nat} {w : Sowing} {g : Graph}
variable (hlive : s.sow.live = [(k, w)]) (hg : s.graph? w.graph = some g) (hf : g.fallow = false) (hr : w.lastRoot g i)
  (hd : nDlyv (g.nodes.look 0 i) = false) (hn : nKind (g.nodes.look 0 i) ≠ 15)
  (hk : s.hasKind w.plot (nKind (g.nodes.look 0 i)) = true)
include hlive hg hf hr hd hn hk

/-- The last root of a sowing enters its ready list, and the root insertion of the sowing ends (R109, R143, R146). -/
theorem State.insertRoot_last :
    ∃ u c, s.insertRoot k w i = u.rootsEnd k ((s.rootTaken w i).setCounter i c) ∧ c.st = .passed
      ∧ u.sow.live = [(k, (s.rootTaken w i).setCounter i c)]
      ∧ u.rla = (s.listNode (s.listOf w (g.nodes.look 0 i)) k i .root).rla ∧ s.only u [.gs, .sow, .rla, .inSc] := by
  obtain ⟨c, fr, hl, hc, hgt, ho⟩ := State.takeRoot_spec (i := i) hlive hg
  rw [State.insertRoot_eq]
  generalize s.takeRoot k w i = t at hl hgt ho ⊢
  have hsow : t.sowing? k = some ((s.rootTaken w i).setCounter i c) := by simp [State.sowing?, hl, Tab.look?]
  have hnode : t.node w i = g.nodes.look 0 i := by simp only [State.node, hgt]
  have hfm : t.fm = s.fm := ho .fm (by simp)
  have hkind : t.hasKind w.plot (nKind (t.node w i)) = true := by
    rw [hnode, State.hasKind_congr hfm (ho .eng (by simp)), hk]
  have hlist : t.listOf ((s.rootTaken w i).setCounter i c) (t.node w i) = s.listOf w (g.nodes.look 0 i) := by
    rw [hnode]
    exact State.listOf_congr hfm rfl rfl _
  have hpush : t.pushReady k i .root = (t.listNode (s.listOf w (g.nodes.look 0 i)) k i .root).noteAdd w.plot :=
    hlist ▸ State.pushReady_of_hasKind .root hsow hkind
  simp only [hnode, hd, Bool.false_eq_true, if_false, hn, hpush]
  refine ⟨_, c, State.endRoots_of_none hsow hgt ?_, hc, hl, ?_, ?_⟩
  · exact Sowing.nextRoot?_past_lastRoot hf rfl rfl hr rfl
  · exact State.listNode_rla_congr (ho .rla (by simp)) (ho .now (by simp)) (ho .tcs (by simp)) ..
  · have ha : t.only ((t.listNode (s.listOf w (g.nodes.look 0 i)) k i .root).noteAdd w.plot) [.rla, .inSc] := by
      intro p hp; cases p <;> simp at hp <;> rfl
    exact State.only_trans (State.only_mono ho (by simp)) (State.only_mono ha (by simp))

/-- Root insertion with one root left puts it into its ready list and retires the launch (R109, R143, R146). -/
theorem State.rootInsertion_last (ha : s.alive = true) (hst : w.st = .active) (hroot : s.rooting w = true)
    (hm : s.mayReady w.plot = true) (ht : g.inTransfer i = false) (hq : (s.queue w.queue).head = .rooting k) :
    let l := s.listOf w (g.nodes.look 0 i)
    ∃ t w', exec .rootInsertion s = .next t ∧ t.list l = insertReady ⟨k, i, s.tcs.tick, false, s.now, 0⟩ (s.list l)
      ∧ (∀ j, j ≠ l → t.list j = s.list j) ∧ t.sowing? k = some w' ∧ w'.rootsDone = true ∧ w'.st = .active
      ∧ (w'.ctr.look? i).map (·.st) = some .passed
      ∧ (s.headPacket? w.queue ≠ none → (s.queue w.queue).haltAfter = none →
          t.queue w.queue = ((s.queue w.queue).advance).settle s.now) := by
  obtain ⟨u, c, he, hc, hul, hrla, ho⟩ := State.insertRoot_last hlive hg hf hr hd hn hk
  generalize hx : (s.rootTaken w i).setCounter i c = x at he hul
  have hxq : x.queue = w.queue := by subst hx; rfl
  have hlive' : (u.rootsEnd k x).sow.live = [(k, { x with rootsDone := true, launching := false })] := by
    simp [State.rootsEnd_live, hul, Tab.ins]
  have hins : s.insertRoots 16 = u.rootsEnd k x := by
    have hnext := State.nextInsertion_of_single hlive hst hroot hg (Sowing.nextRoot?_of_lastRoot hf hr)
      (by simp only [State.rootFits, Graph.resident, hf, ht, hd, hm]; simp)
    rw [State.insertRoots, hnext]
    exact he ▸ State.insertRoots_of_none (State.nextInsertion_of_done hlive' rfl) 15
  have hlists : ∀ j, ((u.rootsEnd k x).markRoots).list j
      = (s.listNode (s.listOf w (g.nodes.look 0 i)) k i .root).list j := by
    intro j
    rw [State.markRoots_hcf_only]
    simp only [State.list, State.rootsEnd_rla, hrla]
  refine ⟨(u.rootsEnd k x).markRoots, { x with rootsDone := true, launching := false }, ?_, ?_, ?_, ?_, rfl, ?_, ?_, ?_⟩
  · rw [State.exec_rootInsertion ha (by simp [hlive, hst]), hins]
  · rw [hlists]; exact State.list_setList_same ..
  · intro j hj; rw [hlists]; exact State.list_setList_of_ne _ _ hj
  · rw [State.markRoots_hcf_only]
    simp [State.sowing?, hlive', Tab.look?]
  · subst hx; exact hst
  · subst hx; simp [Sowing.setCounter, hc]
  · intro hp hh
    obtain ⟨p, hp⟩ := Option.ne_none_iff_exists'.mp hp
    have hhcf : u.hcf = s.hcf := ho .hcf (by simp)
    have huq : u.queue w.queue = s.queue w.queue := by rw [State.queue, State.queue, hhcf]
    have hend : (u.rootsEnd k x).queue w.queue = ((s.queue w.queue).advance).settle s.now := by
      rw [← hxq] at huq hq hh hp ⊢
      rw [State.queue_rootsEnd (huq ▸ hq) (p := p) (by rw [State.headPacket?, huq]; exact hp) (huq ▸ hh), huq,
        ho .now (by simp)]
    rw [State.queue_markRoots (by simp [hend, Queue.head_settle]), hend]
end

/-! ### O19 -/

/-- R106: what the checks passed and no-wait does not fail waits. -/
theorem State.launchGraph_waits {s : State} {q : Fin 16384} {p : BitVec 512} {g : Graph}
    (hx : exec (.launchGraph q) s = .next ((s.serve q).tryLaunch q p g))
    (hh : s.launchHold q (handleOf p) g true ≠ .none)
    (hn : nowait p = false ∨ (s.launchHold q (handleOf p) g true ≠ .limit ∧ s.launchHold q (handleOf p) g true ≠ .shadow)) :
    ∃ t, exec (.launchGraph q) s = .next t
      ∧ (t.queue q).st = .stalled ∧ (t.queue q).wait = 2 ∧ (t.queue q).rptr = (s.queue q).rptr
      ∧ t.sow = s.sow ∧ s.otherQueues t q ∧ s.only t [.gs, .hcf, .inSc] := by
  obtain ⟨hst, hwait, hrptr, hsow, hothers, honly⟩ :=
    State.tryLaunch_waits (s := s.serve q) (q := q) (p := p) (g := g) hh hn
  exact ⟨_, hx, hst, hwait, hrptr, hsow, hothers,
    State.only_trans (State.only_mono (s.only_serve q) (by simp)) (State.only_mono honly (by simp))⟩

/-- Settles O19: launches that proceed, the last root of a sowing, the order of a ready list, sowing IDs, and the checks of
a launch in their order. -/
theorem launchProceeds : Obligations.LaunchProceeds := by
  refine ⟨⟨?_, ?_⟩, ?_, insertReady_splits, ⟨State.proceed_takes_nextSowId, idLater_iff⟩, ?_⟩
  · intro s q p g hp ho hs hg hst hd he hb hh
    obtain ⟨hl, hhead, hrptr, honly⟩ := State.tryLaunch_proceeds (s := s.serve q) (q := q) (p := p) (g := g) hh
    exact ⟨_, State.launchGraph_passes hp ho hs hg (State.launchCheck_passes hg hst hd he hb), hl, hhead, hrptr,
      State.only_trans (State.only_mono (s.only_serve q) (by simp)) honly⟩
  · intro s q p g ha hp hhead hheld hg hst hd he hh
    exact ⟨_, State.exec_launchProceed ha hp hhead hheld hg (State.launchRecheck_passes hg hst hd he),
      State.tryLaunch_proceeds hh⟩
  · intro s k i t0 w g ha hlive hst hdone hfanin hat hnow _ hg hf hle hlt honly hd hn hm ht hk hq
    have hroot : s.rooting w = true := by simp [State.rooting, hdone, hfanin, hat, hnow]
    exact State.rootInsertion_last hlive hg hf ⟨hle, hlt, honly⟩ hd hn hk ha hst hroot hm ht hq
  · intro s q p hp ho
    refine ⟨State.launchGraph_undeclared hp ho,
      fun hs hg => State.launchGraph_fails hp ho hs (State.launchCheck_of_unowned hg) (by decide), fun g hs hg =>
      ⟨fun hst => State.launchGraph_fails hp ho hs (State.launchCheck_of_unsealed hg hst) (by decide),
       fun hst hd => State.launchGraph_fails hp ho hs (State.launchCheck_of_drained hg hst hd) (by decide),
       fun hst hd he hb =>
        State.launchGraph_fails hp ho hs (State.launchCheck_of_overQuota hg hst hd he hb) (by decide),
       fun hst hd he hb => ?_⟩⟩
    have hx := State.launchGraph_passes hp ho hs hg (State.launchCheck_passes hg hst hd he hb)
    refine ⟨fun hl hn => ?_, fun hh hn => ?_, fun hh hn => State.launchGraph_waits hx hh hn⟩
    · rw [hx, State.tryLaunch_limit (s := s.serve q) (State.launchHold_limit hl) hn]
    · rw [hx, State.tryLaunch_shadow (s := s.serve q) hh hn]

end Sys2Proof.Machine

/-! PROOFS. O6, handles: what each command that names a graph does when its function owns no graph of that handle. -/
namespace Sys2Proof.Machine

/-! ### Handles that name no graph of the function (R66) -/

/-- A handle that is free or that another function owns names no graph for the queue's commands (R66). -/
theorem State.owned?_eq_none_iff {s : State} {q h : Nat} :
    s.owned? q h = none ↔ ∀ g, s.graph? h = some g → g.owner ≠ fnOfQueue q := by
  simp [State.owned?, Option.filter_eq_none_iff]

/-- The queue's turn leaves every graph with its owner. -/
@[simp] theorem State.owned?_serve (s : State) (q r h : Nat) : (s.serve q).owned? r h = s.owned? r h := rfl

section
variable {s : State} {q : Nat} {p : BitVec 512} (hg : s.owned? q (handleOf p) = none)
include hg

/-- GRAPH_UNSEAL and GRAPH_FREE share the check of the handle (R72). -/
theorem State.drainCommand_of_unowned (free : Bool) : s.drainCommand q p free = s.retire q stBadHandle 0 := by
  simp [State.drainCommand, hg]

/-- Both forms of PATCH_PARAM share the check of the handle (R118). -/
theorem State.patchCommand_of_unowned : s.patchCommand q p = s.retire q stBadHandle 0 := by
  simp [State.patchCommand, hg]

theorem State.swapCommand_of_unowned : s.swapCommand q p = s.retire q stBadHandle 0 := by
  simp [State.swapCommand, hg]
end

/-! ### Each command on such a handle -/

section
variable {s : State} {q : Fin 16384} {p : BitVec 512} (hp : s.heads q p)
  (hg : s.owned? q (handleOf p) = none)
include hp hg

/-- A queue command whose effect `f` fails on a handle that its function does not own ends with BAD_HANDLE; the turn itself
gives no graph away. -/
theorem State.command_of_unowned {mine : BitVec 512 → Bool} {f : BitVec 512 → State → State} (hm : mine p = true)
    (hf : ∀ t : State, t.owned? q (handleOf p) = none → f p t = t.retire q stBadHandle 0) :
    s.command q mine f = .next ((s.serve q).retire q stBadHandle 0) := by
  rw [State.command_of_heads hp f hm, hf (s.serve q) hg]

theorem State.graphLoad_of_unowned (ho : opcode p = 0x09) :
    exec (.graphLoad q) s = .next ((s.serve q).retire q stBadHandle 0) := by
  change execGraphLoad q s = _
  exact State.command_of_unowned hp hg (by simp [ho]) fun _ h => by simp [h]

theorem State.graphSeal_of_unowned (ho : opcode p = 0x0A) :
    exec (.graphSeal q) s = .next ((s.serve q).retire q stBadHandle 0) := by
  change execGraphSeal q s = _
  exact State.command_of_unowned hp hg (by simp [ho]) fun _ h => by simp [h]

theorem State.graphUnseal_of_unowned (ho : opcode p = 0x0B) :
    exec (.graphUnseal q) s = .next ((s.serve q).retire q stBadHandle 0) := by
  change execGraphUnseal q s = _
  exact State.command_of_unowned hp hg (by simp [ho]) fun _ h => State.drainCommand_of_unowned h false

theorem State.graphFree_of_unowned (ho : opcode p = 0x0C) :
    exec (.graphFree q) s = .next ((s.serve q).retire q stBadHandle 0) := by
  change execGraphFree q s = _
  exact State.command_of_unowned hp hg (by simp [ho]) fun _ h => State.drainCommand_of_unowned h true

/-- The semaphore of a launch's end action is checked before the handle, so it must be declared here. -/
theorem State.launchGraph_of_unowned (ho : opcode p = 0x10) (hs : s.endSemOk q p) :
    exec (.launchGraph q) s = .next ((s.serve q).retire q stBadHandle 0) :=
  State.launchGraph_fails hp ho hs (State.launchCheck_of_unowned hg) (by decide)

theorem State.patchParamInline_of_unowned (ho : opcode p = 0x11) (hform : pf p 0 34 1 = 0) :
    exec (.patchParamInline q) s = .next ((s.serve q).retire q stBadHandle 0) := by
  change execPatchParamInline q s = _
  exact State.command_of_unowned hp hg (by simp [ho, hform]) fun _ h => State.patchCommand_of_unowned h

theorem State.patchParamPointer_of_unowned (ho : opcode p = 0x11) (hform : pf p 0 34 1 = 1) :
    exec (.patchParamPointer q) s = .next ((s.serve q).retire q stBadHandle 0) := by
  change execPatchParamPointer q s = _
  exact State.command_of_unowned hp hg (by simp [ho, hform]) fun _ h => State.patchCommand_of_unowned h

theorem State.swapBank_of_unowned (ho : opcode p = 0x13) :
    exec (.swapBank q) s = .next ((s.serve q).retire q stBadHandle 0) := by
  change execSwapBank q s = _
  exact State.command_of_unowned hp hg (by simp [ho]) fun _ h => State.swapCommand_of_unowned h

/-- The failure does not depend on the record that the sequence table would choose. -/
theorem State.stuModel_of_unowned (ho : opcode p = 0x30) (model : Fin 1024) :
    exec (.stuModel q model) s = .next ((s.serve q).retire q stBadHandle 0) := by
  change execStuModel q model s = _
  exact State.command_of_unowned hp hg (by simp [ho]) fun _ h => by simp [h]
end

/-! ### O6 -/

/-- A field of a packet fits its width. -/
theorem pf_lt (p : BitVec 512) (w lo len : Nat) : pf p w lo len < 2 ^ len :=
  Nat.mod_lt _ (Nat.two_pow_pos len)

/-- Settles O6, one lemma per command: the handle is checked before anything else the command does, and in LAUNCH_GRAPH
right after the semaphore of its end action. -/
theorem handlesBelongToTheirFunction : Obligations.HandlesBelongToTheirFunction := by
  intro s q p hp hop hsem hfree
  have hg : s.owned? q (handleOf p) = none := State.owned?_eq_none_iff.mpr hfree
  simp only [List.mem_cons, List.not_mem_nil, or_false] at hop
  rcases hop with ho | ho | ho | ho | ho | ho | ho | ho
  · simpa [commandOf, ho] using State.graphLoad_of_unowned hp hg ho
  · simpa [commandOf, ho] using State.graphSeal_of_unowned hp hg ho
  · simpa [commandOf, ho] using State.graphUnseal_of_unowned hp hg ho
  · simpa [commandOf, ho] using State.graphFree_of_unowned hp hg ho
  · simpa [commandOf, ho] using State.launchGraph_of_unowned hp hg ho (hsem ho)
  · have hform : pf p 0 34 1 = 0 ∨ pf p 0 34 1 = 1 := by
      have := pf_lt p 0 34 1
      omega
    rcases hform with hform | hform
    · simpa [commandOf, ho, hform] using State.patchParamInline_of_unowned hp hg ho hform
    · simpa [commandOf, ho, hform] using State.patchParamPointer_of_unowned hp hg ho hform
  · simpa [commandOf, ho] using State.swapBank_of_unowned hp hg ho
  · simpa [commandOf, ho] using State.stuModel_of_unowned hp hg ho 0

end Sys2Proof.Machine

/-! PROOFS. O47, the sheaf's lanes: SUM is arithmetic modulo 2^316, so adds and merges commute, and a raw image gives back
the lane it was taken from. -/
namespace Sys2Proof.Machine

/-! ### SUM as a balanced residue (R261) -/

/-- The two's-complement value of `w` bits is the balanced residue modulo `2 ^ w`. -/
theorem sgn_eq_bmod {w : Nat} (hw : 0 < w) (x : Nat) : sgn w x = Int.bmod x (2 ^ w) := by
  obtain ⟨v, rfl⟩ := Nat.exists_eq_add_one.mpr hw
  have hhalf : (2 ^ (v + 1) + 1) / 2 = 2 ^ v := by omega
  simp only [sgn, Int.bmod_def, Nat.add_sub_cancel]
  norm_cast
  rw [hhalf]

theorem sgn_toNat_emod {w : Nat} (hw : 0 < w) (x : Int) : sgn w (x % 2 ^ w).toNat = Int.bmod x (2 ^ w) := by
  have hnonneg : 0 ≤ x % 2 ^ w := Int.emod_nonneg x (by positivity)
  rw [sgn_eq_bmod hw, Int.toNat_of_nonneg hnonneg]
  exact mod_cast Int.emod_bmod x (2 ^ w)

theorem wrapSum_eq_bmod (x : Int) : wrapSum x = Int.bmod x (2 ^ 316) :=
  sgn_toNat_emod (by decide) x

@[simp] theorem wrapSum_wrapSum_add (x y : Int) : wrapSum (wrapSum x + y) = wrapSum (x + y) := by
  simp only [wrapSum_eq_bmod, Int.bmod_add_bmod]

@[simp] theorem wrapSum_add_wrapSum (x y : Int) : wrapSum (x + wrapSum y) = wrapSum (x + y) := by
  simp only [wrapSum_eq_bmod, Int.add_bmod_bmod]

/-- A sum that fits 316 bits is kept as it is. -/
theorem wrapSum_of_fits {x : Int} (hlo : -2 ^ 315 ≤ x) (hhi : x < 2 ^ 315) : wrapSum x = x := by
  rw [wrapSum_eq_bmod]
  exact Int.bmod_eq_of_le (by omega) (by omega)

/-! ### Raw images of a lane (R261, R277) -/

theorem bits_one_beq_one_eq_testBit (x i : Nat) : (bits x i 1 == 1) = x.testBit i := by
  rw [bits, Nat.shiftRight_eq_div_pow, Nat.testBit_eq_decide_div_mod_eq]
  rfl

/-- Two's complement reads the low bits alone. -/
theorem sgn_mod_two_pow (w x : Nat) : sgn w (x % 2 ^ w) = sgn w x := by
  simp [sgn]

/-- PINF, NINF, NAN and NZ as the four bits above SUM (R261). -/
def Lane.flags (l : Lane) : Nat := b2n l.pinf + b2n l.ninf * 2 + b2n l.nan * 4 + b2n l.nz * 8

theorem Lane.testBit_flags (l : Lane) :
    l.flags.testBit 0 = l.pinf ∧ l.flags.testBit 1 = l.ninf ∧ l.flags.testBit 2 = l.nan
      ∧ l.flags.testBit 3 = l.nz := by
  obtain ⟨_, pinf, ninf, nan, nz⟩ := l
  simp only [Lane.flags]
  revert pinf ninf nan nz
  decide

theorem Lane.encode_eq (l : Lane) :
    l.encode = 2 ^ 316 * l.flags + (l.sum % (2 ^ 316 : Int)).toNat := by
  simp only [Lane.encode, Lane.flags]
  omega

theorem Lane.sumBits_lt (l : Lane) : (l.sum % (2 ^ 316 : Int)).toNat < 2 ^ 316 := by
  omega

theorem Lane.sgn_encode (l : Lane) : sgn 316 l.encode = wrapSum l.sum := by
  rw [← sgn_mod_two_pow, l.encode_eq, Nat.mul_add_mod, Nat.mod_eq_of_lt l.sumBits_lt, wrapSum]

theorem Lane.testBit_encode (l : Lane) (i : Nat) : l.encode.testBit (316 + i) = l.flags.testBit i := by
  rw [l.encode_eq, Nat.testBit_two_pow_mul_add _ l.sumBits_lt, if_neg (by omega), Nat.add_sub_cancel_left]

/-- A raw image gives back every flag, and the sum in its 316 bits. -/
theorem Lane.decode_encode (l : Lane) : Lane.decode l.encode = { l with sum := wrapSum l.sum } := by
  obtain ⟨hpinf, hninf, hnan, hnz⟩ := l.testBit_flags
  simp only [Lane.decode, bits_one_beq_one_eq_testBit, l.sgn_encode, l.testBit_encode 0, l.testBit_encode 1,
    l.testBit_encode 2, l.testBit_encode 3, hpinf, hninf, hnan, hnz]

theorem Lane.merge_decode_encode (l r : Lane) : l.merge (Lane.decode r.encode) = l.merge r := by
  simp [Lane.decode_encode, Lane.merge]

/-! ### Adds and merges commute (R274, R275, R278) -/

/-- Two finite elements: SUM is an integer sum, and NZ, which INT32 leaves alone, an AND. -/
theorem Lane.add_finite_right_comm (fmt : Nat) (l : Lane) (u v : Int) (mu mv : Bool) :
    (l.add fmt (.finite u mu)).add fmt (.finite v mv) = (l.add fmt (.finite v mv)).add fmt (.finite u mu) := by
  have hsum : l.sum + u + v = l.sum + v + u := Int.add_right_comm ..
  have hnz : (l.nz && mu && mv) = (l.nz && mv && mu) := Bool.and_right_comm ..
  by_cases hfmt : fmt = 4 <;> simp [Lane.add, hfmt, hsum, hnz]

theorem Lane.add_right_comm (fmt : Nat) (l : Lane) (x y : Elem) :
    (l.add fmt x).add fmt y = (l.add fmt y).add fmt x := by
  cases x with
  | finite u mu =>
    cases y with
    | finite v mv => exact l.add_finite_right_comm fmt u v mu mv
    | _ => rfl
  | _ => cases y <;> rfl

/-- Adding to a lane before it is merged, or to the merged lane, is the same. -/
theorem Lane.merge_add (fmt : Nat) (l r : Lane) (x : Elem) : l.merge (r.add fmt x) = (l.merge r).add fmt x := by
  cases x with
  | finite u mz => by_cases hfmt : fmt = 4 <;> simp [Lane.add, Lane.merge, hfmt, Int.add_assoc, Bool.and_assoc]
  | _ => simp [Lane.add, Lane.merge]

theorem Lane.merge_comm (l r : Lane) : l.merge r = r.merge l := by
  simp [Lane.merge, Int.add_comm, Bool.or_comm, Bool.and_comm]

theorem Lane.merge_cleared {l : Lane} (hlo : -2 ^ 315 ≤ l.sum) (hhi : l.sum < 2 ^ 315) : l.merge Lane.cleared = l := by
  simp [Lane.merge, Lane.cleared, wrapSum_of_fits hlo hhi]

/-! ### Sets of contributions (R275) -/

/-- The lane after the contributions `xs`, added in turn. -/
def Lane.addAll (fmt : Nat) (l : Lane) (xs : List Elem) : Lane := xs.foldl (fun a x => a.add fmt x) l

theorem Lane.addAll_append (fmt : Nat) (l : Lane) (xs ys : List Elem) :
    l.addAll fmt (xs ++ ys) = (l.addAll fmt xs).addAll fmt ys :=
  List.foldl_append

theorem Lane.addAll_perm (fmt : Nat) (l : Lane) {xs ys : List Elem} (h : xs.Perm ys) :
    l.addAll fmt xs = l.addAll fmt ys :=
  h.foldl_eq' (fun x _ y _ a => a.add_right_comm fmt x y) l

theorem Lane.merge_addAll (fmt : Nat) (l r : Lane) (xs : List Elem) :
    l.merge (r.addAll fmt xs) = (l.merge r).addAll fmt xs :=
  (List.foldl_hom l.merge fun a x => (l.merge_add fmt a x).symm).symm

theorem Lane.addAll_merge (fmt : Nat) (l r : Lane) (xs : List Elem) :
    (l.addAll fmt xs).merge r = (l.merge r).addAll fmt xs := by
  rw [Lane.merge_comm, Lane.merge_addAll, Lane.merge_comm]

/-- Contributions that come by a raw image, begun from CLEAR, come as if added one by one. -/
theorem Lane.merge_image_addAll (fmt : Nat) {l : Lane} (hlo : -2 ^ 315 ≤ l.sum) (hhi : l.sum < 2 ^ 315)
    (xs ys : List Elem) :
    (l.addAll fmt xs).merge (Lane.decode (Lane.cleared.addAll fmt ys).encode) = l.addAll fmt (xs ++ ys) := by
  rw [Lane.merge_decode_encode, Lane.merge_addAll, Lane.addAll_merge, Lane.merge_cleared hlo hhi, Lane.addAll_append]

/-- Settles O47: adds commute with each other and with merges, so only the CLEAR lane merged into `l` is left, and it
changes nothing while `l` fits its 316 bits. -/
theorem sheafSumsDoNotDependOnOrder : Obligations.SheafSumsDoNotDependOnOrder := by
  intro fmt l xs ys
  exact ⟨l.addAll_perm fmt, fun hlo hhi => l.merge_image_addAll fmt hlo hhi xs ys⟩

end Sys2Proof.Machine

/-! PROOFS. O52, the sequence table: what its operations change, and how each command on a model or a sequence ends. -/
namespace Sys2Proof.Machine

/-! ### What the operations on the table change (R285, R287, R288, R292) -/

/-- An entry that a function owns is in the table (R288). -/
theorem State.look?_of_seq? {s : State} {n i : Nat} {x : Seq'} (hx : s.seq? n i = some x) :
    s.stu.seqs.look? i = some x :=
  (Option.filter_eq_some_iff.mp hx).1

/-- The queue's turn leaves every entry with its function. -/
@[simp] theorem State.seq?_serve (s : State) (q n i : Nat) : (s.serve q).seq? n i = s.seq? n i := rfl

theorem State.unlist_list (s : State) (m l i : Nat) :
    (s.unlist m l i).stu.lists.look [] (m * 4 + l) = (s.seqList m l).filter (· != i) :=
  Tab.look_put_same ..

theorem State.enlist_list (s : State) (m l i : Nat) :
    (s.enlist m l i).stu.lists.look [] (m * 4 + l) = s.seqList m l ++ [i] :=
  Tab.look_adj_same [] s.stu.lists (m * 4 + l) fun x => x ++ [i]

theorem State.enlist_list_of_ne (s : State) {m l j : Nat} (i : Nat) (hj : j ≠ m * 4 + l) :
    (s.enlist m l i).stu.lists.look [] j = s.stu.lists.look [] j :=
  Tab.look_adj_of_ne [] s.stu.lists (fun x => x ++ [i]) hj

/-- A freed entry leaves its level's list and the table (R288). -/
theorem State.freeSeq_stu {s : State} {i : Nat} {x : Seq'} (hx : s.stu.seqs.look? i = some x) :
    (s.freeSeq i).stu = { (s.unlist x.model x.level i).stu with seqs := s.stu.seqs.del i } := by
  simp only [State.freeSeq, hx]
  rfl

/-- Another sequence table, and nothing else. -/
theorem State.only_withStu (s : State) (u : SeqUnit) : s.only { s with stu := u } [.stu] := by
  intro r hr
  cases r with
  | stu => simp at hr
  | _ => rfl

theorem State.only_setSeq (s : State) (i : Nat) (x : Seq') : s.only (s.setSeq i x) [.stu] := s.only_withStu _
theorem State.only_unlist (s : State) (m l i : Nat) : s.only (s.unlist m l i) [.stu] := s.only_withStu _
theorem State.only_enlist (s : State) (m l i : Nat) : s.only (s.enlist m l i) [.stu] := s.only_withStu _
theorem State.only_freeSeq (s : State) (i : Nat) : s.only (s.freeSeq i) [.stu] := by
  unfold State.freeSeq
  split
  · exact State.only_refl s _
  · exact State.only_trans (s.only_unlist _ _ _) (State.only_withStu _ _)

/-! ### How a command that changes the table ends (R284) -/

/-- A head command whose turn has come leads to what its effect leads to from there. -/
theorem State.command_runs {s t : State} {q : Nat} {p : BitVec 512} {mine : BitVec 512 → Bool}
    {f : BitVec 512 → State → State} (hp : s.heads q p) (hm : mine p = true) (hf : f p (s.serve q) = t) :
    s.command q mine f = .next t := by
  rw [State.command_of_heads hp f hm, hf]

/-- Command `c` of queue `q` ends OK with VALUE `v`, and leaves a sequence table as `f` says; besides the end itself it
changes nothing but that table and the queue's turn. -/
def State.endsWithTable (s : State) (q : Nat) (c : Instr) (v : W64) (f : SeqUnit → Prop) : Prop :=
  ∃ u, exec c s = .next (u.retire q 0 v) ∧ f u.stu ∧ u.hcf = (s.serve q).hcf ∧ s.only u [.stu, .hcf, .inSc]

/-- It is enough that what the command does after its turn came stays within the table. -/
theorem State.endsWithTable_of_only {s t : State} {q : Nat} {c : Instr} {v : W64} {f : SeqUnit → Prop}
    (he : exec c s = .next (t.retire q 0 v)) (ht : (s.serve q).only t [.stu]) (hf : f t.stu) :
    s.endsWithTable q c v f :=
  ⟨t, he, hf, ht .hcf (by simp),
    State.only_trans (State.only_mono (s.only_serve q) (by simp)) (State.only_mono ht (by simp))⟩

/-- Table `u` has the models and the lists of `s`, and its entries with entry `i` written. -/
abbrev State.entryWritten (s : State) (i : Nat) (x : Seq') (u : SeqUnit) : Prop :=
  u.seqs = s.stu.seqs.ins i x ∧ u.lists = s.stu.lists ∧ u.models = s.stu.models

theorem State.endsWithTable_setSeq {s : State} {q : Nat} {c : Instr} {v : W64} {i : Nat} {x : Seq'}
    (he : exec c s = .next (((s.serve q).setSeq i x).retire q 0 v)) : s.endsWithTable q c v (s.entryWritten i x) :=
  State.endsWithTable_of_only he (State.only_setSeq _ _ _) ⟨rfl, rfl, rfl⟩

/-! ### What the checks and the records are (R282, R287, R303) -/

/-- No model record is free, or the model quota of function `n` is spent (R282, R303). -/
abbrev State.modelsFull (s : State) (n : Nat) : Prop :=
  1024 ≤ s.stu.models.length ∨ fld (s.stu.quota.look 0 n) 17 11 ≤ (s.stuHeld n).2

/-- No entry is free, or the sequence quota of function `n` is spent (R287, R303). -/
abbrev State.seqsFull (s : State) (n : Nat) : Prop :=
  65536 ≤ s.stu.seqs.length ∨ fld (s.stu.quota.look 0 n) 0 17 ≤ (s.stuHeld n).1

/-- The lengths of a STU_ADMIT packet fit its MAXLEN (R287). -/
def lengthsFit (p : BitVec 512) : Prop :=
  1 ≤ pf p 3 0 23 ∧ pf p 3 0 23 ≤ 4194304 ∧ pf p 2 0 23 < pf p 3 0 23 ∧ pf p 2 0 23 + pf p 2 23 23 ≤ pf p 3 0 23

/-- STU_ADMIT's check asks for a length that breaks R287. -/
theorem not_lengthsFit_iff {p : BitVec 512} : ¬lengthsFit p ↔
    pf p 3 0 23 < 1 ∨ 4194304 < pf p 3 0 23 ∨ pf p 3 0 23 ≤ pf p 2 0 23
      ∨ pf p 3 0 23 < pf p 2 0 23 + pf p 2 23 23 := by
  unfold lengthsFit
  omega

/-- The entry that a STU_ADMIT packet of queue `q` admits (R285, R287). -/
def State.admittedSeq (s : State) (q : Nat) (p : BitVec 512) : Seq' :=
  ⟨if pf p 0 44 1 = 1 then .suspended else .active, fnOfQueue q, pf p 0 32 10, pf p 0 42 2, pf p 2 0 23, pf p 2 23 23,
    pf p 3 0 23, false, false, false, 0, pw p 4, pw p 5, s.now⟩

section
variable {s : State} {q : Fin 16384} {p : BitVec 512} (hp : s.heads q p)
include hp

/-! ### STU_MODEL (R282) -/

section
variable (ho : opcode p = 0x30) (k : Fin 1024)
include ho

/-- What STU_MODEL does when its turn has come; the turn itself moves nothing that its checks read. -/
theorem State.exec_stuModel : exec (.stuModel q k) s = .next (
    if (s.owned? q (handleOf p)).isNone then (s.serve q).retire q stBadHandle 0
    else if s.modelsFull (fnOfQueue q) then (s.serve q).retire q 0x30 0
    else if (s.stu.models.look? k).isSome then s.serve q
    else ({ s.serve q with stu := { s.stu with models := s.stu.models.ins k (modelOf q p) } }).retire q 0
      (BitVec.ofNat 64 k)) := by
  change execStuModel q k s = _
  exact State.command_runs hp (by simp [ho]) rfl

variable (hg : s.owned? q (handleOf p) ≠ none)
include hg

theorem State.stuModel_full (hfull : s.modelsFull (fnOfQueue q)) :
    exec (.stuModel q k) s = .next ((s.serve q).retire q 0x30 0) := by
  rw [State.exec_stuModel hp ho, if_neg (by simpa using hg), if_pos hfull]

theorem State.stuModel_records (hroom : s.stu.models.length < 1024)
    (hquota : (s.stuHeld (fnOfQueue q)).2 < fld (s.stu.quota.look 0 (fnOfQueue q)) 17 11)
    (hfree : s.stu.models.look? k = none) :
    s.endsWithTable q (.stuModel q k) (BitVec.ofNat 64 k)
      fun u => u.models = s.stu.models.ins k (modelOf q p) ∧ u.seqs = s.stu.seqs := by
  have hfull : ¬s.modelsFull (fnOfQueue q) := not_or.mpr ⟨hroom.not_ge, hquota.not_ge⟩
  have he := State.exec_stuModel hp ho k
  rw [if_neg (by simpa using hg), if_neg hfull, if_neg (by simp [hfree])] at he
  exact State.endsWithTable_of_only he (State.only_withStu _ _) ⟨rfl, rfl⟩
end

/-! ### STU_MODEL_FREE (R283) -/

section
variable (ho : opcode p = 0x31)
include ho

/-- What STU_MODEL_FREE does when its turn has come. -/
theorem State.exec_stuModelFree : exec (.stuModelFree q) s = .next (
    if (s.model? (fnOfQueue q) (pf p 0 32 10)).isNone then (s.serve q).retire q 0x32 0
    else if (s.stu.seqs.any fun kv => kv.2.model == pf p 0 32 10) || !(s.liveSteps (pf p 0 32 10)).isEmpty then
      (s.serve q).retire q 0x33 0
    else ({ s.serve q with stu := { s.stu with
      models := s.stu.models.del (pf p 0 32 10)
      rot := s.stu.rot.filter fun kv => kv.1 / 4 != pf p 0 32 10 } }).retire q 0 0) := by
  change execStuModelFree q s = _
  exact State.command_runs hp (by simp [ho]) rfl

theorem State.stuModelFree_unowned (hm : s.model? (fnOfQueue q) (pf p 0 32 10) = none) :
    exec (.stuModelFree q) s = .next ((s.serve q).retire q 0x32 0) := by
  rw [State.exec_stuModelFree hp ho, if_pos (by simp [hm])]

variable (hm : s.model? (fnOfQueue q) (pf p 0 32 10) ≠ none)
include hm

theorem State.stuModelFree_busy
    (hbusy : (∃ kv ∈ s.stu.seqs, kv.2.model = pf p 0 32 10) ∨ s.liveSteps (pf p 0 32 10) ≠ []) :
    exec (.stuModelFree q) s = .next ((s.serve q).retire q 0x33 0) := by
  rw [State.exec_stuModelFree hp ho, if_neg (by simpa using hm), if_pos (by simpa using hbusy)]

theorem State.stuModelFree_frees (hseqs : ∀ kv ∈ s.stu.seqs, kv.2.model ≠ pf p 0 32 10)
    (hsteps : s.liveSteps (pf p 0 32 10) = []) :
    s.endsWithTable q (.stuModelFree q) 0
      fun u => u.models = s.stu.models.del (pf p 0 32 10) ∧ u.seqs = s.stu.seqs := by
  have he := State.exec_stuModelFree hp ho
  rw [if_neg (by simpa using hm), if_neg (by simpa [hsteps] using hseqs)] at he
  exact State.endsWithTable_of_only he (State.only_withStu _ _) ⟨rfl, rfl⟩
end

/-! ### STU_ADMIT (R287) -/

section
variable (ho : opcode p = 0x32) (k : Fin 65536)
include ho

/-- What STU_ADMIT does when its turn has come. -/
theorem State.exec_stuAdmit : exec (.stuAdmit q k) s = .next (
    if (s.model? (fnOfQueue q) (pf p 0 32 10)).isNone then (s.serve q).retire q 0x32 0
    else if pf p 3 0 23 < 1 ∨ 4194304 < pf p 3 0 23 ∨ pf p 3 0 23 ≤ pf p 2 0 23
        ∨ pf p 3 0 23 < pf p 2 0 23 + pf p 2 23 23 then
      (s.serve q).retire q 0x34 0
    else if s.seqsFull (fnOfQueue q) then (s.serve q).retire q 0x30 0
    else if (s.stu.seqs.look? k).isSome then s.serve q
    else (((s.serve q).setSeq k (s.admittedSeq q p)).enlist (pf p 0 32 10) (pf p 0 42 2) k).retire q 0
      (BitVec.ofNat 64 k)) := by
  change execStuAdmit q k s = _
  exact State.command_runs hp (by simp [ho]) rfl

theorem State.stuAdmit_unowned (hm : s.model? (fnOfQueue q) (pf p 0 32 10) = none) :
    exec (.stuAdmit q k) s = .next ((s.serve q).retire q 0x32 0) := by
  rw [State.exec_stuAdmit hp ho, if_pos (by simp [hm])]

variable (hm : s.model? (fnOfQueue q) (pf p 0 32 10) ≠ none)
include hm

theorem State.stuAdmit_of_not_lengthsFit (hlen : ¬lengthsFit p) :
    exec (.stuAdmit q k) s = .next ((s.serve q).retire q 0x34 0) := by
  rw [State.exec_stuAdmit hp ho, if_neg (by simpa using hm), if_pos (not_lengthsFit_iff.mp hlen)]

variable (hlen : lengthsFit p)
include hlen

theorem State.stuAdmit_full (hfull : s.seqsFull (fnOfQueue q)) :
    exec (.stuAdmit q k) s = .next ((s.serve q).retire q 0x30 0) := by
  rw [State.exec_stuAdmit hp ho, if_neg (by simpa using hm), if_neg (by rwa [← not_lengthsFit_iff, not_not]),
    if_pos hfull]

theorem State.stuAdmit_admits (hroom : s.stu.seqs.length < 65536)
    (hquota : (s.stuHeld (fnOfQueue q)).1 < fld (s.stu.quota.look 0 (fnOfQueue q)) 0 17)
    (hfree : s.stu.seqs.look? k = none) :
    s.endsWithTable q (.stuAdmit q k) (BitVec.ofNat 64 k) fun u =>
      let l := pf p 0 32 10 * 4 + pf p 0 42 2
      u.seqs = s.stu.seqs.ins k (s.admittedSeq q p) ∧ u.lists.look [] l = s.stu.lists.look [] l ++ [k.val]
        ∧ (∀ j, j ≠ l → u.lists.look [] j = s.stu.lists.look [] j) ∧ u.models = s.stu.models := by
  have hfull : ¬s.seqsFull (fnOfQueue q) := not_or.mpr ⟨hroom.not_ge, hquota.not_ge⟩
  have he := State.exec_stuAdmit hp ho k
  rw [if_neg (by simpa using hm), if_neg (by rwa [← not_lengthsFit_iff, not_not]), if_neg hfull,
    if_neg (by simp [hfree])] at he
  exact State.endsWithTable_of_only he (State.only_trans (State.only_setSeq _ _ _) (State.only_enlist _ _ _ _))
    ⟨rfl, State.enlist_list _ _ _ _, fun j hj => State.enlist_list_of_ne _ _ hj, rfl⟩
end

/-! ### STU_EVICT, STU_PARK and STU_MOVE of no sequence of the function (R288) -/

section
variable (hx : s.seq? (fnOfQueue q) (pf p 0 32 16) = none)
include hx

theorem State.stuEvict_unowned (ho : opcode p = 0x34) :
    exec (.stuEvict q) s = .next ((s.serve q).retire q 0x31 0) := by
  change execStuEvict q s = _
  exact State.command_runs hp (by simp [ho]) (by simp [hx])

theorem State.stuParkSuspend_unowned (ho : opcode p = 0x35) (hr : pf p 0 48 1 = 0) :
    exec (.stuParkSuspend q) s = .next ((s.serve q).retire q 0x31 0) := by
  change execStuParkSuspend q s = _
  exact State.command_runs hp (by simp [ho, hr]) (by simp [hx])

theorem State.stuParkResume_unowned (ho : opcode p = 0x35) (hr : pf p 0 48 1 = 1) :
    exec (.stuParkResume q) s = .next ((s.serve q).retire q 0x31 0) := by
  change execStuParkResume q s = _
  exact State.command_runs hp (by simp [ho, hr]) (by simp [hx])

theorem State.stuMove_unowned (ho : opcode p = 0x36) :
    exec (.stuMove q) s = .next ((s.serve q).retire q 0x31 0) := by
  change execStuMove q s = _
  exact State.command_runs hp (by simp [ho]) (by simp [hx])
end

section
variable {x : Seq'} (hx : s.seq? (fnOfQueue q) (pf p 0 32 16) = some x)
include hx

/-! ### STU_EVICT (R288) -/

section
variable (ho : opcode p = 0x34)
include ho

theorem State.stuEvict_defers (hst : x.st = .instep) :
    s.endsWithTable q (.stuEvict q) (pack [(0, 23, x.len), (23, 3, 2), (26, 1, 1)])
      (s.entryWritten (pf p 0 32 16) { x with evictp := true }) := by
  apply State.endsWithTable_setSeq
  change execStuEvict q s = _
  exact State.command_runs hp (by simp [ho]) (by simp [hx, hst, SeqState.code, b2n])

theorem State.stuEvict_frees (hst : x.st ≠ .instep) :
    s.endsWithTable q (.stuEvict q) (pack [(0, 23, x.len), (23, 3, x.st.code), (26, 1, 0)]) fun u =>
      u.seqs = s.stu.seqs.del (pf p 0 32 16) ∧ u.models = s.stu.models
        ∧ u.lists.look [] (x.model * 4 + x.level) = (s.seqList x.model x.level).filter (· != pf p 0 32 16) := by
  apply State.endsWithTable_of_only (t := (s.serve q).freeSeq (pf p 0 32 16)) _ (State.only_freeSeq _ _)
  · rw [State.freeSeq_stu (s := s.serve q) (State.look?_of_seq? hx)]
    exact ⟨rfl, rfl, State.unlist_list _ _ _ _⟩
  · change execStuEvict q s = _
    exact State.command_runs hp (by simp [ho]) (by simp [hx, hst, b2n])
end

/-! ### STU_PARK, suspend (R288) -/

section
variable (ho : opcode p = 0x35) (hr : pf p 0 48 1 = 0)
include ho hr

theorem State.stuParkSuspend_active (hst : x.st = .active) :
    s.endsWithTable q (.stuParkSuspend q) 0 (s.entryWritten (pf p 0 32 16) { x with st := .suspended }) := by
  apply State.endsWithTable_setSeq
  change execStuParkSuspend q s = _
  exact State.command_runs hp (by simp [ho, hr]) (by simp [hx, hst])

theorem State.stuParkSuspend_instep (hst : x.st = .instep) :
    s.endsWithTable q (.stuParkSuspend q) 0 (s.entryWritten (pf p 0 32 16) { x with suspp := true }) := by
  apply State.endsWithTable_setSeq
  change execStuParkSuspend q s = _
  exact State.command_runs hp (by simp [ho, hr]) (by simp [hx, hst])

theorem State.stuParkSuspend_suspended (hst : x.st = .suspended) :
    exec (.stuParkSuspend q) s = .next ((s.serve q).retire q 0 0) := by
  change execStuParkSuspend q s = _
  exact State.command_runs hp (by simp [ho, hr]) (by simp [hx, hst])

theorem State.stuParkSuspend_busy (hst : x.st = .done ∨ x.st = .faulted) :
    exec (.stuParkSuspend q) s = .next ((s.serve q).retire q 0x33 0) := by
  change execStuParkSuspend q s = _
  exact State.command_runs hp (by simp [ho, hr]) (by rcases hst with hst | hst <;> simp [hx, hst])
end

/-! ### STU_PARK, resume (R288) -/

section
variable (ho : opcode p = 0x35) (hr : pf p 0 48 1 = 1)
include ho hr

theorem State.stuParkResume_active (hst : x.st = .active) :
    exec (.stuParkResume q) s = .next ((s.serve q).retire q 0 0) := by
  change execStuParkResume q s = _
  exact State.command_runs hp (by simp [ho, hr]) (by simp [hx, hst])

theorem State.stuParkResume_instep (hst : x.st = .instep) :
    s.endsWithTable q (.stuParkResume q) 0 (s.entryWritten (pf p 0 32 16) { x with suspp := false }) := by
  apply State.endsWithTable_setSeq
  change execStuParkResume q s = _
  exact State.command_runs hp (by simp [ho, hr]) (by simp [hx, hst])

/-- A resumed sequence goes from its place in the list to the tail. -/
theorem State.stuParkResume_suspended (hst : x.st = .suspended) :
    s.endsWithTable q (.stuParkResume q) 0 fun u =>
      u.seqs = s.stu.seqs.ins (pf p 0 32 16) { x with st := .active } ∧ u.models = s.stu.models
        ∧ u.lists.look [] (x.model * 4 + x.level)
          = (s.seqList x.model x.level).filter (· != pf p 0 32 16) ++ [pf p 0 32 16] := by
  have he : exec (.stuParkResume q) s = .next (((((s.serve q).unlist x.model x.level (pf p 0 32 16)).setSeq (pf p 0 32 16)
      { x with st := .active }).enlist x.model x.level (pf p 0 32 16)).retire q 0 0) := by
    change execStuParkResume q s = _
    exact State.command_runs hp (by simp [ho, hr]) (by simp [hx, hst])
  refine State.endsWithTable_of_only he (State.only_trans (State.only_unlist _ _ _ _)
    (State.only_trans (State.only_setSeq _ _ _) (State.only_enlist _ _ _ _))) ⟨rfl, rfl, ?_⟩
  rw [State.enlist_list]
  exact congrArg (· ++ [pf p 0 32 16]) (State.unlist_list (s.serve q) _ _ _)

theorem State.stuParkResume_busy (hst : x.st = .done ∨ x.st = .faulted) :
    exec (.stuParkResume q) s = .next ((s.serve q).retire q 0x33 0) := by
  change execStuParkResume q s = _
  exact State.command_runs hp (by simp [ho, hr]) (by rcases hst with hst | hst <;> simp [hx, hst])
end

/-! ### STU_MOVE (R288) -/

section
variable (ho : opcode p = 0x36)
include ho

theorem State.stuMove_suspended (hst : x.st = .suspended) :
    s.endsWithTable q (.stuMove q) 0 (s.entryWritten (pf p 0 32 16) { x with addr := pw p 2 }) := by
  apply State.endsWithTable_setSeq
  change execStuMove q s = _
  exact State.command_runs hp (by simp [ho]) (by simp [hx, hst])

theorem State.stuMove_busy (hst : x.st ≠ .suspended) :
    exec (.stuMove q) s = .next ((s.serve q).retire q 0x33 0) := by
  change execStuMove q s = _
  exact State.command_runs hp (by simp [ho]) (by simp [hx, hst])
end
end
end

/-! ### O52 -/

/-- Settles O52, one lemma per command and outcome: the checks come in the order of R282 to R288, the turn of the queue
moves nothing they read, and what a command does stays within the sequence table. -/
theorem sequenceCommands : Obligations.SequenceCommands := by
  intro s q p hp
  refine ⟨fun k ho => ⟨fun hg => State.stuModel_of_unowned hp hg ho k,
      fun hg => ⟨State.stuModel_full hp ho k hg, State.stuModel_records hp ho k hg⟩⟩,
    fun ho => ⟨State.stuModelFree_unowned hp ho,
      fun hm => ⟨State.stuModelFree_busy hp ho hm, State.stuModelFree_frees hp ho hm⟩⟩,
    fun k ho => ⟨State.stuAdmit_unowned hp ho k, State.stuAdmit_of_not_lengthsFit hp ho k,
      State.stuAdmit_full hp ho k, State.stuAdmit_admits hp ho k⟩,
    ?_, fun x hx => ⟨?_, ?_, ?_, ?_⟩⟩
  · rintro c (⟨ho, rfl⟩ | ⟨ho, hr, rfl⟩ | ⟨ho, hr, rfl⟩ | ⟨ho, rfl⟩) hx
    · exact State.stuEvict_unowned hp hx ho
    · exact State.stuParkSuspend_unowned hp hx ho hr
    · exact State.stuParkResume_unowned hp hx ho hr
    · exact State.stuMove_unowned hp hx ho
  · exact fun ho => ⟨State.stuEvict_defers hp hx ho, State.stuEvict_frees hp hx ho⟩
  · exact fun ho hr => ⟨State.stuParkSuspend_active hp hx ho hr, State.stuParkSuspend_instep hp hx ho hr,
      State.stuParkSuspend_suspended hp hx ho hr, State.stuParkSuspend_busy hp hx ho hr⟩
  · exact fun ho hr => ⟨State.stuParkResume_active hp hx ho hr, State.stuParkResume_instep hp hx ho hr,
      State.stuParkResume_suspended hp hx ho hr, State.stuParkResume_busy hp hx ho hr⟩
  · exact fun ho => ⟨State.stuMove_suspended hp hx ho, State.stuMove_busy hp hx ho⟩

end Sys2Proof.Machine
